-- ==== Sys2Proof/Word.lean ====
section
/-! DEFINITION. The words of the part: bytes on its links, the numbering of its screens, lanes and runners, stereo
samples, and the one shape in which a large store is held (a sparse table of (index, content) pairs). -/

namespace Sys2Proof

/-- One byte on a link. -/
abbrev Byte := BitVec 8

/-- Screens are numbered 0 to 3, and loop n serves screen n (spec/00_scope.md, Numbering of the site). -/
abbrev ScreenId := Fin 4

/-- Lanes 0 to 3 are E0 to E3, lanes 4 and 5 are X0 and X1. -/
abbrev LaneId := Fin 6

/-- Runners are numbered 0 to 31 (R177). -/
abbrev RunnerId := Fin 32

/-- Kitchen stations are numbered 0 to 5 (R160). -/
abbrev StationId := Fin 6

/-- A stereo sample frame: left and right, each a signed number. -/
abbrev Stereo := Int × Int

/-- A sparse table: (index, content) pairs with the indexes strictly rising and no pair whose content is the table's
default. An index that is not listed holds the default. Machine/Tab.lean reads and writes it. -/
abbrev Tab (α : Type) := List (Nat × α)

end Sys2Proof
end

