-- ==== Sys2Proof/Config.lean ====
section
/-! DEFINITION. The values the spec leaves open. Each is an opaque constant with no body: nothing can be proved about
which value it is. -/

namespace Sys2Proof

/-- The raw contents of both halves of a damaged record, as STORE_FAULT carries them (R191). The spec describes the
records by their fields and not by their bits, so the bytes are open (log entry 3). The argument is
the count of such values read so far. -/
opaque Config.rawHalves : Nat → List Byte

/-- What the 4-byte night clock holds one millisecond after 4,294,967,295 (R208 states no result there; log entry 4). -/
opaque Config.clockPastTop : Nat → Nat

/-- The reel number SHOW STATUS gives for an emptied active set (R32 states none; log entry 5). -/
opaque Config.emptySetReel : Nat

/-- The reel length SHOW STATUS gives for an emptied active set (R32 states none; log entry 5). -/
opaque Config.emptySetLength : Nat

/-- The code of a CAR_STATE cause on the host link: no rule or table lists the causes in one order (R203; log entry 6). -/
opaque Config.carStateCauseCode : Nat → Byte

end Sys2Proof
end

