-- ==== Sys2Proof/Syntax.lean ====
section
/-! DEFINITION. The commands the part takes: one constructor of Instr for each row of spec/opcode_table.json, with the
row's operands. A host request carries its TAG and the fields of its body as the numbers R203 decodes them to (an
enumeration is its code, a flag is 0 or 1), so that a malformed field (R202) can be spelled. An event of the equipment
carries typed operands, since only the lines that exist can change. The bytes of the host link that are not one whole good
frame reach the receiver with HOST_FRAME_DISCARD and HOST_FRAME_GAP (R201; log entry 33). -/

namespace Sys2Proof

/-- The two projector heads of a screen. Odd reels run on A, even reels on B (R3). -/
inductive Head where
  | a | b
deriving DecidableEq, Repr

/-- What a loop detector of a lane reports (R91); the host link codes the three in this order (the model's choice, log entry
9). -/
inductive Detector where
  | occupied | clear | fault
deriving DecidableEq, Repr

/-- What a barrier's feedback reports (R92). -/
inductive Feedback where
  | up | down | moving
deriving DecidableEq, Repr

/-- One cue of a LOAD CUES body, as sent: kind code, frame, argument (R9). -/
structure WireCue where
  kind : Nat
  frame : Nat
  arg : Nat
deriving DecidableEq, Repr

/-- One line of an order, as sent: item and quantity (R149). -/
structure WireLine where
  item : Nat
  qty : Nat
deriving DecidableEq, Repr

/-- The record a lane's ticket reader passes: ticket number, class code (0 CAR, 1 PASS, 2 STAFF, 3 COMP), screen choice
(0 to 3, or 4 for ANY) and the reader's own check flag (R94). -/
structure Credential where
  ticket : Nat
  cls : Nat
  choice : Nat
  good : Bool
deriving DecidableEq, Repr

/-- The commands, in the order of spec/opcode_table.json. -/
inductive Instr where
  -- The Show Timeline
  | atSpeedChange (sc : ScreenId) (h : Head) (on : Bool)
  | runoutChange (sc : ScreenId) (h : Head) (on : Bool)
  | lampOkChange (sc : ScreenId) (h : Head) (on : Bool)
  | framePulse (sc : ScreenId) (h : Head)
  | startTimerExpiry (sc : ScreenId)
  | motorLeadReached (sc : ScreenId)
  | breakCountdownExpiry (sc : ScreenId)
  | loadCues (tag screen reel length : Nat) (cues : List WireCue)
  | start (tag screen : Nat)
  | resume (tag screen : Nat)
  | stopShow (tag screen : Nat)
  | clearShow (tag screen : Nat)
  | flagSet (tag screen flag value : Nat)
  | lights (tag screen level : Nat)
  | timelineSet (tag screen start lead : Nat)
  | showStatus (tag screen : Nat)
  | resetScreen (tag screen : Nat)
  -- Programme Sound and the Sync Servo
  | soundLinkByte (sc : ScreenId) (b : Byte)
  | soundBlockGap (sc : ScreenId)
  | outputTick (sc : ScreenId)
  | coastGapExpiry (sc : ScreenId)
  | coastLimitExpiry (sc : ScreenId)
  | source (tag screen src : Nat)
  | servoSet (tag screen : Nat) (offset : Int) (window deadband gain rmax limit : Nat)
  | levelSet (tag screen level : Nat)
  | soundStatus (tag screen : Nat)
  -- Post Loops
  | transactionStart (lp : ScreenId)
  | headerSent (lp : ScreenId)
  | loopResponse (lp : ScreenId) (bytes : List Byte)
  | responseWindowExpiry (lp : ScreenId)
  | loopStrayBytes (lp : ScreenId) (bytes : List Byte)
  | recoveryTimerExpiry (lp : ScreenId) (post : Nat)
  | lendRequestRise (lp : ScreenId)
  | lendRequestFall (lp : ScreenId)
  | lendTimerExpiry (lp : ScreenId)
  | lentResponseHeard (lp : ScreenId) (bytes : List Byte)
  | postMap (tag loop : Nat) (presence : List Nat)
  | send (tag loop post kind enable0 value0 enable1 value1 prio : Nat)
  | sendAbort (tag loop slot : Nat)
  | fieldSummary (tag loop : Nat)
  | loopSet (tag loop window lendAllowed lend : Nat)
  | loopStatus (tag loop : Nat)
  | postStatus (tag loop post : Nat)
  | loopReset (tag loop : Nat)
  -- Gate Lanes and Admission
  | armingLoopChange (ln : LaneId) (d : Detector)
  | barrierLoopChange (ln : LaneId) (d : Detector)
  | barrierFeedbackChange (ln : LaneId) (f : Feedback)
  | barrierTravelExpiry (ln : LaneId)
  | credential (ln : LaneId) (c : Credential)
  | dwellExpiry (ln : LaneId)
  | stallTimerExpiry (ln : LaneId)
  | exitReadExpiry (ln : LaneId)
  | laneOpen (tag lane : Nat)
  | laneClose (tag lane : Nat)
  | laneSet (tag lane dwell stall : Nat) (exitRead : Option Nat)
  | laneStatus (tag lane : Nat)
  | ticketQuery (tag ticket : Nat)
  -- The Car Table and the Field
  | checkinLimitExpiry (car : Nat)
  | sitePlan (tag screen : Nat) (bays : List Nat)
  | capacitySet (tag screen capacity : Nat)
  | ctSet (tag limit : Nat)
  | carRemove (tag car : Nat)
  | carQuery (tag car : Nat)
  | bayQuery (tag bay : Nat)
  | fieldStatus (tag screen : Nat)
  -- Menu, Stock and Order Intake
  | menuSet (tag item station price available mode : Nat)
  | restock (tag item qty : Nat)
  | stockWaste (tag item qty : Nat)
  | orderEnter (tag bay mode : Nat) (lines : List WireLine)
  | orderRelease (tag screen : Nat)
  | forceCancel (tag order : Nat)
  | menuQuery (tag item : Nat)
  | orderQuery (tag order : Nat)
  | oeStatus (tag : Nat)
  -- Kitchen Stations and the Ready List
  | stationNext (tag station : Nat)
  | stationDone (tag station order line : Nat)
  | stationStatus (tag station : Nat)
  | readyStatus (tag : Nat)
  -- Runner Takes
  | take (tag runner filter arg : Nat)
  | delivered (tag runner order : Nat)
  | returnOrder (tag runner order : Nat)
  | takeTimerExpiry (runner : RunnerId)
  | runnerSet (tag limit : Nat)
  | runnerStatus (tag runner : Nat)
  | runnersStatus (tag : Nat)
  -- The Record Store
  | storeTestVisit
  | storeTest (tag table : Nat)
  | storeStatus (tag : Nat)
  | storeClear (tag : Nat)
  -- The Host Link, Reports and Start-Up
  | hostFrameDiscard
  | hostFrameGap
  | unknownKind (kind tag : Nat)
  | requestBusy (kind tag : Nat)
  | linkFrameSent
  | openNight (tag : Nat)
  | closeNight (tag : Nat)
  | resetDevice (tag : Nat)
  | deviceReset
  | powerOn
  | linkStatus (tag : Nat)
deriving DecidableEq, Repr

end Sys2Proof
end

