-- ==== Sys2Proof/Decode.lean ====
section
/-! DEFINITION. The reading of a table word. The part is a block with no instruction words: no row of
spec/opcode_table.json gives any bits, so no word spells a command. -/

namespace Sys2Proof

/-- The command a word spells by the table's bits: no row gives bits, so none. -/
def decodeTableWord (_nbits _w : Nat) : Option Instr :=
  none

end Sys2Proof
end

