-- ==== Sys2Proof/Machine/State.lean ====
section
/-! DEFINITION. The whole state of the part, block by block, as plain data, the reasons a step can stop, and the state
right after power-on. Every enumeration lists its values in the order in which the spec lists them, since R203 codes
them by that order. Times are in milliseconds unless a field says otherwise; a stopped countdown is none. -/

namespace Sys2Proof.Machine

/-! ## Show Timeline Unit (R1 to R34) -/

/-- The head states, in the order of R1's table. -/
inductive HeadState where
  | fault | idle | spinning | runout | running
deriving DecidableEq, Repr

/-- The show states (spec/01_the_show_timeline.md, The screen record). -/
inductive ShowState where
  | dark | loaded | starting | playing | onBreak | held | ended | halted
deriving DecidableEq, Repr

/-- The causes of a change of show state, in the order of R4's table. -/
inductive ShowCause where
  | loadCues | start | startTimer | changeover | runout | stall | recovery | secondFault | stopShow | clearShow
  | resetScreen
deriving DecidableEq, Repr

/-- The two causes of a fault event (R2). -/
inductive FaultCause where
  | lamp | speed
deriving DecidableEq, Repr

/-- The cue kinds, in the order of R8's table. -/
inductive CueKind where
  | motor | changeover | lights | gateClose | lastCall | breakLead | mark
deriving DecidableEq, Repr

/-- A cue: what it does, at which frame of the reel, with which argument (0 where its kind takes none). -/
structure Cue where
  kind : CueKind
  frame : Nat
  arg : Nat
deriving DecidableEq, Repr

/-- A cue set: reel number, reel length, and the cues in list order, each with its fired marker (R5, R9). -/
structure CueSet where
  reel : Nat
  length : Nat
  cues : List (Cue × Bool)
deriving DecidableEq, Repr

/-- A head record: the two commands as last given, the three line states as last seen, the speed-lost marker (R1) and
the stop-at-runout marker (R15). -/
structure HeadRec where
  motor : Bool
  douser : Bool
  atSpeed : Bool
  runout : Bool
  lampOk : Bool
  speedLost : Bool
  stopAtRunout : Bool
deriving DecidableEq, Repr

/-- A screen record (spec/01_the_show_timeline.md, The screen record). `active` is none for an emptied active set, and
`f` is the show frame count F. -/
structure Screen where
  phase : ShowState
  reel : Nat
  frame : Nat
  f : BitVec 32
  active : Option CueSet
  staged : Option CueSet
  countdown : Option Nat
  heldHead : Option Head
  leadFired : Bool
  headA : HeadRec
  headB : HeadRec
  lights : Nat
  gateOpen : Bool
  orderingOpen : Bool
  breakWindow : Bool
  startTimer : Option Nat
  startSetting : Nat
  leadSetting : Nat
deriving DecidableEq, Repr

/-! ## Sound Path Unit (R35 to R64) -/

/-- The servo states (spec/02, The servo record). -/
inductive ServoState where
  | silent | capture | track | locked | coast
deriving DecidableEq, Repr

/-- The sources of a screen's sound (R55). -/
inductive Source where
  | programme | onBreak | mute
deriving DecidableEq, Repr

/-- The causes of a source request (R56). -/
inductive SourceCause where
  | auto | host
deriving DecidableEq, Repr

/-- A stored sound block: the block or sequence number it is keyed by, and its 256 stereo frames (R37, R39). -/
structure Block where
  tag : Nat
  frames : List Stereo
deriving DecidableEq, Repr

/-- The servo settings of R41 that SERVO SET changes. -/
structure ServoSettings where
  offset : Int
  window : Nat
  deadband : Nat
  gain : Nat
  rmax : Nat
  coastLimit : Nat
deriving DecidableEq, Repr

/-- The servo record (spec/02, The servo record). `gap` is the open underrun gap: its start position and its length
so far. -/
structure Servo where
  state : ServoState
  p : BitVec 32
  a : Int
  r : Int
  lockRun : Nat
  error : Option Int
  prev : Stereo
  gap : Option (BitVec 32 × Nat)
  coastGap : Option Nat
  coastLimit : Option Nat
  settings : ServoSettings
deriving DecidableEq, Repr

/-- One screen's sound path: the link receiver (none while hunting, the bytes of the block so far otherwise, R35), the
two rings, the break cursor, whether a run of break gaps is open (R40), the servo, the source and the level record
(R54; `ramp` is the pending source of the ramp-down in progress with its cause), the counts and the two outputs
(R59). -/
structure Sound where
  rx : Option (List Byte)
  prog : Tab (Option Block)
  brk : Tab (Option Block)
  cursor : Option (Nat × Nat)
  breakGapOpen : Bool
  servo : Servo
  source : Source
  ramp : Option (Source × SourceCause)
  level : Nat
  target : Nat
  stepCount : Nat
  linkErrors : Nat
  late : Nat
  early : Nat
  jumps : Nat
  underruns : Nat
  breakGaps : Nat
  feed : Stereo
  bus : Stereo
deriving DecidableEq, Repr

/-! ## Loop Poller (R65 to R90) -/

/-- The confinement states of a post (R69). -/
inductive Confinement where
  | heard | doubtful | dropped
deriving DecidableEq, Repr

/-- A post table entry (R69): lamp values are the codes of spec/03's lamp list, the last accepted sequence is 0, 1 or
none. -/
structure Post where
  present : Bool
  errors : Nat
  conf : Confinement
  turn : Nat
  recovery : Option Nat
  probeDue : Bool
  lamp0 : Nat
  lamp1 : Nat
  spk0 : Bool
  spk1 : Bool
  lastSeq : Option Nat
deriving DecidableEq, Repr

/-- The states of an outbound slot (R75). -/
inductive SlotUse where
  | free | pending | inFlight
deriving DecidableEq, Repr

/-- The payload kinds (spec/03, The loop frame). -/
inductive SlotKind where
  | lamps | speakers
deriving DecidableEq, Repr

/-- Who placed an outbound slot (R75). -/
inductive Origin where
  | ct | oe | host
deriving DecidableEq, Repr

/-- An outbound slot (R75): the values are None for a side that is not enabled. -/
structure OutSlot where
  use : SlotUse
  post : Nat
  kind : SlotKind
  v0 : Option Nat
  v1 : Option Nat
  prio : Nat
  origin : Origin
  age : Nat
  fails : Nat
deriving DecidableEq, Repr

/-- The functions of a header (spec/03, The loop frame). -/
inductive LoopFn where
  | poll | send | probe
deriving DecidableEq, Repr

/-- Where a transaction stands: its header is being sent, or its response window is open with the window's length and
what is left of it, both in tenths of a millisecond (none: a window setting of 0, R66). -/
inductive WindowState where
  | sending
  | listening (length : Nat) (left : Option Nat)
deriving DecidableEq, Repr

/-- The transaction in flight (R65), with the header as it goes out on the line. -/
structure Transaction where
  post : Nat
  fn : LoopFn
  slot : Option (Fin 16)
  waits : Nat
  agains : Nat
  header : List Byte
  window : WindowState
deriving DecidableEq, Repr

/-- A repeat asked for by an AGAIN and not yet started (R67). -/
structure RepeatDue where
  post : Nat
  fn : LoopFn
  slot : Option (Fin 16)
  agains : Nat
  header : List Byte
deriving DecidableEq, Repr

/-- The ownership states of a loop (R84). -/
inductive Ownership where
  | polling | yielding | lent | reclaiming
deriving DecidableEq, Repr

/-- One loop's poller state. `nextAge` numbers the slots in the order in which they are placed (R73), `windowSetting`
is in tenths of a millisecond and `lendSetting` in seconds (R87). -/
structure LoopRec where
  posts : Tab Post
  slots : Vector OutSlot 16
  nextAge : Nat
  owner : Ownership
  lendAllowed : Bool
  request : Bool
  grant : Bool
  lendTimer : Option Nat
  overflow : Bool
  cursor : Nat
  sendRun : Nat
  current : Option Transaction
  repeatDue : Option RepeatDue
  rows : Tab Bool
  errors : Nat
  repeats : Nat
  badRecords : Nat
  undelivered : Nat
  windowSetting : Nat
  lendSetting : Nat
deriving DecidableEq, Repr

/-! ## Gate Lane Controller (R91 to R116) -/

/-- The lane states (spec/04, The lane record). -/
inductive LaneState where
  | closed | empty | present | opening | passing | closing | stalled
deriving DecidableEq, Repr

/-- The barrier commands (R92). -/
inductive Barrier where
  | up | down
deriving DecidableEq, Repr

/-- The reasons of a refused admission, in the order of R100. -/
inductive Refuse where
  | used | late | full | storeError | closed
deriving DecidableEq, Repr

/-- What a lane's reader shows the driver (R94). -/
inductive ReaderAnswer where
  | admitted (screen : ScreenId)
  | refusedFor (reason : Refuse)
  | reRead
  | laneClosed
  | go
  | notFound
deriving DecidableEq, Repr

/-- What a lane holds: nothing, a pending admission of an entry lane, or a pending exit of an exit lane (R99, R107,
R108). -/
inductive Pending where
  | absent
  | admission (car ticket : Nat) (screen : ScreenId)
  | exit (car : Nat)
  | anonymous
deriving DecidableEq, Repr

/-- The lane counters (R112). -/
structure LaneCounts where
  crossings : Nat
  used : Nat
  late : Nat
  full : Nat
  storeError : Nat
  closed : Nat
  withdrawals : Nat
  tailgates : Nat
  anonymous : Nat
  readerErrors : Nat
deriving DecidableEq, Repr

/-- A lane record (spec/04). The four countdowns are the dwell, stall, barrier travel and exit read timers; the
settings are in seconds; `answer` is what the reader last showed. -/
structure Lane where
  state : LaneState
  arming : Detector
  barrierLoop : Detector
  command : Barrier
  feedback : Feedback
  pending : Pending
  closeDeferred : Bool
  dwell : Option Nat
  stall : Option Nat
  travel : Option Nat
  exitRead : Option Nat
  counts : LaneCounts
  dwellSetting : Nat
  stallSetting : Nat
  exitReadSetting : Nat
  answer : Option ReaderAnswer
deriving DecidableEq, Repr

/-! ## The records of the Record Store (R117, R120, R137, R142, R111) -/

/-- The ticket classes (R94). -/
inductive TicketClass where
  | car | pass | staff | comp
deriving DecidableEq, Repr

/-- The states of a car (R117). -/
inductive CarState where
  | entering | onField | parked | leaving
deriving DecidableEq, Repr

/-- A car record (R117). -/
structure Car where
  number : Nat
  ticket : Nat
  cls : TicketClass
  screen : ScreenId
  state : CarState
  entryLane : LaneId
  entryMinute : Nat
  bay : Option Nat
  checkin : Option Nat
  wired : Bool
  orders : List Nat
  unchecked : Bool
deriving DecidableEq, Repr

/-- The record of an open bay (R120). A closed bay's slot is free and holds no record (R190). -/
structure Bay where
  occupant : Option Nat
  speaker : Bool
deriving DecidableEq, Repr

/-- The stock modes (R137). -/
inductive StockMode where
  | finite | unlimited
deriving DecidableEq, Repr

/-- The record of a defined menu item with its five tallies (R137). -/
structure MenuItem where
  station : StationId
  price : Nat
  available : Bool
  mode : StockMode
  loaded : Nat
  remaining : Nat
  pending : Nat
  sold : Nat
  waste : Nat
deriving DecidableEq, Repr

/-- The states of an order line (R161). -/
inductive LineState where
  | pending | making | done
deriving DecidableEq, Repr

/-- One line of an order (R142). -/
structure Line where
  item : Nat
  qty : Nat
  state : LineState
deriving DecidableEq, Repr

/-- The order modes (R142). -/
inductive OrderMode where
  | now | atBreak
deriving DecidableEq, Repr

/-- The order states (R142). -/
inductive OrderState where
  | held | queued | ready | taken
deriving DecidableEq, Repr

/-- An order record (R142). -/
structure Order where
  number : Nat
  car : Nat
  screen : ScreenId
  mode : OrderMode
  state : OrderState
  lines : List Line
  total : Nat
  accepted : Nat
  readyMinute : Option Nat
  taker : Option RunnerId
  carGone : Bool
deriving DecidableEq, Repr

/-- A used-ticket entry (R111). -/
structure Ticket where
  ticket : Nat
  lane : LaneId
  minute : Nat
deriving DecidableEq, Repr

/-! ## Record Store (R190 to R200) -/

/-- The five tables, in the order of R190. -/
inductive TableId where
  | car | bay | order | menu | ticket
deriving DecidableEq, Repr

/-- Which halves of a record were found wrong (R191). -/
inductive Halves where
  | first | second | both
deriving DecidableEq, Repr

/-- A slot's state (R190). A slot in use holds its record; a slot under test remembers whether it was quarantined. -/
inductive SlotState (ρ : Type) where
  | free
  | inUse (record : ρ)
  | quarantined
  | underTest (wasQuarantined : Bool)
deriving DecidableEq, Repr

/-- One slot of a table: its state, whether the stored halves have wrong parity, and whether the memory of the slot
fails the slot test (R197). No command damages memory: the surroundings do, between steps (log entry 2). -/
structure Slot (ρ : Type) where
  state : SlotState ρ
  badFirst : Bool
  badSecond : Bool
  failing : Bool
deriving DecidableEq, Repr

/-- The key by which the slot index names a record (R190): its number, and for an order slot the order's car. -/
structure Key where
  number : Nat
  car : Option Nat
deriving DecidableEq, Repr

/-- The running slot test: table, cursor and the four counts (R196). -/
structure TestRun where
  table : TableId
  cursor : Nat
  visited : Nat
  passed : Nat
  returned : Nat
  quarantined : Nat
deriving DecidableEq, Repr

/-- The Record Store: the five tables, the fault latch and count (R191), the quarantines waiting for their owner
(R192) and the running test (R196). The slot index of R190 is a view of the records, kept undamaged. -/
structure Store where
  cars : Tab (Slot Car)
  bays : Tab (Slot Bay)
  orders : Tab (Slot Order)
  menu : Tab (Slot MenuItem)
  tickets : Tab (Slot Ticket)
  latch : Option (TableId × Nat × Halves)
  faultCount : Nat
  waiting : List (TableId × Nat × Key)
  test : Option TestRun
deriving DecidableEq, Repr

/-! ## Order Engine lists (R150, R160, R167, R177) -/

/-- An entry of a held list: the order number and, for each of its lines in order, the station of the line's item
(R150, R194). -/
structure HeldEntry where
  order : Nat
  stations : List StationId
deriving DecidableEq, Repr

/-- A line reference of a station queue (R160), with what STATION STATUS shows of the line without a read (R174). -/
structure LineRef where
  order : Nat
  line : Nat
  item : Nat
  qty : Nat
  state : LineState
deriving DecidableEq, Repr

/-- A ready-list entry (R167). -/
structure ReadyEntry where
  order : Nat
  car : Nat
  row : Option Nat
deriving DecidableEq, Repr

/-- Why a runner's last take was ended by the part (R177). -/
inductive ReleaseCause where
  | expired | lost
deriving DecidableEq, Repr

/-- A runner record (R177): HOLDING exactly while `held` is present. -/
structure Runner where
  held : Option Nat
  timer : Option Nat
  last : Option (Nat × ReleaseCause)
deriving DecidableEq, Repr

/-! ## Results, replies and reports (R201 to R207) -/

/-- The result codes (spec/10, the result table). -/
inductive Result where
  | ok | clamped | state | range | unknown | full | busy | tooLate | paused | storeError | closed | soldOut | limit
  | notParked | used | late | badCode | wrongField | inMaking | noSuch
deriving DecidableEq, Repr

/-- The indications of a reply (spec/10). -/
inductive Indication where
  | none | deferred | queued | ready | voided | carGone | truncated
deriving DecidableEq, Repr

/-- A part of a body: bytes, or a list with a count of 1 or 2 bytes before its entries (R203). -/
inductive Field where
  | raw (bytes : List Byte)
  | list (countBytes : Nat) (entries : List (List Byte))
deriving DecidableEq, Repr

/-- A reply before it is put into bytes (R205). -/
structure Reply where
  result : Result
  indication : Indication
  fields : List Field
deriving DecidableEq, Repr

/-- The causes of WITHDRAWN (R102). -/
inductive WithdrawCause where
  | backout | dwell
deriving DecidableEq, Repr

/-- The two loops of a lane (R91). -/
inductive LaneLoop where
  | arming | barrier
deriving DecidableEq, Repr

/-- The causes of a CAR_STATE report (R124, R127). -/
inductive CarCause where
  | exitRead | exitWithdrawn | displaced | bayClosed | bayLost
deriving DecidableEq, Repr

/-- The causes of DEPARTED (spec/10, the report table). -/
inductive DepartCause where
  | exit | host | store
deriving DecidableEq, Repr

/-- Where an order came from (R146). -/
inductive OrderSource where
  | post | host
deriving DecidableEq, Repr

/-- The causes of ORDER_CANCELLED (R152). -/
inductive CancelCause where
  | post | host | departed
deriving DecidableEq, Repr

/-- The causes of ORDER_VOIDED (R173). -/
inductive VoidCause where
  | departed | carLost | carGone
deriving DecidableEq, Repr

/-- The causes of READY (R210). -/
inductive ReadyCause where
  | power | host
deriving DecidableEq, Repr

/-- The reports, in the order of their codes 0xC0 to 0xFB, with their fields (spec/10, Catalogue of reports). -/
inductive Report where
  | headFault (sc : ScreenId) (h : Head) (cause : FaultCause) (phase : ShowState)
  | headOk (sc : ScreenId) (h : Head) (state : HeadState)
  | showState (sc : ScreenId) (old new : ShowState) (reel : Nat) (cause : ShowCause)
  | cueMark (sc : ScreenId) (reel frame tag : Nat)
  | startFailed (sc : ScreenId) (state : HeadState)
  | cuesetMismatch (sc : ScreenId) (reel setReel : Nat)
  | cuesetMissing (sc : ScreenId) (reel : Nat)
  | changeoverLate (sc : ScreenId) (reel : Nat) (state : HeadState)
  | changeoverEarly (sc : ScreenId) (reel frame : Nat)
  | stall (sc : ScreenId) (h : Head) (reel frame : Nat)
  | syncCapture (sc : ScreenId) (left : ServoState) (p : BitVec 32)
  | syncJump (sc : ScreenId) (e : Int) (before : ServoState)
  | syncTrack (sc : ScreenId) (e : Int)
  | syncLocked (sc : ScreenId)
  | lockLost (sc : ScreenId) (e : Int)
  | syncCoast (sc : ScreenId) (p : BitVec 32)
  | syncLost (sc : ScreenId) (p : BitVec 32)
  | underrun (sc : ScreenId) (start : BitVec 32) (length : Nat)
  | sourceChanged (sc : ScreenId) (old new : Source) (cause : SourceCause)
  | postState (lp : ScreenId) (post : Nat) (old new : Confinement) (errors : Nat)
  | sendDone (lp : ScreenId) (slot : Fin 16)
  | sendUndelivered (lp : ScreenId) (post : Nat) (kind : SlotKind) (v0 v1 : Option Nat) (origin : Origin)
  | helpCall (lp : ScreenId) (post side bay : Nat)
  | lendRefused (lp : ScreenId)
  | lendStart (lp : ScreenId)
  | lendEnd (lp : ScreenId)
  | lendOverrun (lp : ScreenId)
  | detectorFault (ln : LaneId) (loop : LaneLoop)
  | detectorOk (ln : LaneId) (loop : LaneLoop) (state : Detector)
  | barrierFault (ln : LaneId) (command : Barrier) (feedback : Feedback)
  | tailgate (ln : LaneId) (left : LaneState)
  | admitted (ln : LaneId) (car ticket : Nat) (cls : TicketClass) (screen : ScreenId)
  | refuse (ln : LaneId) (ticket : Nat) (cls : TicketClass) (choice : Nat) (chosen : Option ScreenId) (reason : Refuse)
  | withdrawn (ln : LaneId) (car ticket : Option Nat) (cause : WithdrawCause)
  | entered (ln : LaneId) (car : Nat)
  | laneStall (ln : LaneId) (car : Option Nat)
  | laneStallClear (ln : LaneId)
  | laneClosed (ln : LaneId)
  | checkinRefused (bay code : Nat) (reason : Result)
  | checkin (car bay : Nat) (oldBay displaced : Option Nat) (wish : Bool)
  | carState (car : Nat) (old new : CarState) (cause : CarCause)
  | capacityChanged (sc : ScreenId) (old new : Nat)
  | unchecked (car : Nat) (sc : ScreenId) (minute : Nat)
  | departed (car : Nat) (ticket : Option Nat) (sc : Option ScreenId) (cause : DepartCause)
  | menuStock (item loaded remaining pending sold waste : Nat)
  | orderIn (order car bay : Nat) (sc : ScreenId) (mode : OrderMode) (first : OrderState) (total : Nat)
      (lines : List (Nat × Nat)) (source : OrderSource)
  | orderRefused (bay : Nat) (source : OrderSource) (reason : Result) (item : Option Nat)
  | cancelRefused (bay order : Nat) (reason : Result)
  | orderCancelled (order car : Nat) (state : OrderState) (cause : CancelCause)
  | heldReleased (sc : ScreenId) (count : Nat)
  | orderReady (order car : Nat) (bay : Option Nat) (sc : ScreenId) (minute length : Nat)
  | orderVoided (order car : Nat) (state : OrderState) (cause : VoidCause) (returned wasted : Nat)
  | orderTaken (runner : RunnerId) (order car : Nat) (bay : Option Nat)
  | delivered (runner : RunnerId) (order car : Nat) (bay : Option Nat) (total : Nat) (gone : Bool)
  | orderReturned (runner : RunnerId) (order : Nat)
  | takeExpired (runner : RunnerId) (order car : Nat) (bay : Option Nat) (voided : Bool)
  | takeLost (runner : RunnerId) (order : Nat)
  | storeFault (table : TableId) (slot : Nat) (key : Key) (halves : Halves) (contents : List Byte)
  | storeTestDone (table : TableId) (visited passed returned quarantined : Nat)
  | ready (cause : ReadyCause) (quarantined : Nat)
deriving DecidableEq, Repr

/-- A report in the queue, with the night clock at the moment it was raised (R206). -/
structure QueuedReport where
  time : Nat
  report : Report
deriving DecidableEq, Repr

/-- A place of the reply list: a request with its reply, or a BUSY answer (R204). -/
inductive Place where
  | request (kind tag : Nat) (reply : Reply)
  | busy (kind tag : Nat)
deriving DecidableEq, Repr

/-- The transmitter: free, sending the reply at the head of the list, or sending a report with its REPORTS_LOST flag
(R206, R207). -/
inductive Tx where
  | idle
  | reply
  | report (q : QueuedReport) (lostFlag : Bool)
deriving DecidableEq, Repr

/-- The part states (R208). -/
inductive PartState where
  | setup | run
deriving DecidableEq, Repr

/-- The Link Interface: the receiver (none while hunting, the bytes after SYNC of the frame so far otherwise, R201),
part state, night clock, link error count, reply list, report queue, lost flag, reports-lost count and transmitter. -/
structure Link where
  rx : Option (List Byte)
  part : PartState
  clock : Nat
  linkErrors : Nat
  replies : List Place
  reports : List QueuedReport
  lost : Bool
  lostCount : Nat
  tx : Tx
deriving DecidableEq, Repr

/-! ## The whole -/

/-- The blocks that share the car, bay and order records: the four loops (LP), the store (RS), the Car Table's own state
(CT) and the Order Engine's own state (OE). The last two fields are the model's own: the reports raised in the step now
being taken, in order, which join the report queue as the step ends, and the count of open values used so far. -/
structure Yard where
  loops : Vector LoopRec 4
  store : Store
  capacity : Vector Nat 4
  admittedCount : Vector Nat 4
  lastCar : Nat
  checkinSetting : Nat
  limits : Tab (Option Nat)
  spkMarks : Tab Bool
  lastOrder : Nat
  held : Vector (List HeldEntry) 4
  queues : Vector (List LineRef) 6
  readyList : List ReadyEntry
  rowCounts : Tab Nat
  lampMarks : Tab Bool
  runners : Vector Runner 32
  takeLimit : Nat
  raised : List Report
  freeIndex : Nat
deriving DecidableEq, Repr

/-- The state of the part, with the queue of commands waiting to be taken, first in, first out, and the bytes that stand
on the host link for its receiver to take (R201): like the commands, they are put there by the surroundings (log entry
33). -/
structure State where
  pending : List Instr
  hostLine : List Byte
  screens : Vector Screen 4
  sound : Vector Sound 4
  lanes : Vector Lane 6
  yard : Yard
  link : Link
deriving DecidableEq, Repr

/-- The reasons a step could stop with a fault. There is none: the spec gives every command an effect in every state,
so the type has no constructor. -/
inductive Fault where
deriving DecidableEq, Repr

/-- The reasons a command could be refused by the model. -/
inductive Refusal where
  /-- Raised by an arm of exec whose command has no meaning yet (safe: the model stops). No arm raises it. -/
  | notModelled (mnemonic : String)
deriving DecidableEq, Repr

/-! ## Reset values -/

/-- A head after power-on: commands off and closed (R33, R34). The lines read AT_SPEED off, RUNOUT off, LAMP_OK on (log
entry 7). -/
def HeadRec.reset : HeadRec :=
  { motor := false, douser := false, atSpeed := false, runout := false, lampOk := true, speedLost := false,
    stopAtRunout := false }

/-- A screen's timeline after power-on (R33, R34). -/
def Screen.reset : Screen :=
  { phase := .dark, reel := 0, frame := 0, f := 0, active := none, staged := none, countdown := none,
    heldHead := none, leadFired := false, headA := HeadRec.reset, headB := HeadRec.reset, lights := 0,
    gateOpen := true, orderingOpen := true, breakWindow := false, startTimer := none, startSetting := 10,
    leadSetting := 8 }

/-- The servo settings' defaults (R41). -/
def ServoSettings.defaults : ServoSettings :=
  { offset := 0, window := 4800, deadband := 2, gain := 16, rmax := 655, coastLimit := 2000 }

/-- A servo after power-on (R63, R64). -/
def Servo.reset : Servo :=
  { state := .silent, p := 0, a := 0, r := 0, lockRun := 0, error := none, prev := (0, 0), gap := none,
    coastGap := none, coastLimit := none, settings := ServoSettings.defaults }

/-- A sound path after power-on (R63, R64). The outputs carry 0, as they do with the source MUTE (R59). -/
def Sound.reset : Sound :=
  { rx := none, prog := [], brk := [], cursor := none, breakGapOpen := false, servo := Servo.reset,
    source := .mute, ramp := none, level := 0, target := 256, stepCount := 0, linkErrors := 0, late := 0, early := 0,
    jumps := 0, underruns := 0, breakGaps := 0, feed := (0, 0), bus := (0, 0) }

/-- A post table entry after power-on (R90): ABSENT, HEARD, counts 0, lamps NONE, speakers OFF, no sequence. It is what
an unlisted entry of a post table reads as. -/
def Post.reset : Post :=
  { present := false, errors := 0, conf := .heard, turn := 0, recovery := none, probeDue := false, lamp0 := 0,
    lamp1 := 0, spk0 := false, spk1 := false, lastSeq := none }

/-- A FREE outbound slot: it holds nothing (R75). -/
def OutSlot.empty : OutSlot :=
  { use := .free, post := 0, kind := .lamps, v0 := none, v1 := none, prio := 0, origin := .ct, age := 0, fails := 0 }

/-- A loop after power-on (R90). The service tool's request line reads low (log entry 7). -/
def LoopRec.reset : LoopRec :=
  { posts := [], slots := Vector.replicate 16 OutSlot.empty, nextAge := 0, owner := .polling, lendAllowed := false,
    request := false, grant := false, lendTimer := none, overflow := false, cursor := 0, sendRun := 0,
    current := none, repeatDue := none, rows := [], errors := 0, repeats := 0, badRecords := 0, undelivered := 0,
    windowSetting := 20, lendSetting := 600 }

/-- Lane counts at 0 (R112). -/
def LaneCounts.zero : LaneCounts :=
  { crossings := 0, used := 0, late := 0, full := 0, storeError := 0, closed := 0, withdrawals := 0, tailgates := 0,
    anonymous := 0, readerErrors := 0 }

/-- A lane after power-on (R115), with its detectors CLEAR and its barrier DOWN (log entry 7), the travel timer loaded
for the DOWN command, and the settings at R113's defaults. -/
def Lane.reset : Lane :=
  { state := .closed, arming := .clear, barrierLoop := .clear, command := .down, feedback := .down,
    pending := .absent, closeDeferred := false, dwell := none, stall := none, travel := some 10000,
    exitRead := none, counts := LaneCounts.zero, dwellSetting := 30, stallSetting := 120, exitReadSetting := 10,
    answer := none }

/-- A slot of any table after power-on: free, with good parity and sound memory. It is what an unlisted slot reads as.
-/
def Slot.blank {ρ : Type} : Slot ρ :=
  { state := .free, badFirst := false, badSecond := false, failing := false }

/-- The Record Store after power-on (R200). -/
def Store.reset : Store :=
  { cars := [], bays := [], orders := [], menu := [], tickets := [], latch := none, faultCount := 0, waiting := [],
    test := none }

/-- A runner after power-on (R189). -/
def Runner.reset : Runner :=
  { held := none, timer := none, last := none }

/-- The yard after power-on (R90, R135, R158, R175, R189, R200). -/
def Yard.reset : Yard :=
  { loops := Vector.replicate 4 LoopRec.reset, store := Store.reset, capacity := Vector.replicate 4 0,
    admittedCount := Vector.replicate 4 0, lastCar := 0, checkinSetting := 20, limits := [], spkMarks := [],
    lastOrder := 0, held := Vector.replicate 4 [], queues := Vector.replicate 6 [], readyList := [], rowCounts := [],
    lampMarks := [], runners := Vector.replicate 32 Runner.reset, takeLimit := 10, raised := [], freeIndex := 0 }

/-- The Link Interface after power-on (R210): the receiver is hunting, READY with the cause POWER and a count of 0 is
the first frame sent, and its transmission has begun. -/
def Link.reset : Link :=
  { rx := none, part := .setup, clock := 0, linkErrors := 0, replies := [], reports := [], lost := false, lostCount := 0,
    tx := .report { time := 0, report := .ready .power 0 } false }

/-- The part right after power-on, with no command waiting. -/
def State.reset : State :=
  { pending := [], hostLine := [], screens := Vector.replicate 4 Screen.reset, sound := Vector.replicate 4 Sound.reset,
    lanes := Vector.replicate 6 Lane.reset, yard := Yard.reset, link := Link.reset }

end Sys2Proof.Machine
end

