-- ==== Sys2Proof/Machine/Tab.lean ====
section
/-! DEFINITION. Reading and writing a sparse table (Word.lean's Tab) in its one canonical form. -/

namespace Sys2Proof.Machine

/-- The content at an index: the listed one, or the default. -/
def Tab.get {α : Type} (d : α) : Tab α → Nat → α
  | [], _ => d
  | (k, v) :: t, i => if i = k then v else Tab.get d t i

/-- Write one index, keeping the canonical form: writing the default removes the entry. -/
def Tab.put {α : Type} [DecidableEq α] (d : α) : Tab α → Nat → α → Tab α
  | [], i, v => if v = d then [] else [(i, v)]
  | (k, w) :: t, i, v =>
    if i < k then (if v = d then (k, w) :: t else (i, v) :: (k, w) :: t)
    else if i = k then (if v = d then t else (i, v) :: t)
    else (k, w) :: Tab.put d t i v

/-- Write `f` of its content to every listed index. An index not listed keeps the default, so this is a map of the whole
table wherever `f` keeps the default. -/
def Tab.mapEntries {α : Type} [DecidableEq α] (d : α) (f : Nat → α → α) (t : Tab α) : Tab α :=
  (t.map fun e => (e.1, f e.1 e.2)).filter fun e => !decide (e.2 = d)

/-- The canonical form, from a lower bound of the indexes on: rising indexes and no default listed. -/
def Tab.wfFrom {α : Type} [DecidableEq α] (d : α) : Nat → Tab α → Bool
  | _, [] => true
  | n, (k, v) :: t => decide (n ≤ k) && !decide (v = d) && Tab.wfFrom d (k + 1) t

/-- The canonical form of a table: strictly rising indexes, no default listed. -/
def Tab.wf {α : Type} [DecidableEq α] (d : α) (t : Tab α) : Bool :=
  Tab.wfFrom d 0 t

/-- The first index from `i`, among the next `n`, that satisfies `q`. -/
def firstFrom (q : Nat → Bool) : Nat → Nat → Option Nat
  | 0, _ => none
  | n + 1, i => if q i then some i else firstFrom q n (i + 1)

end Sys2Proof.Machine
end

