-- ==== Sys2Proof/Machine/Codec.lean ====
section
/-! DEFINITION. Bytes on the links: the field encodings of R203, the two checks (CRC-16 of the sound block and the host
frame, CRC-8 of the loop frame), the bodies of replies and reports (R205, R206) and the host link frame (spec/10). -/

namespace Sys2Proof.Machine

/-! ## Fields (R203): multi-byte numbers most significant byte first -/

/-- A number in one byte. -/
def u8 (n : Nat) : List Byte :=
  [BitVec.ofNat 8 n]

/-- A number in two bytes. -/
def u16 (n : Nat) : List Byte :=
  [BitVec.ofNat 8 (n / 256), BitVec.ofNat 8 n]

/-- A number in four bytes. -/
def u32 (n : Nat) : List Byte :=
  u16 (n / 65536) ++ u16 n

/-- A number in the fewest of one, two and four bytes that hold a range up to `top`. -/
def sized (top n : Nat) : List Byte :=
  if top ≤ 255 then u8 n else if top ≤ 65535 then u16 n else u32 n

/-- A signed number in two bytes, two's complement. -/
def i16 (n : Int) : List Byte :=
  u16 (BitVec.ofInt 16 n).toNat

/-- A signed number in four bytes, two's complement. -/
def i32 (n : Int) : List Byte :=
  u32 (BitVec.ofInt 32 n).toNat

/-- A yes-or-no field or a flag. -/
def flag (b : Bool) : List Byte :=
  u8 (if b then 1 else 0)

/-- A field that may be absent: a presence byte, then the value where there is one. -/
def opt {α : Type} (enc : α → List Byte) : Option α → List Byte
  | none => [0x00#8]
  | some v => 0x01#8 :: enc v

/-- Fields that are all present or all absent, each behind its own presence byte (R203; log entry 15). -/
def presentFields (present : Bool) (fields : List (List Byte)) : List Byte :=
  (fields.map fun f => if present then 0x01#8 :: f else [0x00#8]).flatten

/-- The number two bytes hold, most significant first. -/
def getU16 (hi lo : Byte) : Nat :=
  hi.toNat * 256 + lo.toNat

/-! ## Checks -/

/-- One byte into the CRC-8 of the loop frame: polynomial 0x07, no reflection (spec/03, The loop frame). -/
def crc8Byte (crc b : Byte) : Byte :=
  let step (x : Byte) : Byte := if x.msb then (x <<< 1) ^^^ 0x07#8 else x <<< 1
  step (step (step (step (step (step (step (step (crc ^^^ b))))))))

/-- CRC-8 with initial value 0x00 and no final XOR. -/
def crc8 (bytes : List Byte) : Byte :=
  bytes.foldl crc8Byte 0x00#8

/-- One byte into the CRC-16: polynomial 0x1021, no reflection (spec/02 and spec/10). -/
def crc16Byte (crc : BitVec 16) (b : Byte) : BitVec 16 :=
  let step (x : BitVec 16) : BitVec 16 := if x.msb then (x <<< 1) ^^^ 0x1021#16 else x <<< 1
  step (step (step (step (step (step (step (step (crc ^^^ (b.setWidth 16 <<< 8)))))))))

/-- CRC-16 with initial value 0xFFFF and no final XOR. -/
def crc16 (bytes : List Byte) : BitVec 16 :=
  bytes.foldl crc16Byte 0xFFFF#16

/-! ## Replies (R205) -/

/-- The result codes. -/
def Result.code : Result → Nat
  | .ok => 0x00
  | .clamped => 0x01
  | .state => 0x10
  | .range => 0x11
  | .unknown => 0x12
  | .full => 0x13
  | .busy => 0x14
  | .tooLate => 0x15
  | .paused => 0x16
  | .storeError => 0x17
  | .closed => 0x18
  | .soldOut => 0x19
  | .limit => 0x1A
  | .notParked => 0x1B
  | .used => 0x1C
  | .late => 0x1D
  | .badCode => 0x1E
  | .wrongField => 0x1F
  | .inMaking => 0x20
  | .noSuch => 0x21

/-- A refused admission's reason as a result code (R100, R203). -/
def Refuse.result : Refuse → Result
  | .used => .used
  | .late => .late
  | .full => .full
  | .storeError => .storeError
  | .closed => .closed

/-- A field in bytes. -/
def Field.bytes : Field → List Byte
  | .raw b => b
  | .list w es => (if w = 1 then u8 es.length else u16 es.length) ++ es.flatten

/-- The number of entries of a field's list; 0 for plain bytes. -/
def Field.entryCount : Field → Nat
  | .raw _ => 0
  | .list _ es => es.length

/-- How many entries, from the head, fit into `room` bytes. -/
def fitEntries (room : Nat) : List (List Byte) → Nat
  | [] => 0
  | e :: es => if e.length ≤ room then fitEntries (room - e.length) es + 1 else 0

/-- A field with its list cut to `k` entries. -/
def Field.cut (k : Nat) : Field → Field
  | .raw b => .raw b
  | .list w es => .list w (es.take k)

/-- The body of a reply: result, indication, fields; cut at its longest list where it would pass 1,024 bytes, with the
indication TRUNCATED and the count of the entries the list holds (R205). A body that stays longer with that list emptied
is sent as it is. The longest list is the one with the most entries, the first of several (both the model's choice, log
entry 53). -/
def Reply.body (r : Reply) : List Byte :=
  let whole := u8 r.result.code ++ u8 r.indication.ctorIdx ++ (r.fields.map Field.bytes).flatten
  if whole.length ≤ 1024 then whole
  else
    let most := r.fields.foldl (fun m f => max m f.entryCount) 0
    let at_ := r.fields.findIdx fun f => f.entryCount == most
    let others := ((r.fields.modify at_ (Field.cut 0)).map Field.bytes).flatten
    let room := 1024 - (4 + others.length)
    let kept := match r.fields[at_]? with
      | some (.list _ es) => fitEntries room es
      | _ => 0
    u8 r.result.code ++ u8 Indication.truncated.ctorIdx ++ u16 most ++
      ((r.fields.modify at_ (Field.cut kept)).map Field.bytes).flatten

/-- A refusal that carries no fields. -/
def Reply.refuse (r : Result) : Reply :=
  { result := r, indication := .none, fields := [] }

/-- OK with the reply's fields. -/
def Reply.okWith (bytes : List Byte) : Reply :=
  { result := .ok, indication := .none, fields := [.raw bytes] }

/-- OK with no fields. -/
def Reply.ok : Reply :=
  { result := .ok, indication := .none, fields := [] }

/-- OK with an indication. -/
def Reply.okNote (i : Indication) : Reply :=
  { result := .ok, indication := i, fields := [] }

/-- OK, or CLAMPED with the values used where anything was clamped. -/
def Reply.setting (clamped : Bool) (used : List Byte) : Reply :=
  if clamped then { result := .clamped, indication := .none, fields := [.raw used] } else Reply.ok

/-! ## Reports (R206, Catalogue of reports) -/

/-- A report's code: 0xC0 upward in the order of the catalogue. -/
def Report.code (r : Report) : Nat :=
  0xC0 + r.ctorIdx

/-- The slot index key of STORE_FAULT: in the width of the table's keys; an order's key is its number and its car
(R190). -/
def Key.bytes (t : TableId) (k : Key) : List Byte :=
  match t with
  | .menu => u8 k.number
  | .ticket => u32 k.number
  | .order => u16 k.number ++ u16 (k.car.getD 0)
  | .car | .bay => u16 k.number

/-- An outbound item's enabled sides and values: each side's value behind its presence byte, left out for a side that is
not enabled (R77, R88, R203). -/
def sideBytes (v0 v1 : Option Nat) : List Byte :=
  opt u8 v0 ++ opt u8 v1

/-- A minute of night in its two bytes (R203). -/
def minuteBytes (m : Nat) : List Byte :=
  u16 m

/-- The fields of a report, in the order of the catalogue, encoded by R203. Each of the lines in ORDER_IN carries its
item and its quantity and no line state, which is PENDING for every one (the model's choice, log entry 15). The departed
indication of DELIVERED and the VOIDED indication of TAKE_EXPIRED are each sent as a flag, 0x00 or 0x01, and not as a
code of the indication table (the model's choice, log entry 15). -/
def Report.fields : Report → List Byte
  | .headFault sc h c p => u8 sc ++ u8 h.ctorIdx ++ u8 c.ctorIdx ++ u8 p.ctorIdx
  | .headOk sc h st => u8 sc ++ u8 h.ctorIdx ++ u8 st.ctorIdx
  | .showState sc o n reel c => u8 sc ++ u8 o.ctorIdx ++ u8 n.ctorIdx ++ u8 reel ++ u8 c.ctorIdx
  | .cueMark sc reel frame tag => u8 sc ++ u8 reel ++ u16 frame ++ u8 tag
  | .startFailed sc st => u8 sc ++ u8 st.ctorIdx
  | .cuesetMismatch sc reel sr => u8 sc ++ u8 reel ++ u8 sr
  | .cuesetMissing sc reel => u8 sc ++ u8 reel
  | .changeoverLate sc reel st => u8 sc ++ u8 reel ++ u8 st.ctorIdx
  | .changeoverEarly sc reel frame => u8 sc ++ u8 reel ++ u16 frame
  | .stall sc h reel frame => u8 sc ++ u8 h.ctorIdx ++ u8 reel ++ u16 frame
  | .syncCapture sc l p => u8 sc ++ u8 l.ctorIdx ++ u32 p.toNat
  | .syncJump sc e b => u8 sc ++ i32 e ++ u8 b.ctorIdx
  | .syncTrack sc e => u8 sc ++ i32 e
  | .syncLocked sc => u8 sc
  | .lockLost sc e => u8 sc ++ i32 e
  | .syncCoast sc p => u8 sc ++ u32 p.toNat
  | .syncLost sc p => u8 sc ++ u32 p.toNat
  | .underrun sc p n => u8 sc ++ u32 p.toNat ++ u32 n
  | .sourceChanged sc o n c => u8 sc ++ u8 o.ctorIdx ++ u8 n.ctorIdx ++ u8 c.ctorIdx
  | .postState lp p o n e => u8 lp ++ u8 p ++ u8 o.ctorIdx ++ u8 n.ctorIdx ++ u8 e
  | .sendDone lp sl => u8 lp ++ u8 sl
  | .sendUndelivered lp p k v0 v1 o => u8 lp ++ u8 p ++ u8 k.ctorIdx ++ sideBytes v0 v1 ++ u8 o.ctorIdx
  | .helpCall lp p s b => u8 lp ++ u8 p ++ u8 s ++ u16 b
  | .lendRefused lp => u8 lp
  | .lendStart lp => u8 lp
  | .lendEnd lp => u8 lp
  | .lendOverrun lp => u8 lp
  | .detectorFault ln l => u8 ln ++ u8 l.ctorIdx
  | .detectorOk ln l d => u8 ln ++ u8 l.ctorIdx ++ u8 d.ctorIdx
  | .barrierFault ln c f => u8 ln ++ u8 c.ctorIdx ++ u8 f.ctorIdx
  | .tailgate ln st => u8 ln ++ u8 st.ctorIdx
  | .admitted ln car t cls sc => u8 ln ++ u16 car ++ u32 t ++ u8 cls.ctorIdx ++ u8 sc
  | .refuse ln t cls ch sc r =>
    u8 ln ++ u32 t ++ u8 cls.ctorIdx ++ opt u8 (if ch ≤ 3 then some ch else none) ++
      opt (fun x : ScreenId => u8 x) sc ++ u8 r.result.code
  | .withdrawn ln car t c => u8 ln ++ opt u16 car ++ opt u32 t ++ u8 c.ctorIdx
  | .entered ln car => u8 ln ++ u16 car
  | .laneStall ln car => u8 ln ++ opt u16 car
  | .laneStallClear ln => u8 ln
  | .laneClosed ln => u8 ln
  | .checkinRefused bay code r => u16 bay ++ u32 code ++ u8 r.code
  | .checkin car bay ob d w => u16 car ++ u16 bay ++ opt u16 ob ++ opt u16 d ++ flag w
  | .carState car o n c => u16 car ++ u8 o.ctorIdx ++ u8 n.ctorIdx ++ [Config.carStateCauseCode c.ctorIdx]
  | .capacityChanged sc o n => u8 sc ++ u16 o ++ u16 n
  | .unchecked car sc m => u16 car ++ u8 sc ++ minuteBytes m
  | .departed car t sc c => u16 car ++ opt u32 t ++ opt (fun x : ScreenId => u8 x) sc ++ u8 c.ctorIdx
  | .menuStock i l r p s w => u8 i ++ u16 l ++ u16 r ++ u16 p ++ u16 s ++ u16 w
  | .orderIn o car bay sc m st total ls src =>
    u16 o ++ u16 car ++ u16 bay ++ u8 sc ++ u8 m.ctorIdx ++ u8 st.ctorIdx ++ u32 total ++
      (u8 ls.length ++ (ls.map fun l => u8 l.1 ++ u8 l.2).flatten) ++ u8 src.ctorIdx
  | .orderRefused bay src r i => u16 bay ++ u8 src.ctorIdx ++ u8 r.code ++ opt u8 i
  | .cancelRefused bay o r => u16 bay ++ u16 o ++ u8 r.code
  | .orderCancelled o car st c => u16 o ++ u16 car ++ u8 st.ctorIdx ++ u8 c.ctorIdx
  | .heldReleased sc n => u8 sc ++ u16 n
  | .orderReady o car bay sc m n => u16 o ++ u16 car ++ opt u16 bay ++ u8 sc ++ minuteBytes m ++ u16 n
  | .orderVoided o car st c rt w => u16 o ++ u16 car ++ u8 st.ctorIdx ++ u8 c.ctorIdx ++ u8 rt ++ u8 w
  | .orderTaken r o car bay => u8 r ++ u16 o ++ u16 car ++ opt u16 bay
  | .delivered r o car bay total g => u8 r ++ u16 o ++ u16 car ++ opt u16 bay ++ u32 total ++ flag g
  | .orderReturned r o => u8 r ++ u16 o
  | .takeExpired r o car bay v => u8 r ++ u16 o ++ u16 car ++ opt u16 bay ++ flag v
  | .takeLost r o => u8 r ++ u16 o
  | .storeFault t sl k hv raw =>
    u8 t.ctorIdx ++ u16 sl ++ opt (Key.bytes t) (some k) ++ u8 hv.ctorIdx ++ u8 raw.length ++ raw
  | .storeTestDone t v p r q => u8 t.ctorIdx ++ u16 v ++ u16 p ++ u16 r ++ u16 q
  | .ready c n => u8 c.ctorIdx ++ u16 n

/-- The body of a report: flags, the night clock when it was raised, its fields (R206). -/
def QueuedReport.body (q : QueuedReport) (lostFlag : Bool) : List Byte :=
  u8 (if lostFlag then 1 else 0) ++ u32 q.time ++ q.report.fields

/-! ## The host link frame (spec/10, The frame on the line) -/

/-- A whole frame: SYNC, LENGTH, KIND, TAG, BODY, CRC over everything between SYNC and CRC. -/
def frameBytes (kind tag : Nat) (body : List Byte) : List Byte :=
  let inner := u16 body.length ++ u8 kind ++ u8 tag ++ body
  0xA5#8 :: inner ++ u16 (crc16 inner).toNat

/-- A reply's KIND: the request's plus 0x80, or 0xFF where the frame's KIND is no request's (R205). -/
def replyKind (kind : Nat) : Nat :=
  if 0x01 ≤ kind ∧ kind ≤ 0x3C then kind + 0x80 else 0xFF

/-- The frame of a place of the reply list; a BUSY reply carries no fields (R205). -/
def Place.frame : Place → List Byte
  | .request k t r => frameBytes (replyKind k) t r.body
  | .busy k t => frameBytes (replyKind k) t (Reply.refuse .busy).body

/-- The frame the transmitter is sending, if any (R207). -/
def Link.frame (l : Link) : Option (List Byte) :=
  match l.tx with
  | .idle => none
  | .reply => l.replies.head?.map Place.frame
  | .report q f => some (frameBytes q.report.code 0 (q.body f))

end Sys2Proof.Machine
end

