-- ==== Sys2Proof/Machine/Flags.lean ====
section
/-! DEFINITION. Counters that stay at their top, countdowns, the raising of reports, and the REPORTS_LOST flag (R206). -/

namespace Sys2Proof.Machine

/-- Raise a count that runs from 0 to 65,535 and stays at 65,535 once there (R36, R81, R112, R201, R206). -/
def satInc (n : Nat) : Nat :=
  if n < 65535 then n + 1 else 65535

/-- Raise a count of 0 to 255 by `k`, stopping at 255 (R69, R191). -/
def satAdd255 (k n : Nat) : Nat :=
  min (n + k) 255

/-- A countdown loaded from a setting in seconds; a setting of 0 disables it. -/
def loadSeconds (n : Nat) : Option Nat :=
  if n = 0 then none else some (n * 1000)

/-- A countdown loaded from a setting in minutes; a setting of 0 disables it. -/
def loadMinutes (n : Nat) : Option Nat :=
  if n = 0 then none else some (n * 60000)

/-- A remaining time in whole seconds rounded up, as R32 and R114 say. R88 gives the lend timer and the recovery timer
'in seconds' and names no rounding; the model rounds them up too (the model's choice, log entry 45). -/
def ceilSeconds (ms : Nat) : Nat :=
  (ms + 999) / 1000

/-- A remaining time in whole minutes rounded up (R134, R188). -/
def ceilMinutes (ms : Nat) : Nat :=
  (ms + 59999) / 60000

/-- Raise a report: it stands behind those raised before it in this step. -/
def Yard.raise (y : Yard) (r : Report) : Yard :=
  { y with raised := y.raised ++ [r] }

/-- Raise a report from a block outside the yard. -/
def State.raise (s : State) (r : Report) : State :=
  { s with yard := s.yard.raise r }

/-- Raise reports in order. -/
def State.raiseAll (s : State) (rs : List Report) : State :=
  { s with yard := { s.yard with raised := s.yard.raised ++ rs } }

/-- One report joins the tail of the report queue with the present night clock, or is dropped with the lost flag set and
the reports-lost count raised where the queue holds 128 (R206). -/
def Link.enqueue (l : Link) (r : Report) : Link :=
  if l.reports.length < 128 then { l with reports := l.reports ++ [{ time := l.clock, report := r }] }
  else { l with lost := true, lostCount := satInc l.lostCount }

/-- The reports raised in a step join the queue in the order in which they were raised. -/
def State.flush (s : State) : State :=
  { s with link := s.yard.raised.foldl Link.enqueue s.link, yard := { s.yard with raised := [] } }

/-- A free transmitter starts the reply at the head of the list, else the report at the head of the queue (R207). A
report leaves the queue as its transmission starts, and takes the lost flag with it (R206; log entry 8). -/
def Link.kick (l : Link) : Link :=
  match l.tx, l.replies, l.reports with
  | .idle, _ :: _, _ => { l with tx := .reply }
  | .idle, [], q :: qs => { l with reports := qs, tx := .report q l.lost, lost := false }
  | _, _, _ => l

/-- The end of every step: its reports join the queue, and a free transmitter starts its next frame. -/
def State.finish (s : State) : State :=
  let s := s.flush
  { s with link := s.link.kick }

/-- The present minute of night (R203, spec/00_scope.md). -/
def Link.minute (l : Link) : Nat :=
  l.clock / 60000

end Sys2Proof.Machine
end

