-- ==== Sys2Proof/Machine/Operands.lean ====
section
/-! DEFINITION. The operand forms of the commands: the codes of the enumerations a request carries (R203), the ranges its
settings are clamped to (R30, R41, R87, R113, R130), and the addresses and numbers the spec computes from them
(spec/00_scope.md, Numbering of the site; R119). -/

namespace Sys2Proof.Machine

/-! ## Enumeration codes (R203); none is a value beyond the list (R202) -/

/-- A screen, loop or lane number within its list. -/
def finOf (n k : Nat) : Option (Fin n) :=
  if h : k < n then some ⟨k, h⟩ else none

/-- A flag byte (R202). -/
def flagOf : Nat → Option Bool
  | 0 => some false
  | 1 => some true
  | _ => none

/-- The value of FLAG SET and the bay states of SITE PLAN, open or closed in that order: true for open. -/
def openOf : Nat → Option Bool
  | 0 => some true
  | 1 => some false
  | _ => none

/-- The cue kinds of LOAD CUES (R8). -/
def CueKind.of : Nat → Option CueKind
  | 0 => some .motor
  | 1 => some .changeover
  | 2 => some .lights
  | 3 => some .gateClose
  | 4 => some .lastCall
  | 5 => some .breakLead
  | 6 => some .mark
  | _ => none

/-- The sources of SOURCE (R55). -/
def Source.of : Nat → Option Source
  | 0 => some .programme
  | 1 => some .onBreak
  | 2 => some .mute
  | _ => none

/-- The payload kinds of SEND (R75). -/
def SlotKind.of : Nat → Option SlotKind
  | 0 => some .lamps
  | 1 => some .speakers
  | _ => none

/-- The ticket classes of a credential record (R94). -/
def TicketClass.of : Nat → Option TicketClass
  | 0 => some .car
  | 1 => some .pass
  | 2 => some .staff
  | 3 => some .comp
  | _ => none

/-- The stock modes of MENU SET (R137). -/
def StockMode.of : Nat → Option StockMode
  | 0 => some .finite
  | 1 => some .unlimited
  | _ => none

/-- The modes of ORDER ENTER and of an ORDER record (R142; spec/03, The loop frame). -/
def OrderMode.of : Nat → Option OrderMode
  | 0 => some .now
  | 1 => some .atBreak
  | _ => none

/-- The tables of STORE TEST (R190). -/
def TableId.of : Nat → Option TableId
  | 0 => some .car
  | 1 => some .bay
  | 2 => some .order
  | 3 => some .menu
  | 4 => some .ticket
  | _ => none

/-- Whether a value lies in its kind's list: 14 lamp values, 2 speaker values (spec/03, The loop frame). -/
def SlotKind.admits : SlotKind → Nat → Bool
  | .lamps, v => decide (v ≤ 0x0D)
  | .speakers, v => decide (v ≤ 0x01)

/-! ## Lamp values (spec/03, The loop frame) -/

/-- The lamp that is dark. -/
def lampNone : Nat := 0x00

/-- The lamp of an accepted record. -/
def lampAccepted : Nat := 0x01

/-- The lamp of a waiting order. -/
def lampReady : Nat := 0x02

/-- The lamp value of a refusal shown at a post. -/
def Result.lamp : Result → Nat
  | .badCode => 0x03
  | .noSuch => 0x04
  | .wrongField => 0x05
  | .closed => 0x06
  | .notParked => 0x07
  | .limit => 0x08
  | .soldOut => 0x09
  | .full => 0x0A
  | .inMaking => 0x0B
  | .storeError => 0x0C
  | .state => 0x0D
  | _ => 0x00

/-! ## Settings -/

/-- A setting for which 0 disables: 0 stays, another value is brought into its range. -/
def clampTimer (lo hi n : Nat) : Nat :=
  if n = 0 then 0 else max lo (min n hi)

/-- A setting brought into its range. -/
def clampNat (lo hi n : Nat) : Nat :=
  max lo (min n hi)

/-- A signed setting brought into its range. -/
def clampInt (lo hi n : Int) : Int :=
  max lo (min n hi)

/-! ## Numbering of the site -/

/-- The screen and loop of a bay: bay div 256. Bays run to 1,023, so the remainder mod 4 only closes the type. -/
def bayLoop (bay : Nat) : ScreenId :=
  ⟨bay / 256 % 4, Nat.mod_lt _ (by decide)⟩

/-- The post that serves a bay. -/
def bayPost (bay : Nat) : Nat :=
  bay % 256 / 2

/-- The side of its post a bay lies on. -/
def baySide (bay : Nat) : Nat :=
  bay % 2

/-- The row of a bay. -/
def bayRow (bay : Nat) : Nat :=
  bay / 16

/-- The bay a post of a loop serves on a side. -/
def postBay (lp : ScreenId) (post side : Nat) : Nat :=
  lp.val * 256 + 2 * post + side

/-- The row a post of a loop stands in. -/
def postRow (lp : ScreenId) (post : Nat) : Nat :=
  lp.val * 16 + post / 8

/-! ## The admission code (R119) -/

/-- The code of a car number: the number and its check digits. -/
def admissionCode (car : Nat) : Nat :=
  100 * car + (98 - car * 100 % 97)

/-- Whether a keyed code is valid. -/
def codeValid (code : Nat) : Bool :=
  decide (1 ≤ code / 100) && decide (code / 100 ≤ 9999) && decide (code % 97 = 1)

/-- The car a valid code names. -/
def codeCar (code : Nat) : Nat :=
  code / 100

/-! ## Signed distances (R37, R39) -/

/-- The distance of block number `x` ahead of `c`, on 24 bits. -/
def dist24 (x c : Nat) : Int :=
  (BitVec.ofNat 24 x - BitVec.ofNat 24 c).toInt

/-- The distance of sequence number `x` ahead of `k`, on 16 bits. -/
def dist16 (x k : Nat) : Int :=
  (BitVec.ofNat 16 x - BitVec.ofNat 16 k).toInt

end Sys2Proof.Machine
end

