-- ==== Sys2Proof/Machine/Records.lean ====
section
/-! DEFINITION. The Record Store's reads, writes and index (R190, R191): every read of a record in use checks the parity
of both halves; a fault is latched, counted and reported, the slot is quarantined, and its owner's handling joins the
waiting list. What the owner then does is in Quarantine.lean. -/

namespace Sys2Proof.Machine

/-- The number of slots of a table (R190). -/
def TableId.size : TableId → Nat
  | .car => 1024
  | .bay => 1024
  | .order => 256
  | .menu => 64
  | .ticket => 4096

/-- The record of a slot in use. -/
def Slot.record? {ρ : Type} (sl : Slot ρ) : Option ρ :=
  match sl.state with
  | .inUse r => some r
  | _ => none

/-- Whether a slot is free. -/
def Slot.isFree {ρ : Type} (sl : Slot ρ) : Bool :=
  match sl.state with
  | .free => true
  | _ => false

/-- Whether a slot is out of use: quarantined or under test (R190). -/
def Slot.isOut {ρ : Type} (sl : Slot ρ) : Bool :=
  match sl.state with
  | .quarantined => true
  | .underTest _ => true
  | _ => false

/-- Whether a slot is quarantined. -/
def Slot.isQuarantined {ρ : Type} (sl : Slot ρ) : Bool :=
  match sl.state with
  | .quarantined => true
  | _ => false

/-- The halves found wrong by a read, if any (R191). -/
def Slot.wrong {ρ : Type} (sl : Slot ρ) : Option Halves :=
  match sl.badFirst, sl.badSecond with
  | false, false => none
  | true, false => some .first
  | false, true => some .second
  | true, true => some .both

/-- Write a whole record: both halves with good parity (R190). -/
def Slot.write {ρ : Type} (sl : Slot ρ) (r : ρ) : Slot ρ :=
  { sl with state := .inUse r, badFirst := false, badSecond := false }

/-- Free a slot: it holds no record. -/
def Slot.release {ρ : Type} (sl : Slot ρ) : Slot ρ :=
  { sl with state := .free }

/-- Take a slot out of service. -/
def Slot.quarantine {ρ : Type} (sl : Slot ρ) : Slot ρ :=
  { sl with state := .quarantined }

/-! ## The tables -/

/-- The slot of the car table. -/
def Yard.carSlot (y : Yard) (i : Nat) : Slot Car :=
  Tab.get Slot.blank y.store.cars i

/-- The slot of the bay table. -/
def Yard.baySlot (y : Yard) (i : Nat) : Slot Bay :=
  Tab.get Slot.blank y.store.bays i

/-- The slot of the order table. -/
def Yard.orderSlot (y : Yard) (i : Nat) : Slot Order :=
  Tab.get Slot.blank y.store.orders i

/-- The slot of the menu. -/
def Yard.menuSlot (y : Yard) (i : Nat) : Slot MenuItem :=
  Tab.get Slot.blank y.store.menu i

/-- The slot of the used-ticket set. -/
def Yard.ticketSlot (y : Yard) (i : Nat) : Slot Ticket :=
  Tab.get Slot.blank y.store.tickets i

/-- Store a slot of the car table. -/
def Yard.setCarSlot (y : Yard) (i : Nat) (sl : Slot Car) : Yard :=
  { y with store := { y.store with cars := Tab.put Slot.blank y.store.cars i sl } }

/-- Store a slot of the bay table. -/
def Yard.setBaySlot (y : Yard) (i : Nat) (sl : Slot Bay) : Yard :=
  { y with store := { y.store with bays := Tab.put Slot.blank y.store.bays i sl } }

/-- Store a slot of the order table. -/
def Yard.setOrderSlot (y : Yard) (i : Nat) (sl : Slot Order) : Yard :=
  { y with store := { y.store with orders := Tab.put Slot.blank y.store.orders i sl } }

/-- Store a slot of the menu. -/
def Yard.setMenuSlot (y : Yard) (i : Nat) (sl : Slot MenuItem) : Yard :=
  { y with store := { y.store with menu := Tab.put Slot.blank y.store.menu i sl } }

/-- Store a slot of the used-ticket set. -/
def Yard.setTicketSlot (y : Yard) (i : Nat) (sl : Slot Ticket) : Yard :=
  { y with store := { y.store with tickets := Tab.put Slot.blank y.store.tickets i sl } }

/-- The slots of a table that hold a record, in rising order, with their records. -/
def inUse {ρ : Type} (t : Tab (Slot ρ)) : List (Nat × ρ) :=
  t.filterMap fun e => e.2.record?.map fun r => (e.1, r)

/-- The lowest free slot of a table of `n` slots (R190). -/
def lowestFree {ρ : Type} (t : Tab (Slot ρ)) (n : Nat) : Option Nat :=
  firstFrom (fun i => (Tab.get Slot.blank t i).isFree) n 0

/-! ## The slot index (R190): naming a slot by its key, without a read -/

/-- The slot and record of a car number. -/
def Yard.findCar (y : Yard) (n : Nat) : Option (Nat × Car) :=
  (inUse y.store.cars).find? fun e => e.2.number == n

/-- The slot and record of an order number. -/
def Yard.findOrder (y : Yard) (n : Nat) : Option (Nat × Order) :=
  (inUse y.store.orders).find? fun e => e.2.number == n

/-- The slot and entry of a used ticket. -/
def Yard.findTicket (y : Yard) (n : Nat) : Option (Nat × Ticket) :=
  (inUse y.store.tickets).find? fun e => e.2.ticket == n

/-- The record of an open bay. -/
def Yard.bay? (y : Yard) (b : Nat) : Option Bay :=
  (y.baySlot b).record?

/-- The record of a defined item in service. -/
def Yard.item? (y : Yard) (i : Nat) : Option MenuItem :=
  (y.menuSlot i).record?

/-- The record of a car in the table. -/
def Yard.car? (y : Yard) (n : Nat) : Option Car :=
  (y.findCar n).map Prod.snd

/-- The record of an order in the table. -/
def Yard.order? (y : Yard) (n : Nat) : Option Order :=
  (y.findOrder n).map Prod.snd

/-! ## Writes of whole records -/

/-- Write a car's record back, where the car is in the table. -/
def Yard.modCar (y : Yard) (n : Nat) (f : Car → Car) : Yard :=
  match y.findCar n with
  | some (i, c) => y.setCarSlot i ((y.carSlot i).write (f c))
  | none => y

/-- Write an order's record back, where the order is in the table. -/
def Yard.modOrder (y : Yard) (n : Nat) (f : Order → Order) : Yard :=
  match y.findOrder n with
  | some (i, o) => y.setOrderSlot i ((y.orderSlot i).write (f o))
  | none => y

/-- Write a bay's record back, where the bay is open. -/
def Yard.modBay (y : Yard) (b : Nat) (f : Bay → Bay) : Yard :=
  match y.bay? b with
  | some r => y.setBaySlot b ((y.baySlot b).write (f r))
  | none => y

/-- Write an item's record back, where the item is in service. -/
def Yard.modItem (y : Yard) (i : Nat) (f : MenuItem → MenuItem) : Yard :=
  match y.item? i with
  | some m => y.setMenuSlot i ((y.menuSlot i).write (f m))
  | none => y

/-- Free a car's slot. -/
def Yard.freeCar (y : Yard) (n : Nat) : Yard :=
  match y.findCar n with
  | some (i, _) => y.setCarSlot i (y.carSlot i).release
  | none => y

/-- Free an order's slot. -/
def Yard.freeOrder (y : Yard) (n : Nat) : Yard :=
  match y.findOrder n with
  | some (i, _) => y.setOrderSlot i (y.orderSlot i).release
  | none => y

/-- Take a ticket out of the used-ticket set. -/
def Yard.freeTicket (y : Yard) (n : Nat) : Yard :=
  match y.findTicket n with
  | some (i, _) => y.setTicketSlot i (y.ticketSlot i).release
  | none => y

/-! ## Reads (R191) -/

/-- What a read answers: the record, no record in the slot (it is not read), or a parity fault (the record is gone). -/
inductive Read (ρ : Type) where
  | whole (record : ρ)
  | absent
  | fault
deriving DecidableEq, Repr

/-- Whether a read met a parity fault. -/
def Read.faulty {ρ : Type} : Read ρ → Bool
  | .fault => true
  | _ => false

/-- The record of a read that found one. -/
def Read.record? {ρ : Type} : Read ρ → Option ρ
  | .whole r => some r
  | _ => none

/-- A parity fault on a slot that has just been quarantined: latch, count, report, and the handling joins the waiting
list (R191, R192). -/
def Yard.parityFault (y : Yard) (t : TableId) (i : Nat) (k : Key) (h : Halves) : Yard :=
  let y := { y with
    store := { y.store with
      latch := some (t, i, h), faultCount := satAdd255 1 y.store.faultCount, waiting := y.store.waiting ++ [(t, i, k)] }
    freeIndex := y.freeIndex + 1 }
  y.raise (.storeFault t i k h (Config.rawHalves (y.freeIndex - 1)))

/-- Read a slot of the car table; `settle` completes the waiting handlings before the reading operation goes on (the
identity within a handling, R192). -/
def Yard.readCarSlot (settle : Yard → Yard) (y : Yard) (i : Nat) : Read Car × Yard :=
  match (y.carSlot i).record?, (y.carSlot i).wrong with
  | none, _ => (.absent, y)
  | some c, none => (.whole c, y)
  | some c, some h =>
    (.fault, settle ((y.setCarSlot i (y.carSlot i).quarantine).parityFault .car i ⟨c.number, none⟩ h))

/-- Read a bay's record. -/
def Yard.readBay (settle : Yard → Yard) (y : Yard) (i : Nat) : Read Bay × Yard :=
  match (y.baySlot i).record?, (y.baySlot i).wrong with
  | none, _ => (.absent, y)
  | some b, none => (.whole b, y)
  | some _, some h =>
    (.fault, settle ((y.setBaySlot i (y.baySlot i).quarantine).parityFault .bay i ⟨i, none⟩ h))

/-- Read a slot of the order table. -/
def Yard.readOrderSlot (settle : Yard → Yard) (y : Yard) (i : Nat) : Read Order × Yard :=
  match (y.orderSlot i).record?, (y.orderSlot i).wrong with
  | none, _ => (.absent, y)
  | some o, none => (.whole o, y)
  | some o, some h =>
    (.fault, settle ((y.setOrderSlot i (y.orderSlot i).quarantine).parityFault .order i ⟨o.number, some o.car⟩ h))

/-- Read an item's record. -/
def Yard.readItem (settle : Yard → Yard) (y : Yard) (i : Nat) : Read MenuItem × Yard :=
  match (y.menuSlot i).record?, (y.menuSlot i).wrong with
  | none, _ => (.absent, y)
  | some m, none => (.whole m, y)
  | some _, some h =>
    (.fault, settle ((y.setMenuSlot i (y.menuSlot i).quarantine).parityFault .menu i ⟨i, none⟩ h))

/-- Read a slot of the used-ticket set. -/
def Yard.readTicketSlot (settle : Yard → Yard) (y : Yard) (i : Nat) : Read Ticket × Yard :=
  match (y.ticketSlot i).record?, (y.ticketSlot i).wrong with
  | none, _ => (.absent, y)
  | some t, none => (.whole t, y)
  | some t, some h =>
    (.fault, settle ((y.setTicketSlot i (y.ticketSlot i).quarantine).parityFault .ticket i ⟨t.ticket, none⟩ h))

/-- Read a car's record by its number: the index names the slot. -/
def Yard.readCar (settle : Yard → Yard) (y : Yard) (n : Nat) : Read Car × Yard :=
  match y.findCar n with
  | some (i, _) => y.readCarSlot settle i
  | none => (.absent, y)

/-- Read an order's record by its number. -/
def Yard.readOrder (settle : Yard → Yard) (y : Yard) (n : Nat) : Read Order × Yard :=
  match y.findOrder n with
  | some (i, _) => y.readOrderSlot settle i
  | none => (.absent, y)

/-- Read a used-ticket entry by its number. -/
def Yard.readTicket (settle : Yard → Yard) (y : Yard) (n : Nat) : Read Ticket × Yard :=
  match y.findTicket n with
  | some (i, _) => y.readTicketSlot settle i
  | none => (.absent, y)

/-- Search the car records in rising order of slot, reading each, up to the first that satisfies `q` (R117; the order,
and that the search ends there, are the model's choice, log entry 56). The answer tells the record found and whether a
read met a parity fault. -/
def Yard.searchCars (settle : Yard → Yard) (q : Car → Bool) : List Nat → Yard → Option Car × Bool × Yard
  | [], y => (none, false, y)
  | i :: is, y =>
    match y.readCarSlot settle i with
    | (.whole c, y) => if q c then (some c, false, y) else Yard.searchCars settle q is y
    | (.absent, y) => Yard.searchCars settle q is y
    | (.fault, y) =>
      match Yard.searchCars settle q is y with
      | (r, _, y) => (r, true, y)

/-- The slots of the car table in use, in rising order. -/
def Yard.carSlotsInUse (y : Yard) : List Nat :=
  (inUse y.store.cars).map Prod.fst

end Sys2Proof.Machine
end

