-- ==== Sys2Proof/Machine/Clock.lean ====
section
/-! DEFINITION. What a millisecond does (log entry 1): the night clock counts in RUN (R208), every running countdown runs
down (spec/00_scope.md, Timers), and a countdown that reaches its end puts its expiry command in the queue. -/

namespace Sys2Proof.Machine

/-! ## Countdowns -/

/-- A countdown one millisecond later. -/
def tickTimer : Option Nat → Option Nat
  | none => none
  | some n => some (n - 1)

/-- A countdown in tenths of a millisecond one millisecond later. -/
def tickTenths : Option Nat → Option Nat
  | none => none
  | some n => some (n - 10)

/-- The command due when a countdown comes from above 0 to 0. -/
def dueAt (last : Nat) (timer : Option Nat) (c : Instr) : List Instr :=
  match timer with
  | some n => if 0 < n ∧ n ≤ last then [c] else []
  | none => []

/-- A screen's countdowns one millisecond later. -/
def Screen.tick (sc : Screen) : Screen :=
  { sc with countdown := tickTimer sc.countdown, startTimer := tickTimer sc.startTimer }

/-- What falls due on a screen's timeline: a start timer, a motor lead reached (R18), a break's end. -/
def Screen.due1ms (id : ScreenId) (sc : Screen) : List Instr :=
  dueAt 1 sc.startTimer (.startTimerExpiry id) ++
    (if sc.phase = .onBreak ∧ sc.leadSetting ≠ 0 ∧ sc.countdown = some (sc.leadSetting * 1000 + 1)
     then [.motorLeadReached id] else []) ++
    dueAt 1 sc.countdown (.breakCountdownExpiry id)

/-- A sound path's timers one millisecond later. -/
def Sound.tick (sd : Sound) : Sound :=
  { sd with servo := { sd.servo with
      coastGap := tickTimer sd.servo.coastGap, coastLimit := tickTimer sd.servo.coastLimit } }

/-- What falls due on a sound path. -/
def Sound.due1ms (id : ScreenId) (sd : Sound) : List Instr :=
  dueAt 1 sd.servo.coastGap (.coastGapExpiry id) ++ dueAt 1 sd.servo.coastLimit (.coastLimitExpiry id)

/-- What is left of an open response window, in tenths of a millisecond. -/
def LoopRec.windowLeft (l : LoopRec) : Option Nat :=
  match l.current with
  | some t =>
    match t.window with
    | .listening _ left => left
    | .sending => none
  | none => none

/-- A transaction's window one millisecond later. -/
def Transaction.tick (t : Transaction) : Transaction :=
  match t.window with
  | .listening n left => { t with window := .listening n (tickTenths left) }
  | .sending => t

/-- A loop's timers one millisecond later. -/
def LoopRec.tick (l : LoopRec) : LoopRec :=
  { l with
    current := l.current.map Transaction.tick
    lendTimer := tickTimer l.lendTimer
    posts := Tab.mapEntries Post.reset (fun _ p => { p with recovery := tickTimer p.recovery }) l.posts }

/-- What falls due on a loop. -/
def LoopRec.due1ms (id : ScreenId) (l : LoopRec) : List Instr :=
  dueAt 10 l.windowLeft (.responseWindowExpiry id) ++ dueAt 1 l.lendTimer (.lendTimerExpiry id) ++
    (l.posts.map fun e => dueAt 1 e.2.recovery (.recoveryTimerExpiry id e.1)).flatten

/-- A lane's timers one millisecond later. -/
def Lane.tick (l : Lane) : Lane :=
  { l with
    dwell := tickTimer l.dwell, stall := tickTimer l.stall, travel := tickTimer l.travel
    exitRead := tickTimer l.exitRead }

/-- What falls due on a lane. -/
def Lane.due1ms (id : LaneId) (l : Lane) : List Instr :=
  dueAt 1 l.travel (.barrierTravelExpiry id) ++ dueAt 1 l.stall (.stallTimerExpiry id) ++
    dueAt 1 l.dwell (.dwellExpiry id) ++ dueAt 1 l.exitRead (.exitReadExpiry id)

/-- The yard's timers one millisecond later. -/
def Yard.tick (y : Yard) : Yard :=
  { y with
    loops := y.loops.map LoopRec.tick
    limits := Tab.mapEntries none (fun _ => tickTimer) y.limits
    runners := y.runners.map fun r => { r with timer := tickTimer r.timer } }

/-- What falls due in the yard: the loops, the check-in limits by car number, the take timers by runner. -/
def Yard.due1ms (y : Yard) : List Instr :=
  ((List.finRange 4).map fun lp => (y.loops[lp]).due1ms lp).flatten ++
    (y.limits.map fun e => dueAt 1 e.2 (.checkinLimitExpiry e.1)).flatten ++
    ((List.finRange 32).map fun r => dueAt 1 (y.runners[r]).timer (.takeTimerExpiry r)).flatten

/-! ## The whole part -/

/-- The commands whose countdowns end in the millisecond now passing, in the model's order (log entry 1). -/
def State.due1ms (s : State) : List Instr :=
  ((List.finRange 6).map fun ln => (s.lanes[ln]).due1ms ln).flatten ++
    ((List.finRange 4).map fun sc => (s.screens[sc]).due1ms sc).flatten ++
    ((List.finRange 4).map fun sc => (s.sound[sc]).due1ms sc).flatten ++ s.yard.due1ms

/-- The night clock's top: 4 bytes (R208). -/
def clockTop : Nat := 4294967295

/-- The night clock one millisecond later: it counts in RUN. Past its top it holds a free value, of 4 bytes (log entry
4). -/
def Link.tick (free : Nat) (l : Link) : Link :=
  match l.part with
  | .setup => l
  | .run =>
    { l with clock := if l.clock < clockTop then l.clock + 1 else Config.clockPastTop free % (clockTop + 1) }

/-- One millisecond passes. -/
def State.tick (s : State) : State :=
  { pending := s.pending ++ s.due1ms
    hostLine := s.hostLine
    screens := s.screens.map Screen.tick
    sound := s.sound.map Sound.tick
    lanes := s.lanes.map Lane.tick
    yard := { s.yard.tick with freeIndex := s.yard.freeIndex + 1 }
    link := s.link.tick s.yard.freeIndex }

end Sys2Proof.Machine
end

