-- ==== Sys2Proof/Machine/Slots.lean ====
section
/-! DEFINITION. The loops' outbound slots and what the Car Table and the Order Engine place in them: placing and
coalescing an item (R75, R76), UNDELIVERED completion (R77), the speaker states of marked bays (R128) and the resting
lamps of marked bays (R156). -/

namespace Sys2Proof.Machine

/-- An item of an internal producer: a value for each side it names (R75). -/
structure Item where
  post : Nat
  kind : SlotKind
  v0 : Option Nat
  v1 : Option Nat
  prio : Nat
  origin : Origin
deriving DecidableEq, Repr

/-- Change one loop's record. -/
def Yard.modLoop (y : Yard) (lp : ScreenId) (f : LoopRec → LoopRec) : Yard :=
  { y with loops := y.loops.set lp (f y.loops[lp]) }

/-- A post's table entry. -/
def LoopRec.post (l : LoopRec) (p : Nat) : Post :=
  Tab.get Post.reset l.posts p

/-- Write a post's table entry. -/
def LoopRec.setPost (l : LoopRec) (p : Nat) (e : Post) : LoopRec :=
  { l with posts := Tab.put Post.reset l.posts p e }

/-- Write a slot. -/
def LoopRec.setSlot (l : LoopRec) (i : Fin 16) (sl : OutSlot) : LoopRec :=
  { l with slots := l.slots.set i sl }

/-- Whether a slot placed for the post is completed UNDELIVERED at once: the post is DROPPED or ABSENT (R75). -/
def Post.unreachable (p : Post) : Bool :=
  !p.present || decide (p.conf = .dropped)

/-- The numbers of the 16 slots, in rising order. -/
def slotNumbers : List (Fin 16) :=
  [0, 1, 2, 3, 4, 5, 6, 7, 8, 9, 10, 11, 12, 13, 14, 15]

/-- The FREE slot with the lowest number. -/
def LoopRec.freeSlot? (l : LoopRec) : Option (Fin 16) :=
  slotNumbers.find? fun i => decide ((l.slots[i]).use = .free)

/-- Complete a slot UNDELIVERED: it becomes FREE, is counted and reported (R77, R88). -/
def Yard.completeUndelivered (y : Yard) (lp : ScreenId) (i : Fin 16) : Yard :=
  let sl := (y.loops[lp]).slots[i]
  (y.modLoop lp fun l => { l.setSlot i OutSlot.empty with undelivered := satInc l.undelivered }).raise
    (.sendUndelivered lp sl.post sl.kind sl.v0 sl.v1 sl.origin)

/-- The newest PENDING slot of the same post and kind with the side enabled (R76). -/
def LoopRec.mergeTarget (l : LoopRec) (it : Item) (side1 : Bool) : Option (Fin 16) :=
  let hit (i : Fin 16) : Bool :=
    let sl := l.slots[i]
    decide (sl.use = .pending) && decide (sl.post = it.post) && decide (sl.kind = it.kind) &&
      (if side1 then sl.v1.isSome else sl.v0.isSome)
  slotNumbers.foldl (fun best i =>
    if hit i then
      match best with
      | none => some i
      | some j => if (l.slots[j]).age < (l.slots[i]).age then some i else some j
    else best) none

/-- Coalesce one side of an item (R76): the answer tells whether the side was merged; a side dropped sets the overflow
flag. A side the item does not name counts as placed. -/
def LoopRec.mergeSide (l : LoopRec) (it : Item) (side1 : Bool) : Bool × LoopRec :=
  match (if side1 then it.v1 else it.v0) with
  | none => (true, l)
  | some v =>
    match l.mergeTarget it side1 with
    | some i =>
      let sl := l.slots[i]
      let sl := if side1 then { sl with v1 := some v } else { sl with v0 := some v }
      (true, l.setSlot i { sl with prio := max sl.prio it.prio, origin := it.origin })
    | none => (false, { l with overflow := true })

/-- A new slot for an item, PENDING, with the newest age (R75). -/
def LoopRec.newSlot (l : LoopRec) (it : Item) : OutSlot :=
  { use := .pending, post := it.post, kind := it.kind, v0 := it.v0, v1 := it.v1, prio := it.prio,
    origin := it.origin, age := l.nextAge, fails := 0 }

/-- Place an item of an internal producer (R75, R76). The answer tells, for each side, whether it was placed or merged.
A slot freed here was taken here, with a FREE slot at hand, so the overflow flag is clear and no resend follows (log
entry 12). -/
def Yard.putItem (y : Yard) (lp : ScreenId) (it : Item) : (Bool × Bool) × Yard :=
  match (y.loops[lp]).freeSlot? with
  | some i =>
    let y' := y.modLoop lp fun l => { l.setSlot i (l.newSlot it) with nextAge := l.nextAge + 1 }
    ((true, true), if ((y.loops[lp]).post it.post).unreachable then y'.completeUndelivered lp i else y')
  | none =>
    let m0 := (y.loops[lp]).mergeSide it false
    let m1 := m0.2.mergeSide it true
    ((m0.1, m1.1), y.modLoop lp fun _ => m1.2)

/-- The values of an item that names one side. -/
def sideValues (side v : Nat) : Option Nat × Option Nat :=
  if side = 0 then (some v, none) else (none, some v)

/-- Place a LAMPS item for the side of one bay at priority 1; the answer tells whether it was placed or merged. -/
def Yard.placeLamp (y : Yard) (origin : Origin) (bay v : Nat) : Bool × Yard :=
  let vs := sideValues (baySide bay) v
  match y.putItem (bayLoop bay)
      { post := bayPost bay, kind := .lamps, v0 := vs.1, v1 := vs.2, prio := 1, origin := origin } with
  | ((ok0, ok1), y) => (ok0 && ok1, y)

/-! ## Speakers (R128) -/

/-- Whether a bay's speaker state still has to be placed (R120). -/
def Yard.spkMarked (y : Yard) (bay : Nat) : Bool :=
  Tab.get false y.spkMarks bay

/-- Set or clear a bay's speaker mark. -/
def Yard.setSpkMark (y : Yard) (bay : Nat) (m : Bool) : Yard :=
  { y with spkMarks := Tab.put false y.spkMarks bay m }

/-- The speaker value of a bay at this moment: 1 ON, 0 OFF; a closed or lost bay is OFF. -/
def Yard.speakerValue (y : Yard) (bay : Nat) : Nat :=
  match y.bay? bay with
  | some b => if b.speaker then 1 else 0
  | none => 0

/-- Read the record of a bay that is marked, through the Record Store; the answer tells whether it was. -/
def Yard.readMarked (marked : Yard → Nat → Bool) (settle : Yard → Yard) (y : Yard) (bay : Nat) : Bool × Yard :=
  if marked y bay then (true, (y.readBay settle bay).2) else (false, y)

/-- Place the speaker states of the marked sides of one post, one item at priority 2; a side placed or merged has its
mark cleared (R128). Both records are read before the item is formed, from the bays as the reads have left them: where
the handling of a lost record has already placed a side, that side is placed no second time. A parity fault at either
read changes nothing of what the event that places them answers (the model's choice, log entry 55). -/
def Yard.placeSpeakersAt (settle : Yard → Yard) (lp : ScreenId) (y : Yard) (p : Nat) : Yard :=
  let b0 := postBay lp p 0
  let b1 := postBay lp p 1
  let r0 := y.readMarked Yard.spkMarked settle b0
  let r1 := r0.2.readMarked Yard.spkMarked settle b1
  let y := r1.2
  let m0 := r0.1 && y.spkMarked b0
  let m1 := r1.1 && y.spkMarked b1
  if m0 || m1 then
    match y.putItem lp
        { post := p, kind := .speakers, v0 := if m0 then some (y.speakerValue b0) else none,
          v1 := if m1 then some (y.speakerValue b1) else none, prio := 2, origin := .ct } with
    | ((ok0, ok1), y) =>
      let y := if m0 && ok0 then y.setSpkMark b0 false else y
      if m1 && ok1 then y.setSpkMark b1 false else y
  else y

/-- The posts of a loop, in rising order. -/
def allPosts : List Nat :=
  List.range 128

/-- Place the marked speaker states of the given bays' posts, in rising order of bay, so of post on each loop. -/
def Yard.placeSpeakersOf (settle : Yard → Yard) (y : Yard) (bays : List Nat) : Yard :=
  bays.foldl (fun y b => y.placeSpeakersAt settle (bayLoop b) (bayPost b)) y

/-- Place every marked speaker state of a loop's field. -/
def Yard.placeAllSpeakers (settle : Yard → Yard) (lp : ScreenId) (y : Yard) : Yard :=
  allPosts.foldl (fun y p => y.placeSpeakersAt settle lp p) y

/-! ## Resting lamps (R156) -/

/-- Whether a bay's resting lamp still has to be placed. -/
def Yard.lampMarked (y : Yard) (bay : Nat) : Bool :=
  Tab.get false y.lampMarks bay

/-- Set or clear a bay's lamp mark. -/
def Yard.setLampMark (y : Yard) (bay : Nat) (m : Bool) : Yard :=
  { y with lampMarks := Tab.put false y.lampMarks bay m }

/-- Whether a car has an order READY or TAKEN: a ready-list entry names it, or the index names it for an order a runner
holds. -/
def Yard.hasReadyOrTaken (y : Yard) (car : Nat) : Bool :=
  (y.readyList.any fun e => e.car == car) ||
    (y.runners.toList.any fun r =>
      match r.held.bind y.order? with
      | some o => o.car == car
      | none => false)

/-- The resting lamp of a bay with the given occupant. -/
def Yard.restingLamp (y : Yard) : Option Nat → Nat
  | none => lampNone
  | some car => if y.hasReadyOrTaken car then lampReady else lampNone

/-- The resting lamp of a bay at this moment; a closed or lost bay has no occupant. -/
def Yard.restingValue (y : Yard) (bay : Nat) : Nat :=
  y.restingLamp ((y.bay? bay).bind Bay.occupant)

/-- Place the resting lamps of the marked sides of one post, one item at priority 1; a side placed or merged has its
mark cleared (R156). The records are read before the item is formed, and a parity fault changes no answer, as for the
speakers (log entry 55). -/
def Yard.placeLampsAt (settle : Yard → Yard) (lp : ScreenId) (y : Yard) (p : Nat) : Yard :=
  let b0 := postBay lp p 0
  let b1 := postBay lp p 1
  let r0 := y.readMarked Yard.lampMarked settle b0
  let r1 := r0.2.readMarked Yard.lampMarked settle b1
  let y := r1.2
  let m0 := r0.1 && y.lampMarked b0
  let m1 := r1.1 && y.lampMarked b1
  if m0 || m1 then
    match y.putItem lp
        { post := p, kind := .lamps, v0 := if m0 then some (y.restingValue b0) else none,
          v1 := if m1 then some (y.restingValue b1) else none, prio := 1, origin := .oe } with
    | ((ok0, ok1), y) =>
      let y := if m0 && ok0 then y.setLampMark b0 false else y
      if m1 && ok1 then y.setLampMark b1 false else y
  else y

/-- Mark a bay's resting lamp and place it with its post (R156: marked bays are placed when the event that marked them
is taken). -/
def Yard.markLamp (settle : Yard → Yard) (y : Yard) (bay : Nat) : Yard :=
  (y.setLampMark bay true).placeLampsAt settle (bayLoop bay) (bayPost bay)

/-- Place every marked resting lamp of a loop's field. -/
def Yard.placeAllLamps (settle : Yard → Yard) (lp : ScreenId) (y : Yard) : Yard :=
  allPosts.foldl (fun y p => y.placeLampsAt settle lp p) y

/-- Place a passing lamp value of the Order Engine for a bay's side; a value dropped marks the bay (R156), and nothing more
is placed in that event (the model's choice, log entry 58). -/
def Yard.placePassing (y : Yard) (bay v : Nat) : Yard :=
  match y.placeLamp .oe bay v with
  | (true, y) => y
  | (false, y) => y.setLampMark bay true

/-- Place the resting lamp of a bay for its side at a cancel (R153, R154): placed or merged, the bay's mark is cleared,
and dropped, it is set (R156). -/
def Yard.placeRestingNow (y : Yard) (bay : Nat) (occupant : Option Nat) : Yard :=
  match y.placeLamp .oe bay (y.restingLamp occupant) with
  | (ok, y) => y.setLampMark bay (!ok)

/-! ## Resend requests (R129, R156): the Car Table first, then the Order Engine (R76) -/

/-- Set marks for a list of bays. -/
def Yard.markBays (y : Yard) (bays : List Nat) : Yard :=
  bays.foldl (fun y b => (y.setSpkMark b true).setLampMark b true) y

/-- The bays of a loop's field. -/
def fieldBays (lp : ScreenId) : List Nat :=
  (List.range 256).map fun k => lp.val * 256 + k

/-- A resend request naming a post: both its bays are marked and placed. -/
def Yard.resendPost (settle : Yard → Yard) (y : Yard) (lp : ScreenId) (p : Nat) : Yard :=
  ((y.markBays [postBay lp p 0, postBay lp p 1]).placeSpeakersAt settle lp p).placeLampsAt settle lp p

/-- A resend request naming a loop, on its return from a loan or after a loop reset: every bay is marked and placed. -/
def Yard.resendLoop (settle : Yard → Yard) (y : Yard) (lp : ScreenId) : Yard :=
  ((y.markBays (fieldBays lp)).placeAllSpeakers settle lp).placeAllLamps settle lp

/-- A resend request naming a loop, sent when a slot frees with the overflow flag set: the bays still marked are
placed. -/
def Yard.resendOverflow (settle : Yard → Yard) (y : Yard) (lp : ScreenId) : Yard :=
  (y.placeAllSpeakers settle lp).placeAllLamps settle lp

/-- A slot has become FREE: with the overflow flag set, the flag is cleared and a resend request goes out (R76). -/
def Yard.afterFree (settle : Yard → Yard) (y : Yard) (lp : ScreenId) : Yard :=
  if (y.loops[lp]).overflow then (y.modLoop lp fun l => { l with overflow := false }).resendOverflow settle lp else y

end Sys2Proof.Machine
end

