-- ==== Sys2Proof/Machine/ReadyRows.lean ====
section
/-! DEFINITION. The ready list, the row counts and row lamps (R167 to R171), the bind change (R170), and the unbinding of
a car from its bay (R127). -/

namespace Sys2Proof.Machine

/-- The count of a row (R169). -/
def Yard.rowCount (y : Yard) (row : Nat) : Nat :=
  Tab.get 0 y.rowCounts row

/-- The row lamp output: lit exactly when the row's count is above 0 (R169). -/
def Yard.rowLamp (y : Yard) (row : Nat) : Bool :=
  decide (0 < y.rowCount row)

/-- Raise a counted row. -/
def Yard.rowUp (y : Yard) : Option Nat → Yard
  | none => y
  | some r => { y with rowCounts := Tab.put 0 y.rowCounts r (y.rowCount r + 1) }

/-- Lower a counted row. -/
def Yard.rowDown (y : Yard) : Option Nat → Yard
  | none => y
  | some r => { y with rowCounts := Tab.put 0 y.rowCounts r (y.rowCount r - 1) }

/-- The entry of an order on the ready list. -/
def Yard.readyEntry? (y : Yard) (order : Nat) : Option ReadyEntry :=
  y.readyList.find? fun e => e.order == order

/-- An order's entry leaves the ready list and its row's count falls (R168). -/
def Yard.leaveReady (y : Yard) (order : Nat) : Yard :=
  match y.readyEntry? order with
  | some e => { y with readyList := y.readyList.filter fun e => e.order != order }.rowDown e.row
  | none => y

/-- The row a car's entry is counted in: the row of its bay if it is PARKED (R166, R168). -/
def Car.row (c : Car) : Option Nat :=
  if c.state = .parked then c.bay.map bayRow else none

/-- The bay of a car that is PARKED. -/
def Car.parkedBay (c : Car) : Option Nat :=
  if c.state = .parked then c.bay else none

/-- An entry joins the ready list at the tail, counted in its row (R166). -/
def Yard.joinTail (y : Yard) (e : ReadyEntry) : Yard :=
  { y with readyList := y.readyList ++ [e] }.rowUp e.row

/-- An entry joins the ready list at the head, counted in its row (R168). -/
def Yard.joinHead (y : Yard) (e : ReadyEntry) : Yard :=
  { y with readyList := e :: y.readyList }.rowUp e.row

/-- The row recount (R171): every count set to the number of entries counted in its row. -/
def Yard.recount (y : Yard) : Yard :=
  { y with rowCounts := y.readyList.foldl (fun t e =>
      match e.row with
      | some r => Tab.put 0 t r (Tab.get 0 t r + 1)
      | none => t) [] }

/-- A bind change (R170): the car's entries leave the old bay's row, or join the new bay's; the answer is the number of
the car's entries. An entry that is counted in a row leaves that row's count first, also where a car checks in again at
its bay, so that R169 holds (the model's choice, log entry 52). -/
def Yard.bindChange (y : Yard) (car : Nat) (newBay : Option Nat) : Nat × Yard :=
  let mine := y.readyList.filter fun e => e.car == car
  let row := newBay.map bayRow
  let y := mine.foldl (fun y e => (y.rowDown e.row).rowUp row) y
  (mine.length, { y with readyList := y.readyList.map fun e => if e.car == car then { e with row := row } else e })

/-! ## Check-in limits (R130) -/

/-- Start a car's check-in limit from the setting. -/
def Yard.startLimit (y : Yard) (car : Nat) : Yard :=
  { y with limits := Tab.put none y.limits car (loadMinutes y.checkinSetting) }

/-- Stop a car's check-in limit. -/
def Yard.stopLimit (y : Yard) (car : Nat) : Yard :=
  { y with limits := Tab.put none y.limits car none }

/-! ## Unbinding (R127) -/

/-- Set a bay's speaker state and mark the bay if it changed (R126, R127). -/
def Yard.setSpeaker (y : Yard) (bay : Nat) (on : Bool) : Yard :=
  match y.bay? bay with
  | some b =>
    let y := y.modBay bay fun b => { b with speaker := on }
    if b.speaker != on then y.setSpkMark bay true else y
  | none => y

/-- The part common to every unbinding: the bay loses its occupant and its speaker, the car its bay, the lamp of the
side is put out and the Order Engine told. -/
def Yard.release (y : Yard) (car bay : Nat) : Yard :=
  let y := (y.modBay bay fun b => { b with occupant := none }).setSpeaker bay false
  let y := y.modCar car fun c => { c with bay := none }
  let y := (y.placeLamp .ct bay lampNone).2
  (y.bindChange car none).2

/-- An unbinding that sends the car back to the field: DISPLACED, BAY_CLOSED or BAY_LOST (R127). -/
def Yard.unbindToField (y : Yard) (car bay : Nat) (cause : CarCause) : Yard :=
  (((y.release car bay).modCar car fun c => { c with state := .onField }).startLimit car).raise
    (.carState car .parked .onField cause)

/-! ## Capacity (R122) -/

/-- The number of open bays of a screen's field: its slots in use (R190). -/
def Yard.openBays (y : Yard) (sc : ScreenId) : Nat :=
  (inUse y.store.bays).countP fun e => e.1 / 256 == sc.val

/-- The capacity is lowered to the open bays, but not below the admitted count, and the change reported (R122). -/
def Yard.checkCapacity (y : Yard) (sc : ScreenId) : Yard :=
  let old := y.capacity[sc]
  let new := max (y.openBays sc) y.admittedCount[sc]
  if new < old then { y with capacity := y.capacity.set sc new }.raise (.capacityChanged sc old new) else y

/-- Change a screen's admitted count. -/
def Yard.setAdmitted (y : Yard) (sc : ScreenId) (n : Nat) : Yard :=
  { y with admittedCount := y.admittedCount.set sc n }

end Sys2Proof.Machine
end

