-- ==== Sys2Proof/Machine/Quarantine.lean ====
section
/-! DEFINITION. What the owner of a quarantined record does (R133, R193, R194, R195), and the completion of the waiting
handlings in the order in which their faults were found (R192). -/

namespace Sys2Proof.Machine

/-- The runner that holds an order. -/
def Yard.holder? (y : Yard) (order : Nat) : Option RunnerId :=
  (List.finRange 32).find? fun r => decide ((y.runners[r]).held = some order)

/-- Write a runner's record. -/
def Yard.setRunner (y : Yard) (r : RunnerId) (rec : Runner) : Yard :=
  { y with runners := y.runners.set r rec }

/-- Every line reference of an order leaves its queue, and those behind it move up (R160). -/
def Yard.dequeueOrder (y : Yard) (order : Nat) : Yard :=
  { y with queues := y.queues.map fun q => q.filter fun e => e.order != order }

/-- An order leaves its screen's held list, and with its entry the stations' reservations of its lines (R150). -/
def Yard.unhold (y : Yard) (order : Nat) : Yard :=
  { y with held := y.held.map fun l => l.filter fun e => e.order != order }

/-- A bay loses a car that is gone from the table: empty, speaker OFF, a mark if it was ON, the lamp put out, a bind
change (R133). -/
def Yard.emptyLostBay (car : Nat) (y : Yard) (bay : Nat) : Yard :=
  let y := (y.modBay bay fun b => { b with occupant := none }).setSpeaker bay false
  let y := (y.placeLamp .ct bay lampNone).2
  (y.bindChange car none).2

/-- Search the bay table for a lost car, reading each open bay in rising order, and empty every bay it occupies (R133;
the order of the search is the model's choice, log entry 56). -/
def Yard.emptyBaysOf (car : Nat) : List Nat → Yard → List Nat × Yard
  | [], y => ([], y)
  | b :: bs, y =>
    match y.readBay id b with
    | (.whole r, y) =>
      if r.occupant = some car then
        match Yard.emptyBaysOf car bs (y.emptyLostBay car b) with
        | (l, y) => (b :: l, y)
      else Yard.emptyBaysOf car bs y
    | (_, y) => Yard.emptyBaysOf car bs y

/-- The owner's handling of a lost car record (R133): a departure without a record. The marked speakers are placed after
DEPARTED is raised (the model's choice, log entry 54). Where the record of the car's bay is lost in the same chain, no
bay is found and no bind change made: the car's entries stay counted in their row (the model's choice, log entry 59). -/
def Yard.carLost (y : Yard) (car : Nat) : Yard :=
  match Yard.emptyBaysOf car ((inUse y.store.bays).map Prod.fst) y with
  | (emptied, y) =>
    ((y.stopLimit car).raise (.departed car none none .store)).placeSpeakersOf id emptied

/-- The owner's handling of a lost bay record (R133): the bay is closed, its car unbound, its speaker sent OFF and the
capacity checked after it (the order of these two is the model's choice, log entry 54). Where the car's own record is
lost in the same chain, no car is found and no bind change made: its entries stay counted in their row (the model's
choice, log entry 59). -/
def Yard.bayLost (y : Yard) (bay : Nat) : Yard :=
  let y :=
    match Yard.searchCars id (fun c => decide (c.bay = some bay)) y.carSlotsInUse y with
    | (some c, _, y) => y.unbindToField c.number bay .bayLost
    | (none, _, y) => y
  ((y.setSpkMark bay true).placeSpeakersOf id [bay]).checkCapacity (bayLoop bay)

/-- The quarantine of a held order's record ends the take (R187). -/
def Yard.takeLost (y : Yard) (order : Nat) : Yard :=
  match y.holder? order with
  | some r => (y.setRunner r { held := none, timer := none, last := some (order, .lost) }).raise (.takeLost r order)
  | none => y

/-- The owner's handling of a lost order record (R194). The bay's lamp is placed here, within the handling (the model's
choice, log entry 54). -/
def Yard.orderLost (y : Yard) (order car : Nat) : Yard :=
  let y := (y.unhold order).dequeueOrder order
  let y := if (y.readyEntry? order).isSome then (y.leaveReady order).recount else y
  let y := y.takeLost order
  match y.readCar id car with
  | (.whole c, y) =>
    let y := y.modCar car fun c => { c with orders := c.orders.filter fun n => n != order }
    match c.parkedBay with
    | some bay => y.markLamp id bay
    | none => y
  | (_, y) => y

/-- The owner's handling of a quarantined slot (R193). A menu item is withdrawn with its slot (R195) and a used-ticket
entry is lost with its slot; neither leaves more to do. -/
def Yard.handleLost (y : Yard) (t : TableId) (k : Key) : Yard :=
  match t with
  | .car => y.carLost k.number
  | .bay => y.bayLost k.number
  | .order => y.orderLost k.number (k.car.getD 0)
  | .menu => y
  | .ticket => y

/-- Complete the waiting handlings, one after the other, within a bound on their number. -/
def Yard.drainWithin : Nat → Yard → Yard
  | 0, y => y
  | n + 1, y =>
    match y.store.waiting with
    | [] => y
    | (t, _, k) :: rest =>
      Yard.drainWithin n (({ y with store := { y.store with waiting := rest } } : Yard).handleLost t k)

/-- Complete the waiting handlings (R192). A quarantined slot is not read again, so a chain takes no slot twice and the
number of all slots, 6,464, bounds it. -/
def Yard.drain (y : Yard) : Yard :=
  Yard.drainWithin 6464 y

end Sys2Proof.Machine
end

