-- ==== Sys2Proof/Machine/OrderEngine.lean ====
section
/-! DEFINITION. The Order Engine's shared operations: station loads (R150), the tally moves (R137), the release of held
orders (R151), cancels and voids (R152, R164, R172, R173), the settlement of a departed car's orders (R155), and the
intake and the cancel that a post or the booth asks for (R143 to R149, R153). -/

namespace Sys2Proof.Machine

/-- What the other blocks lend an order or a check-in: the part state, the present minute of night and the timelines. -/
structure Site where
  run : Bool
  minute : Nat
  screens : Vector Screen 4
deriving DecidableEq, Repr

/-! ## Loads (R150) -/

/-- A station's reservation: the lines of HELD orders whose item belongs to it. -/
def Yard.reservation (y : Yard) (st : StationId) : Nat :=
  ((y.held.toList.flatten).map fun e => e.stations.count st).sum

/-- A station's load: the references in its queue and its reservation. -/
def Yard.load (y : Yard) (st : StationId) : Nat :=
  (y.queues[st]).length + y.reservation st

/-! ## Tallies (R137) -/

/-- Raise a tally of an UNLIMITED item: it stays at 65,535. -/
def raiseTally (n k : Nat) : Nat :=
  min (n + k) 65535

/-- The order move: from remaining to pending. -/
def MenuItem.orderMove (m : MenuItem) (k : Nat) : MenuItem :=
  match m.mode with
  | .finite => { m with remaining := m.remaining - min k m.remaining, pending := m.pending + min k m.remaining }
  | .unlimited => { m with pending := raiseTally m.pending k }

/-- The start move: from pending to sold. -/
def MenuItem.startMove (m : MenuItem) (k : Nat) : MenuItem :=
  match m.mode with
  | .finite => { m with pending := m.pending - min k m.pending, sold := m.sold + min k m.pending }
  | .unlimited => { m with pending := m.pending - k, sold := raiseTally m.sold k }

/-- The return move: from pending to remaining. -/
def MenuItem.returnMove (m : MenuItem) (k : Nat) : MenuItem :=
  match m.mode with
  | .finite => { m with pending := m.pending - min k m.pending, remaining := m.remaining + min k m.pending }
  | .unlimited => { m with pending := m.pending - k }

/-- The spoil move: from sold to waste. -/
def MenuItem.spoilMove (m : MenuItem) (k : Nat) : MenuItem :=
  match m.mode with
  | .finite => { m with sold := m.sold - min k m.sold, waste := m.waste + min k m.sold }
  | .unlimited => { m with sold := m.sold - k, waste := raiseTally m.waste k }

/-- The write-off move: from remaining to waste. -/
def MenuItem.writeOff (m : MenuItem) (k : Nat) : MenuItem :=
  { m with remaining := m.remaining - min k m.remaining, waste := m.waste + min k m.remaining }

/-- The MENU_STOCK report of an item (R141). -/
def MenuItem.stockReport (i : Nat) (m : MenuItem) : Report :=
  .menuStock i m.loaded m.remaining m.pending m.sold m.waste

/-- Read an item and move its tallies; an item whose record is lost or undefined moves none (R163, R172). The answer
tells whether the move was made. -/
def Yard.moveTally (f : MenuItem → MenuItem) (y : Yard) (i : Nat) : Bool × Yard :=
  match y.readItem Yard.drain i with
  | (.whole _, y) => (true, y.modItem i f)
  | (_, y) => (false, y)

/-! ## Lines and queues (R160, R161) -/

/-- Whether every line of an order is PENDING. -/
def Order.unstarted (o : Order) : Bool :=
  o.lines.all fun l => decide (l.state = .pending)

/-- Whether every line of an order is DONE. -/
def Order.allDone (o : Order) : Bool :=
  o.lines.all fun l => decide (l.state = .done)

/-- Move one line of an order to a state. -/
def Order.setLine (o : Order) (i : Nat) (st : LineState) : Order :=
  { o with lines := o.lines.modify i fun l => { l with state := st } }

/-- Whether an order is one a cancel settles: HELD, or QUEUED with every line PENDING (R152). -/
def Order.cancellable (o : Order) : Bool :=
  decide (o.state = .held) || (decide (o.state = .queued) && o.unstarted)

/-- Append a reference to the tail of a station's queue. -/
def Yard.enqueue (y : Yard) (st : StationId) (r : LineRef) : Yard :=
  { y with queues := y.queues.set st (y.queues[st] ++ [r]) }

/-- One reference for each line, in line order, each to the tail of its station's queue (R160). -/
def Yard.enqueueLines (y : Yard) (order : Nat) (lines : List Line) (stations : List StationId) : Yard :=
  ((lines.zipIdx.zip stations).foldl fun y e =>
    y.enqueue e.2 { order := order, line := e.1.2, item := e.1.1.item, qty := e.1.1.qty, state := e.1.1.state }) y

/-- A reference leaves a station's queue and those behind it move up (R160). -/
def Yard.dequeue (y : Yard) (st : StationId) (order line : Nat) : Yard :=
  { y with queues := y.queues.set st ((y.queues[st]).filter fun r => !(r.order == order && r.line == line)) }

/-- The reference of a line in a station's queue. -/
def Yard.lineRef? (y : Yard) (st : StationId) (order line : Nat) : Option LineRef :=
  (y.queues[st]).find? fun r => r.order == order && r.line == line

/-- A queued reference shows its line's new state (R174). -/
def Yard.markRef (y : Yard) (st : StationId) (order line : Nat) (state : LineState) : Yard :=
  { y with queues := y.queues.set st ((y.queues[st]).map fun r =>
      if r.order == order && r.line == line then { r with state := state } else r) }

/-! ## Release of held orders (R151) -/

/-- One held order becomes QUEUED; an order whose record is lost at the read is gone from the list with it (R194). -/
def Yard.releaseOne (y : Yard) (e : HeldEntry) : Yard :=
  match y.readOrder Yard.drain e.order with
  | (.whole o, y) =>
    ((y.unhold e.order).modOrder e.order fun o => { o with state := .queued }).enqueueLines e.order o.lines e.stations
  | (_, y) => y.unhold e.order

/-- A release of a screen's held orders, head to tail (R151): the answer is the number of orders released. -/
def Yard.releaseHeld (y : Yard) (sc : ScreenId) : Nat × Yard :=
  match y.held[sc] with
  | [] => (0, y)
  | list =>
    let r := list.foldl (fun (a : Nat × Yard) e =>
      let y' := a.2.releaseOne e
      (if (y'.findOrder e.order).isSome then a.1 + 1 else a.1, y')) (0, y)
    (r.1, r.2.raise (.heldReleased sc r.1))

/-! ## Cancels and voids (R152, R172, R173) -/

/-- A car's open-order list loses an order (R152, R183). -/
def Yard.dropOpenOrder (y : Yard) (car order : Nat) : Yard :=
  y.modCar car fun c => { c with orders := c.orders.filter fun n => n != order }

/-- Move the units of each of these lines, in line order; the answer is the units moved. -/
def Yard.moveLines (move : Nat → MenuItem → MenuItem) (y : Yard) : List Line → Nat × Yard
  | [] => (0, y)
  | l :: ls =>
    match y.moveTally (move l.qty) l.item with
    | (moved, y) =>
      match Yard.moveLines move y ls with
      | (n, y) => (if moved then n + l.qty else n, y)

/-- Return the units of every PENDING line, then spoil those of every line MAKING or DONE (R152, R154, R172); the answer
is the units returned and the units wasted. A forced cancel takes the same order (the model's choice, log entry 22). -/
def Yard.settleLines (y : Yard) (lines : List Line) : (Nat × Nat) × Yard :=
  match Yard.moveLines (fun n m => m.returnMove n) y (lines.filter fun l => decide (l.state = .pending)) with
  | (r, y) =>
    match Yard.moveLines (fun n m => m.spoilMove n) y (lines.filter fun l => !decide (l.state = .pending)) with
    | (w, y) => ((r, w), y)

/-- An order leaves every list of the Order Engine that names it: held list, station queues, ready list. -/
def Yard.leaveLists (y : Yard) (order : Nat) : Yard :=
  ((y.unhold order).dequeueOrder order).leaveReady order

/-- A cancel (R152), and with started units a forced cancel (R154); the car's open-order list is written unless the car
has departed. -/
def Yard.cancelOrder (y : Yard) (o : Order) (cause : CancelCause) : Yard :=
  let y := ((y.leaveLists o.number).settleLines o.lines).2
  let y :=
    if cause = .departed then y
    else
      match y.readCar Yard.drain o.car with
      | (.whole _, y) => y.dropOpenOrder o.car o.number
      | (_, y) => y
  (y.freeOrder o.number).raise (.orderCancelled o.number o.car o.state cause)

/-- A void (R172, R173). -/
def Yard.voidOrder (y : Yard) (o : Order) (cause : VoidCause) : Yard :=
  match (y.leaveLists o.number).settleLines o.lines with
  | ((r, w), y) => (y.freeOrder o.number).raise (.orderVoided o.number o.car o.state cause r w)

/-- Settle an order of a departed car that is not TAKEN: cancelled if no station has started it, voided otherwise (R155,
R164). -/
def Yard.settleGone (y : Yard) (o : Order) (cause : VoidCause) : Yard :=
  if o.cancellable then y.cancelOrder o .departed else y.voidOrder o cause

/-- An order handed on at a car's departure (R155). -/
def Yard.departedOrder (y : Yard) (order : Nat) : Yard :=
  match y.readOrder Yard.drain order with
  | (.whole o, y) =>
    if o.state = .taken then y.modOrder order fun o => { o with carGone := true } else y.settleGone o .departed
  | (_, y) => y

/-! ## Intake (R143 to R149) -/

/-- What an intake answers: the order accepted, with its number, total and first state, or the refusal with the first
failing item where it names one. -/
inductive Intake where
  | accepted (order total : Nat) (first : OrderState)
  | refused (reason : Result) (item : Option Nat)
deriving DecidableEq, Repr

/-- The number after `n` in the run 1 to 9,999. -/
def nextNumber (n : Nat) : Nat :=
  if n < 9999 then n + 1 else 1

/-- The first number after `last`, in the run 1 to 9,999, that is not in use. -/
def freshNumber (used : Nat → Bool) : Nat → Nat → Nat
  | 0, last => nextNumber last
  | n + 1, last => if used (nextNumber last) then freshNumber used n (nextNumber last) else nextNumber last

/-- The next order number (R143). -/
def Yard.nextOrder (y : Yard) : Nat :=
  freshNumber (fun n => (y.findOrder n).isSome) 9998 y.lastOrder

/-- The items an order's lines name, each once, in line order. -/
def itemsOf (lines : List WireLine) : List Nat :=
  (lines.map WireLine.item).eraseDups

/-- Read each item once (R145): what each read found. -/
def Yard.readItems (y : Yard) : List Nat → List (Nat × Read MenuItem) × Yard
  | [] => ([], y)
  | i :: is =>
    match y.readItem Yard.drain i with
    | (r, y) =>
      match y.readItems is with
      | (rs, y) => ((i, r) :: rs, y)

/-- The record read for an item. -/
def readOf (items : List (Nat × Read MenuItem)) (i : Nat) : Option MenuItem :=
  (items.find? fun e => e.1 == i).bind fun e => e.2.record?

/-- The quantity an order asks of an item over all its lines (R144, check 6). -/
def askedOf (lines : List WireLine) (i : Nat) : Nat :=
  ((lines.filter fun l => l.item == i).map WireLine.qty).sum

/-- The first item in line order that is not on sale (R144, check 5). -/
def notOnSale (items : List (Nat × Read MenuItem)) (lines : List WireLine) : Option Nat :=
  (lines.map WireLine.item).find? fun i =>
    match readOf items i with
    | some m => !m.available
    | none => true

/-- The first item in line order whose remaining falls short (R144, check 6). -/
def soldOutItem (items : List (Nat × Read MenuItem)) (lines : List WireLine) : Option Nat :=
  (lines.map WireLine.item).find? fun i =>
    match readOf items i with
    | some m => decide (m.mode = .finite) && decide (m.remaining < askedOf lines i)
    | none => false

/-- The stations of an order's lines, in line order. -/
def stationsOf (items : List (Nat × Read MenuItem)) (lines : List WireLine) : List StationId :=
  lines.filterMap fun l => (readOf items l.item).map MenuItem.station

/-- Whether some station would pass a load of 128 (R144, check 7). -/
def Yard.overloaded (y : Yard) (stations : List StationId) : Bool :=
  (List.finRange 6).any fun st => decide (128 < y.load st + stations.count st)

/-- The total of an order at the present prices (R142). -/
def totalOf (items : List (Nat × Read MenuItem)) (lines : List WireLine) : Nat :=
  (lines.map fun l => match readOf items l.item with
    | some m => m.price * l.qty
    | none => 0).sum

/-- What an intake or a post's cancel has read of the bay and of its occupant. -/
structure BayReads where
  bay : Read Bay
  car : Read Car
deriving DecidableEq, Repr

/-- Read a bay and its occupant. -/
def Yard.readOccupant (y : Yard) (bay : Nat) : BayReads × Yard :=
  match y.readBay Yard.drain bay with
  | (.whole b, y) =>
    match b.occupant with
    | some n =>
      match y.readCar Yard.drain n with
      | (c, y) => ({ bay := .whole b, car := c }, y)
    | none => ({ bay := .whole b, car := .absent }, y)
  | (r, y) => ({ bay := r, car := .absent }, y)

/-- Whether a read for the bay and its occupant met a parity fault. -/
def BayReads.lost (r : BayReads) : Bool :=
  r.bay.faulty || r.car.faulty

/-- The occupant read, if it is PARKED. -/
def BayReads.parked (r : BayReads) : Option Car :=
  match r.car with
  | .whole c => if c.state = .parked then some c else none
  | _ => none

/-- The first failing check of an intake (R144), passing over those that need a record lost at its read (R145). -/
def Yard.intakeFailure (y : Yard) (site : Site) (bay : Nat) (r : BayReads) (items : List (Nat × Read MenuItem))
    (lines : List WireLine) : Option (Result × Option Nat) :=
  let itemLost := items.any fun e => e.2.faulty
  if !site.run then some (.state, none)
  else if !r.lost && r.parked.isNone then some (.notParked, none)
  else if !(site.screens[bayLoop bay]).orderingOpen then some (.closed, none)
  else if !r.lost && (match r.parked with
    | some c => decide (4 ≤ c.orders.length)
    | none => false) then some (.limit, none)
  else if !itemLost && (notOnSale items lines).isSome then some (.noSuch, notOnSale items lines)
  else if !itemLost && (soldOutItem items lines).isSome then some (.soldOut, soldOutItem items lines)
  else if !itemLost && y.overloaded (stationsOf items lines) then some (.full, none)
  else if (lowestFree y.store.orders TableId.order.size).isNone then some (.full, none)
  else if r.lost || itemLost then some (.storeError, none)
  else none

/-- The first state of an accepted order (R147). -/
def firstState (mode : OrderMode) (sc : Screen) : OrderState :=
  match mode with
  | .now => .queued
  | .atBreak =>
    if sc.breakWindow || decide (sc.phase = .onBreak) || decide (sc.phase = .ended) || decide (sc.phase = .halted)
    then .queued else .held

/-- The order moves of an accepted order's lines, with MENU_STOCK for an item brought to remaining 0 (R141, R146). -/
def Yard.orderMoves (y : Yard) (lines : List WireLine) : Yard :=
  lines.foldl (fun y l =>
    match y.item? l.item with
    | some m =>
      let m' := m.orderMove l.qty
      let y := y.modItem l.item fun _ => m'
      if m.mode = .finite ∧ 0 < m.remaining ∧ m'.remaining = 0 then y.raise (m'.stockReport l.item) else y
    | none => y) y

/-- The lines of a new order, each PENDING. -/
def freshLines (lines : List WireLine) : List Line :=
  lines.map fun l => { item := l.item, qty := l.qty, state := .pending }

/-- An entry joins the tail of a screen's held list (R150). -/
def Yard.hold (y : Yard) (sc : ScreenId) (e : HeldEntry) : Yard :=
  { y with held := y.held.set sc (y.held[sc] ++ [e]) }

/-- The acceptance of an order (R146, R147). -/
def Yard.acceptOrder (y : Yard) (site : Site) (bay slot : Nat) (c : Car) (items : List (Nat × Read MenuItem))
    (mode : OrderMode) (lines : List WireLine) (source : OrderSource) : Intake × Yard :=
  let n := y.nextOrder
  let total := totalOf items lines
  let first := firstState mode site.screens[c.screen]
  let o : Order :=
    { number := n, car := c.number, screen := c.screen, mode := mode, state := first, lines := freshLines lines,
      total := total, accepted := site.minute, readyMinute := none, taker := none, carGone := false }
  let y := { y with lastOrder := n }.setOrderSlot slot ((y.orderSlot slot).write o)
  let y := (y.orderMoves lines).modCar c.number fun c => { c with orders := c.orders ++ [n] }
  let y :=
    if first = .held then y.hold c.screen { order := n, stations := stationsOf items lines }
    else y.enqueueLines n o.lines (stationsOf items lines)
  (.accepted n total first, y.raise (.orderIn n c.number bay c.screen mode first total
    (lines.map fun l => (l.item, l.qty)) source))

/-- An intake (R144 to R147): the reads, the checks, then the acceptance of the whole order or none of it. -/
def Yard.intake (y : Yard) (site : Site) (bay : Nat) (mode : OrderMode) (lines : List WireLine)
    (source : OrderSource) : Intake × Yard :=
  match y.readOccupant bay with
  | (r, y) =>
    match y.readItems (itemsOf lines) with
    | (items, y) =>
      match y.intakeFailure site bay r items lines, r.parked, lowestFree y.store.orders TableId.order.size with
      | some (reason, item), _, _ => (.refused reason item, y)
      | none, some c, some slot => y.acceptOrder site bay slot c items mode lines source
      | none, _, _ => (.refused .storeError none, y)

/-- An ORDER record from a post (R148). ORDER_IN is raised before the ACCEPTED lamp is placed (the model's choice, log entry
18). -/
def Yard.postOrder (y : Yard) (site : Site) (bay : Nat) (mode : OrderMode) (lines : List WireLine) : Yard :=
  match y.intake site bay mode lines .post with
  | (.accepted _ _ _, y) => y.placePassing bay lampAccepted
  | (.refused reason item, y) => (y.placePassing bay reason.lamp).raise (.orderRefused bay .post reason item)

/-! ## The post's cancel (R153) -/

/-- Read the item of each line of an order that was found, each item once; the answer tells whether a read met a parity
fault. -/
def Yard.readLineItems (y : Yard) (o : Read Order) : Bool × Yard :=
  match o with
  | .whole o =>
    match y.readItems (o.lines.map Line.item).eraseDups with
    | (rs, y) => (rs.any fun e => e.2.faulty, y)
  | .absent => (false, y)
  | .fault => (false, y)

/-- The first failing check of a post's cancel (R153), passing over those that need a record lost at its read. No check
needs the items' records; one of them lost gives STORE_ERROR where no check fails. -/
def cancelFailure (site : Site) (r : BayReads) (o : Read Order) (itemLost : Bool) : Option Result :=
  if !site.run then some .state
  else if !r.lost && r.parked.isNone then some .notParked
  else if !o.faulty && !r.bay.faulty && (match o.record?, r.bay.record? with
    | some o, some b => decide (b.occupant ≠ some o.car)
    | _, _ => true) then some .noSuch
  else if !o.faulty && (match o.record? with
    | some o => !o.cancellable
    | none => false) then some .inMaking
  else if r.lost || o.faulty || itemLost then some .storeError
  else none

/-- A CANCEL record from a post (R153): every record it needs is read first, as R145 has it; a cancel that passes is
settled by R152 and shows the bay's resting lamp; a refused one shows its refusal and is reported. -/
def Yard.postCancel (y : Yard) (site : Site) (bay order : Nat) : Yard :=
  match y.readOccupant bay with
  | (r, y) =>
    match y.readOrder Yard.drain order with
    | (ro, y) =>
      match y.readLineItems ro with
      | (itemLost, y) =>
        match cancelFailure site r ro itemLost, ro with
        | none, .whole o =>
          let y := y.cancelOrder o .post
          y.placeRestingNow bay (some o.car)
        | some reason, _ => (y.placePassing bay reason.lamp).raise (.cancelRefused bay order reason)
        | none, _ => y

end Sys2Proof.Machine
end

