-- ==== Sys2Proof/Machine/CarTable.lean ====
section
/-! DEFINITION. The Car Table's shared operations: new car numbers and records (R118, R123), check-in (R125, R126), the
car's moves at the lanes (R124), departure (R131), and the site plan (R121). -/

namespace Sys2Proof.Machine

/-! ## New cars (R118, R123) -/

/-- Whether a car number is carried by a car record or named as the car of an order. -/
def Yard.carNumberUsed (y : Yard) (n : Nat) : Bool :=
  (y.findCar n).isSome || (inUse y.store.orders).any fun e => e.2.car == n

/-- The next car number (R118). -/
def Yard.nextCar (y : Yard) : Nat :=
  freshNumber y.carNumberUsed 9998 y.lastCar

/-- A new car record (R99, R123). -/
def newCar (number ticket : Nat) (cls : TicketClass) (sc : ScreenId) (lane : LaneId) (minute : Nat) : Car :=
  { number := number, ticket := ticket, cls := cls, screen := sc, state := .entering, entryLane := lane,
    entryMinute := minute, bay := none, checkin := none, wired := false, orders := [], unchecked := false }

/-- Create a car at an admission in a given free slot (R123): the number is the next one, and the admitted count rises.
-/
def Yard.createCar (y : Yard) (slot ticket : Nat) (cls : TicketClass) (sc : ScreenId) (lane : LaneId)
    (minute : Nat) : Nat × Yard :=
  let n := y.nextCar
  let y := { y with lastCar := n }.setCarSlot slot ((y.carSlot slot).write (newCar n ticket cls sc lane minute))
  (n, y.setAdmitted sc (y.admittedCount[sc] + 1))

/-- Remove a car at a withdrawal (R102, R123): only a record found ENTERING is removed, and the count of the pending
admission's screen falls. A capacity above the open bays stays as it is (the model's choice, log entry 57). -/
def Yard.removeEntering (y : Yard) (car : Nat) (sc : ScreenId) : Yard :=
  match y.readCar Yard.drain car with
  | (.whole c, y) =>
    if c.state = .entering then (y.freeCar car).setAdmitted sc (y.admittedCount[sc] - 1) else y
  | (_, y) => y

/-! ## The car's moves at the lanes (R124) -/

/-- The entry crossing: a record found ENTERING becomes ON_FIELD. The answer tells whether the record was found. -/
def Yard.crossEntry (y : Yard) (car : Nat) : Bool × Yard :=
  match y.readCar Yard.drain car with
  | (.whole c, y) =>
    (true, if c.state = .entering then (y.modCar car fun c => { c with state := .onField }).startLimit car else y)
  | (_, y) => (false, y)

/-- A withdrawal at the exit lane: a car found LEAVING becomes ON_FIELD. -/
def Yard.returnCar (y : Yard) (car : Nat) : Yard :=
  match y.readCar Yard.drain car with
  | (.whole c, y) =>
    if c.state = .leaving then
      ((y.modCar car fun c => { c with state := .onField }).startLimit car).raise
        (.carState car .leaving .onField .exitWithdrawn)
    else y
  | (_, y) => y

/-- Make a car LEAVING (R124). -/
def Yard.makeLeaving (y : Yard) (c : Car) : Yard :=
  ((y.modCar c.number fun c => { c with state := .leaving }).stopLimit c.number).raise
    (.carState c.number c.state .leaving .exitRead)

/-- The exit read of a ticket (R107): the answer is the car made LEAVING, or none for a ticket not found. A PARKED car's
bay is read and released first; a parity fault at that read counts as not found. A parity fault at the record of another
car, met before the record that carries the ticket, does not keep that one from being found (the model's choice, log
entry 49). The released bay's speaker is placed before CAR_STATE is raised (the model's choice, log entry 54). -/
def Yard.exitRead (y : Yard) (ticket : Nat) : Option Nat × Yard :=
  match Yard.searchCars Yard.drain (fun c => c.ticket == ticket) y.carSlotsInUse y with
  | (some c, _, y) =>
    match c.state, c.bay with
    | .onField, _ => (some c.number, y.makeLeaving c)
    | .parked, some bay =>
      match y.readBay Yard.drain bay with
      | (.fault, y) => (none, y)
      | (_, y) => (some c.number, ((y.release c.number bay).placeSpeakersOf Yard.drain [bay]).makeLeaving c)
    | .parked, none => (some c.number, y.makeLeaving c)
    | .entering, _ => (none, y)
    | .leaving, _ => (none, y)
  | (none, _, y) => (none, y)

/-! ## Departure (R131) -/

/-- Step 1 of a departure: a PARKED car is unbound from its bay, whose speaker is placed here, before the car's orders
are handed on (the model's choice, log entry 54). -/
def Yard.departBay (y : Yard) (c : Car) : Yard :=
  match c.parkedBay with
  | some bay =>
    match y.readBay Yard.drain bay with
    | (.fault, y) => y
    | (_, y) => (y.release c.number bay).placeSpeakersOf Yard.drain [bay]
  | none => y

/-- A departure, from the car's record (R131). A parity fault at the record of one of its orders, or of an item of
these, does not stop it (the model's choice, log entry 55). A capacity above the open bays stays as it is (the model's
choice, log entry 57). -/
def Yard.depart (y : Yard) (c : Car) (cause : DepartCause) : Yard :=
  let y := c.orders.foldl Yard.departedOrder (y.departBay c)
  let y := y.setAdmitted c.screen (y.admittedCount[c.screen] - 1)
  ((y.stopLimit c.number).freeCar c.number).raise (.departed c.number (some c.ticket) (some c.screen) cause)

/-- The exit crossing of a lane's pending car (R110): a record still LEAVING departs. -/
def Yard.crossExit (y : Yard) (car : Nat) : Yard :=
  match y.readCar Yard.drain car with
  | (.whole c, y) => if c.state = .leaving then y.depart c .exit else y
  | (_, y) => y

/-! ## Check-in (R125, R126) -/

/-- What a check-in has read: the car, the bay, and whether a further read met a parity fault. -/
structure CheckinReads where
  car : Read Car
  bay : Read Bay
  otherLost : Bool
deriving DecidableEq, Repr

/-- The bay a PARKED car would leave for another. -/
def Car.oldBay (c : Car) (bay : Nat) : Option Nat :=
  match c.parkedBay with
  | some b => if b = bay then none else some b
  | none => none

/-- The occupant of a bay that is not the given car. -/
def Bay.otherOccupant (b : Bay) (car : Nat) : Option Nat :=
  match b.occupant with
  | some o => if o = car then none else some o
  | none => none

/-- The reads of a check-in, made before it changes anything (R125). The bay and its occupant are read also for a
check-in that STATE or BADCODE refuses; only the car of an invalid code is not (the model's choice, log entry 50). -/
def Yard.checkinReads (y : Yard) (bay code : Nat) : CheckinReads × Yard :=
  let n := codeCar code
  let rc : Read Car × Yard := if codeValid code then y.readCar Yard.drain n else (.absent, y)
  let rb := rc.2.readBay Yard.drain bay
  let ro : Bool × Yard :=
    match rb.1.record?.bind fun b => b.otherOccupant n with
    | some o => ((rb.2.readCar Yard.drain o).1.faulty, (rb.2.readCar Yard.drain o).2)
    | none => (false, rb.2)
  match rc.1.record?.bind fun c => c.oldBay bay with
  | some old =>
    ({ car := rc.1, bay := rb.1, otherLost := ro.1 || (ro.2.readBay Yard.drain old).1.faulty },
      (ro.2.readBay Yard.drain old).2)
  | none => ({ car := rc.1, bay := rb.1, otherLost := ro.1 }, ro.2)

/-- Whether a car's record is one that can check in: ON_FIELD or PARKED. -/
def Car.present (c : Car) : Bool :=
  decide (c.state = .onField) || decide (c.state = .parked)

/-- The first failing check of a check-in (R125), passing over those that need a record lost at its read. -/
def checkinFailure (site : Site) (bay code : Nat) (r : CheckinReads) : Option Result :=
  if !site.run then some .state
  else if !codeValid code then some .badCode
  else if !r.car.faulty && (match r.car.record? with
    | some c => !c.present
    | none => true) then some .noSuch
  else if (match r.car.record? with
    | some c => decide (c.screen ≠ bayLoop bay)
    | none => false) then some .wrongField
  else if !r.bay.faulty && r.bay.record?.isNone then some .closed
  else if r.car.faulty || r.bay.faulty || r.otherLost then some .storeError
  else none

/-- Two bays in rising order. -/
def risingBays (bay : Nat) : Option Nat → List Nat
  | none => [bay]
  | some old => if old < bay then [old, bay] else [bay, old]

/-- The binding of a car to a bay (R126). The marked speakers are placed at step 5, before the lamp (the model's choice,
log entry 54). -/
def Yard.bind (y : Yard) (site : Site) (c : Car) (bay : Nat) (displaced : Option Nat) (wish : Bool) : Yard :=
  let old := c.oldBay bay
  let y := match displaced with
    | some d => y.unbindToField d bay .displaced
    | none => y
  let y := match old with
    | some b => y.release c.number b
    | none => y
  let y := y.modBay bay fun b => { b with occupant := some c.number }
  let y := (y.modCar c.number fun c => { c with
    bay := some bay, state := .parked, checkin := some site.minute, wired := wish }).stopLimit c.number
  match y.bindChange c.number (some bay) with
  | (ready, y) =>
    let y := (y.setSpeaker bay wish).placeSpeakersOf Yard.drain (risingBays bay old)
    let y := (y.placeLamp .ct bay (if 0 < ready then lampReady else lampAccepted)).2
    y.raise (.checkin c.number bay old displaced wish)

/-- A CHECKIN record from a post (R125, R126). -/
def Yard.checkin (y : Yard) (site : Site) (bay code : Nat) (wish : Bool) : Yard :=
  match y.checkinReads bay code with
  | (r, y) =>
    match checkinFailure site bay code r, r.car, r.bay with
    | none, .whole c, .whole b => y.bind site c bay (b.otherOccupant c.number) wish
    | some reason, _, _ => ((y.placeLamp .ct bay reason.lamp).2).raise (.checkinRefused bay code reason)
    | none, _, _ => y

/-! ## Site plan (R121) -/

/-- Open a bay: a closed bay opens empty with its speaker OFF; one whose slot is out of use stays closed. The answer
tells whether the bay is left closed. -/
def Yard.openBay (y : Yard) (bay : Nat) : Bool × Yard :=
  if (y.baySlot bay).isOut then (true, y)
  else if (y.baySlot bay).isFree then
    (false, y.setBaySlot bay ((y.baySlot bay).write { occupant := none, speaker := false }))
  else (false, y)

/-- Close a bay: an occupant is unbound first, and the bay's record is freed. -/
def Yard.closeBay (y : Yard) (bay : Nat) : Yard :=
  match y.readBay Yard.drain bay with
  | (.whole b, y) =>
    let y := match b.occupant with
      | some car =>
        match y.readCar Yard.drain car with
        | (.whole _, y) => y.unbindToField car bay .bayClosed
        | (_, y) => y
      | none => y
    if (y.bay? bay).isSome then y.setBaySlot bay (y.baySlot bay).release else y
  | (_, y) => y

/-- Set the bays of a plan in rising order, openings and closings mixed (the model's choice, log entry 54); the answer
is the bays left closed. -/
def Yard.setBays (y : Yard) : List (Nat × Bool) → List Nat × Yard
  | [] => ([], y)
  | (bay, true) :: rest =>
    match y.openBay bay with
    | (left, y) =>
      match y.setBays rest with
      | (l, y) => (if left then bay :: l else l, y)
  | (bay, false) :: rest => (y.closeBay bay).setBays rest

/-- A site plan for a screen's field (R121): the bays, then the capacity (R122), then the speakers of every marked bay
of the field, also of one that an earlier event marked (the model's choice, log entry 54). -/
def Yard.sitePlan (y : Yard) (sc : ScreenId) (plan : List Bool) : List Nat × Yard :=
  match y.setBays ((fieldBays sc).zip plan) with
  | (left, y) => (left, (y.checkCapacity sc).placeSpeakersOf Yard.drain (fieldBays sc))

/-! ## The check-in limit (R130) -/

/-- A car's check-in limit expires. -/
def Yard.limitExpired (y : Yard) (car : Nat) : Yard :=
  match Tab.get none y.limits car with
  | none => y
  | some _ =>
    match (y.stopLimit car).readCar Yard.drain car with
    | (.whole c, y) =>
      if c.state = .onField ∧ c.unchecked = false then
        (y.modCar car fun c => { c with unchecked := true }).raise (.unchecked car c.screen c.entryMinute)
      else y
    | (_, y) => y

end Sys2Proof.Machine
end

