-- ==== Sys2Proof/Machine/LoopPoller.lean ====
section
/-! DEFINITION. The Loop Poller's shared operations on one loop: the frames of the line (spec/03, The loop frame), the
choice of the next transaction (R73, R74), the outcome of a transaction (R67 to R71, R77), keypad records (R80 to R83),
lending (R84 to R86), and the post map (R72). The four loops share nothing, so each operation names its loop. -/

namespace Sys2Proof.Machine

/-! ## Headers (R65) -/

/-- The function byte of a header. -/
def LoopFn.byte : LoopFn → Byte
  | .poll => 0x01#8
  | .send => 0x02#8
  | .probe => 0x03#8

/-- The KIND byte of a payload. -/
def SlotKind.byte : SlotKind → Byte
  | .lamps => 0x01#8
  | .speakers => 0x02#8

/-- The ENABLES byte: 1 for side 0, 2 for side 1, 3 for both. -/
def OutSlot.enables (sl : OutSlot) : Nat :=
  (if sl.v0.isSome then 1 else 0) + (if sl.v1.isSome then 2 else 0)

/-- The PAYLOAD of a SEND: a side not enabled is sent with the value 0x00. -/
def OutSlot.payload (sl : OutSlot) : List Byte :=
  [sl.kind.byte] ++ u8 sl.enables ++ u8 (sl.v0.getD 0) ++ u8 (sl.v1.getD 0)

/-- The ACK byte: the last accepted sequence of the post, or 0xFF for none. -/
def Post.ack (p : Post) : Byte :=
  match p.lastSeq with
  | some n => BitVec.ofNat 8 n
  | none => 0xFF#8

/-- A header as it goes out on the line. -/
def headerBytes (post : Nat) (fn : LoopFn) (ack : Byte) (payload : List Byte) : List Byte :=
  let inner := u8 post ++ [fn.byte, ack] ++ payload
  0x3C#8 :: (inner ++ [crc8 inner])

/-- A fresh transaction, its header being sent. -/
def LoopRec.freshTransaction (l : LoopRec) (post : Nat) (fn : LoopFn) (slot : Option (Fin 16)) : Transaction :=
  let payload := match slot with
    | some i => (l.slots[i]).payload
    | none => []
  { post := post, fn := fn, slot := slot, waits := 0, agains := 0,
    header := headerBytes post fn (l.post post).ack payload, window := .sending }

/-! ## Choosing the next transaction (R73, R74) -/

/-- The lowest-numbered post whose probe is due. -/
def LoopRec.probeDuePost (l : LoopRec) : Option Nat :=
  firstFrom (fun p => (l.post p).probeDue) 128 0

/-- Whether one slot is chosen before another: the higher priority, the older of one priority (R73). -/
def OutSlot.before (a b : OutSlot) : Bool :=
  decide (b.prio < a.prio) || (decide (a.prio = b.prio) && decide (a.age < b.age))

/-- The PENDING slot a SEND would take. -/
def LoopRec.sendSlot? (l : LoopRec) : Option (Fin 16) :=
  slotNumbers.foldl (fun best i =>
    if (l.slots[i]).use = .pending then
      match best with
      | none => some i
      | some j => if (l.slots[i]).before l.slots[j] then some i else some j
    else best) none

/-- The search of the polling round (R74): from the cursor upward, at most four times round, DOUBTFUL posts that are
reached and not taken having their turn counts raised. -/
def LoopRec.pollSearch : Nat → Nat → LoopRec → Option Nat × LoopRec
  | 0, _, l => (none, l)
  | n + 1, p, l =>
    let e := l.post p
    let next := (p + 1) % 128
    if e.present && decide (e.conf = .heard) then (some p, l)
    else if e.present && decide (e.conf = .doubtful) then
      if e.turn = 3 then (some p, l.setPost p { e with turn := 0 })
      else LoopRec.pollSearch n next (l.setPost p { e with turn := e.turn + 1 })
    else LoopRec.pollSearch n next l

/-- Start the SEND of a slot: it becomes IN_FLIGHT and the run of SENDs rises. -/
def LoopRec.startSend (l : LoopRec) (i : Fin 16) : LoopRec :=
  let t := l.freshTransaction (l.slots[i]).post .send (some i)
  { l.setSlot i { l.slots[i] with use := .inFlight } with current := some t, sendRun := l.sendRun + 1 }

/-- Start a POLL or a PROBE: the run of SENDs returns to 0. -/
def LoopRec.startPost (l : LoopRec) (p : Nat) (fn : LoopFn) : LoopRec :=
  { l with current := some (l.freshTransaction p fn none), sendRun := 0 }

/-- Start the POLL of the next post in the round, or, with none eligible, the SEND the run of four kept waiting. -/
def LoopRec.startPoll (l : LoopRec) : LoopRec :=
  match LoopRec.pollSearch 512 l.cursor l with
  | (some p, l) => { l with cursor := (p + 1) % 128 }.startPost p .poll
  | (none, l) =>
    match l.sendSlot? with
    | some i => l.startSend i
    | none => l

/-- What the poller starts at a choice point in POLLING (R73). -/
def LoopRec.choose (l : LoopRec) : LoopRec :=
  match l.repeatDue, l.probeDuePost, l.sendSlot? with
  | some r, _, _ =>
    { l with
      repeatDue := none
      current := some { post := r.post, fn := r.fn, slot := r.slot, waits := 0, agains := r.agains,
                        header := r.header, window := .sending } }
  | none, some p, _ => (l.setPost p { l.post p with probeDue := false }).startPost p .probe
  | none, none, some i => if l.sendRun < 4 then l.startSend i else l.startPoll
  | none, none, none => l.startPoll

/-- A choice point: nothing starts outside POLLING or over a transaction in flight. -/
def LoopRec.start (l : LoopRec) : LoopRec :=
  if l.owner = .polling ∧ l.current.isNone then l.choose else l

/-- The last byte of the header has been sent: the window opens with the setting's length (R65, R66). -/
def LoopRec.openWindow (l : LoopRec) : LoopRec :=
  match l.current with
  | some t =>
    if t.window = .sending then
      { l with current := some { t with
          window := .listening l.windowSetting (if l.windowSetting = 0 then none else some l.windowSetting) } }
    else l
  | none => l

/-! ## Responses (R66, R67) -/

/-- The statuses of a response. -/
inductive Status where
  | done | again | wait | fault
deriving DecidableEq, Repr

/-- The status a STATUS byte names. -/
def Status.of : Nat → Option Status
  | 0 => some .done
  | 1 => some .again
  | 2 => some .wait
  | 3 => some .fault
  | _ => none

/-- A response received whole: its ADDRESS, STATUS byte, record bytes, and whether its CHECK matches. -/
structure Response where
  address : Nat
  status : Nat
  record : List Byte
  checked : Bool
deriving DecidableEq, Repr

/-- The response among the bytes that arrived: those before a SYNC are dropped, and a response that is not complete has
not been received (R66). -/
def responseOf (bytes : List Byte) : Option Response :=
  match bytes.dropWhile fun b => b != 0xC3#8 with
  | _ :: address :: status :: rlen :: rest =>
    if rlen.toNat < rest.length then
      let inner := address :: status :: rlen :: rest.take rlen.toNat
      some { address := address.toNat, status := status.toNat, record := rest.take rlen.toNat,
             checked := decide ((rest.getD rlen.toNat 0) = crc8 inner) }
    else none
  | _ => none

/-- A valid response's status (R66): the check matches, the address is the one expected, the status is one of the four,
and a record of 3 to 21 bytes comes only with DONE. -/
def Response.valid (r : Response) (address : Nat) : Option Status :=
  match Status.of r.status with
  | some st =>
    if r.checked && decide (r.address = address) &&
        (r.record.isEmpty || (decide (3 ≤ r.record.length) && decide (r.record.length ≤ 21) && decide (st = .done)))
    then some st else none
  | none => none

/-! ## Keypad records (R80 to R83) -/

/-- A record that passed its form check (R81). -/
inductive KeyRecord where
  | checkin (side code : Nat) (wish : Bool)
  | order (side : Nat) (mode : OrderMode) (lines : List WireLine)
  | cancel (side order : Nat)
  | help (side : Nat)
deriving DecidableEq, Repr

/-- The side a record names. -/
def KeyRecord.side : KeyRecord → Nat
  | .checkin s _ _ => s
  | .order s _ _ => s
  | .cancel s _ => s
  | .help s => s

/-- The item and quantity pairs of an ORDER record. -/
def linePairs : List Byte → List WireLine
  | i :: q :: rest => { item := i.toNat, qty := q.toNat } :: linePairs rest
  | _ => []

/-- Whether a keyed line lies in the record table's ranges. -/
def WireLine.keyed (l : WireLine) : Bool :=
  decide (l.item ≤ 63) && decide (1 ≤ l.qty) && decide (l.qty ≤ 9)

/-- The form check of a record, from TYPE on (R81). -/
def formOf (bytes : List Byte) : Option KeyRecord :=
  match bytes with
  | type :: side :: fields =>
    if 1 < side.toNat then none
    else
      match type.toNat, fields with
      | 0x01, [c2, c1, c0, wish] =>
        let code := c2.toNat * 65536 + getU16 c1 c0
        if code ≤ 999999 then (flagOf wish.toNat).map fun w => .checkin side.toNat code w else none
      | 0x02, mode :: count :: pairs =>
        let lines := linePairs pairs
        if 1 ≤ count.toNat ∧ count.toNat ≤ 8 ∧ pairs.length = 2 * count.toNat ∧ lines.all WireLine.keyed then
          (OrderMode.of mode.toNat).map fun m => .order side.toNat m lines
        else none
      | 0x03, [hi, lo] =>
        if 1 ≤ getU16 hi lo ∧ getU16 hi lo ≤ 9999 then some (.cancel side.toNat (getU16 hi lo)) else none
      | 0x04, [] => some (.help side.toNat)
      | _, _ => none
  | _ => none

/-- The delivery of a record from a post (R82). -/
def Yard.deliver (y : Yard) (site : Site) (lp : ScreenId) (post : Nat) (rec : KeyRecord) : Yard :=
  let bay := postBay lp post rec.side
  match rec with
  | .checkin _ code wish => y.checkin site bay code wish
  | .order _ mode lines => y.postOrder site bay mode lines
  | .cancel _ order => y.postCancel site bay order
  | .help side => y.raise (.helpCall lp post side bay)

/-- A bad record is counted (R81). -/
def LoopRec.countBad (l : LoopRec) : LoopRec :=
  { l with badRecords := satInc l.badRecords }

/-- A record of a valid DONE response is judged, checked for form, marked in the row activity set and delivered (R80 to
R83). -/
def Yard.takeRecord (y : Yard) (site : Site) (lp : ScreenId) (post : Nat) (bytes : List Byte) : Yard :=
  match bytes with
  | [] => y
  | seq :: rest =>
    if 1 < seq.toNat then y.modLoop lp LoopRec.countBad
    else if ((y.loops[lp]).post post).lastSeq = some seq.toNat then
      y.modLoop lp fun l => { l with repeats := satInc l.repeats }
    else
      let y := y.modLoop lp fun l => l.setPost post { l.post post with lastSeq := some seq.toNat }
      match formOf rest with
      | none => y.modLoop lp LoopRec.countBad
      | some rec =>
        (y.modLoop lp fun l => { l with rows := Tab.put false l.rows (postRow lp post) true }).deliver site lp post rec

/-! ## Outcomes (R69 to R71, R77) -/

/-- How a transaction ends. -/
inductive Ending where
  | good | error
deriving DecidableEq, Repr

/-- The recovery interval of a dropped post, fixed at 10 s (R71). -/
def recoveryTime : Nat := 10000

/-- Copy a delivered slot's enabled sides into the post's entry (R77). -/
def Post.deliver (p : Post) (sl : OutSlot) : Post :=
  match sl.kind with
  | .lamps => { p with lamp0 := sl.v0.getD p.lamp0, lamp1 := sl.v1.getD p.lamp1 }
  | .speakers => { p with
      spk0 := match sl.v0 with
        | some v => decide (v = 1)
        | none => p.spk0
      spk1 := match sl.v1 with
        | some v => decide (v = 1)
        | none => p.spk1 }

/-- The outcome of a SEND on its slot (R77): good frees it, an error retries it, a third failure or a post now ABSENT
completes it UNDELIVERED (R72). The post's presence is looked at as the SEND ends (the model's choice, log entry 47), and the
slot's report is raised before a resend request goes out for it (the model's choice, log entry 18). -/
def Yard.sendOutcome (y : Yard) (lp : ScreenId) (i : Fin 16) (e : Ending) : Yard :=
  let l := y.loops[lp]
  let sl := l.slots[i]
  match e with
  | .good =>
    let y := y.modLoop lp fun l => (l.setPost sl.post ((l.post sl.post).deliver sl)).setSlot i OutSlot.empty
    (if sl.origin = .host then y.raise (.sendDone lp i) else y).afterFree Yard.drain lp
  | .error =>
    if !(l.post sl.post).present || decide (2 ≤ sl.fails) then (y.completeUndelivered lp i).afterFree Yard.drain lp
    else y.modLoop lp fun l => l.setSlot i { sl with use := .pending, fails := sl.fails + 1 }

/-- Complete UNDELIVERED every PENDING slot for a post (R72, R77), in rising order of slot (the model's choice, log
entry 18). -/
def Yard.dropSlots (y : Yard) (lp : ScreenId) (post : Nat) : Yard :=
  slotNumbers.foldl (fun y i =>
    let sl := (y.loops[lp]).slots[i]
    if sl.use = .pending ∧ sl.post = post then (y.completeUndelivered lp i).afterFree Yard.drain lp else y) y

/-- The confinement state an error count gives (R70). -/
def confinementOf (conf : Confinement) (errors : Nat) : Confinement :=
  match conf with
  | .dropped => .dropped
  | .heard => if 192 ≤ errors then .dropped else if 96 ≤ errors then .doubtful else .heard
  | .doubtful => if 192 ≤ errors then .dropped else if errors < 96 then .heard else .doubtful

/-- Charge or credit a PRESENT post and follow its confinement (R69, R70); a post that becomes DROPPED loses its PENDING
slots (R77), POST_STATE being raised before their SEND_UNDELIVERED (the model's choice, log entry 18). -/
def Yard.countOutcome (y : Yard) (lp : ScreenId) (post : Nat) (e : Ending) : Yard :=
  let p := (y.loops[lp]).post post
  if p.present then
    let errors := match e with
      | .good => p.errors - 1
      | .error => satAdd255 8 p.errors
    let conf := confinementOf p.conf errors
    let newly := decide (p.conf ≠ .dropped) && decide (conf = .dropped)
    let y := y.modLoop lp fun l => l.setPost post { p with
      errors := errors, conf := conf, recovery := if newly then some recoveryTime else p.recovery }
    let y := if p.conf ≠ conf then y.raise (.postState lp post p.conf conf errors) else y
    if newly then y.dropSlots lp post else y
  else y

/-- The entry of a post that a probe has brought back (R71). -/
def Post.recovered (p : Post) : Post :=
  { p with errors := 0, conf := .heard, lamp0 := 0, lamp1 := 0, spk0 := false, spk1 := false }

/-- The outcome of a probe of a DROPPED post (R71). -/
def Yard.probeOutcome (y : Yard) (lp : ScreenId) (post : Nat) (e : Ending) : Yard :=
  let p := (y.loops[lp]).post post
  match e with
  | .good =>
    ((y.modLoop lp fun l => l.setPost post p.recovered).raise (.postState lp post .dropped .heard 0)).resendPost
      Yard.drain lp post
  | .error =>
    y.modLoop lp fun l => l.setPost post { p with
      errors := satAdd255 8 p.errors, recovery := some recoveryTime }

/-- In YIELDING, with no transaction in flight, the grant line is raised and the loop goes to LENT (R84). -/
def Yard.grantLoan (y : Yard) (lp : ScreenId) : Yard :=
  if (y.loops[lp]).owner = .yielding ∧ (y.loops[lp]).current.isNone then
    (y.modLoop lp fun l => { l with owner := .lent, grant := true, lendTimer := loadSeconds l.lendSetting }).raise
      (.lendStart lp)
  else y

/-- The end of a transaction: its slot, its post's count, its record, and a loan that waited for it. A PROBE whose post
is no longer a PRESENT and DROPPED one as it ends, POST MAP having changed its presence meanwhile, ends as any
transaction of that post does: no copies are cleared and no resend is asked for (the model's choice, log entry 47). The
record is taken after the slot's outcome and the post's count, with all that these report or send again, and the grant
is raised last (both the model's choice, log entry 18). -/
def Yard.endTransaction (y : Yard) (site : Site) (lp : ScreenId) (t : Transaction) (e : Ending)
    (record : List Byte) : Yard :=
  let y := y.modLoop lp fun l => { l with current := none }
  let y : Yard := match t.slot with
    | some i => y.sendOutcome lp i e
    | none => y
  let y : Yard := match e with
    | .good => y
    | .error => y.modLoop lp fun l => { l with errors := satInc l.errors }
  let p : Post := (y.loops[lp]).post t.post
  let y :=
    if t.fn = .probe ∧ p.present ∧ p.conf = .dropped then y.probeOutcome lp t.post e
    else y.countOutcome lp t.post e
  (y.takeRecord site lp t.post record).grantLoan lp

/-- A SEND slot that waits on an abandoned repeat returns to PENDING with its failures unchanged (R84). -/
def LoopRec.dropRepeat (l : LoopRec) (slot : Option (Fin 16)) : LoopRec :=
  match slot with
  | some i => { l.setSlot i { l.slots[i] with use := .pending } with repeatDue := none }
  | none => { l with repeatDue := none }

/-- An AGAIN (R67): the fifth in a run is an error; another asks for a repeat, abandoned in YIELDING (R84). -/
def Yard.takeAgain (y : Yard) (site : Site) (lp : ScreenId) (t : Transaction) : Yard :=
  if 4 ≤ t.agains then y.endTransaction site lp t .error []
  else
    let y := y.modLoop lp fun l => { l with current := none }
    if (y.loops[lp]).owner = .yielding then (y.modLoop lp fun l => l.dropRepeat t.slot).grantLoan lp
    else y.modLoop lp fun l => { l with
      repeatDue := some { post := t.post, fn := t.fn, slot := t.slot, agains := t.agains + 1, header := t.header } }

/-- A WAIT (R67): the window opens afresh with the length it had; the third is an error. A WAIT does not end its
transaction and is taken as no outcome of it, so that a WAIT on a repeat leaves the run of AGAINs as it stands (the
model's choice, log entry 46). -/
def Yard.takeWait (y : Yard) (site : Site) (lp : ScreenId) (t : Transaction) (length : Nat) : Yard :=
  if 2 ≤ t.waits then y.endTransaction site lp t .error []
  else y.modLoop lp fun l => { l with current := some { t with
    waits := t.waits + 1, window := .listening length (if length = 0 then none else some length) } }

/-- A response received in the window (R66, R67). -/
def Yard.takeResponse (y : Yard) (site : Site) (lp : ScreenId) (bytes : List Byte) : Yard :=
  match (y.loops[lp]).current with
  | none => y
  | some t =>
    match t.window, responseOf bytes with
    | .listening length _, some r =>
      match r.valid t.post with
      | some .done => y.endTransaction site lp t .good r.record
      | some .again => y.takeAgain site lp t
      | some .wait => y.takeWait site lp t length
      | some .fault => y.endTransaction site lp t .error []
      | none => y.endTransaction site lp t .error []
    | _, _ => y

/-- The response window expires (R66). -/
def Yard.windowExpired (y : Yard) (site : Site) (lp : ScreenId) : Yard :=
  match (y.loops[lp]).current with
  | some t =>
    match t.window with
    | .listening _ (some _) => y.endTransaction site lp t .error []
    | .listening _ none => y
    | .sending => y
  | none => y

/-- A post's recovery timer expires: its probe is due (R71). -/
def LoopRec.recoveryExpired (l : LoopRec) (post : Nat) : LoopRec :=
  if (l.post post).recovery.isSome then l.setPost post { l.post post with recovery := none, probeDue := true } else l

/-! ## Lending (R84 to R86) -/

/-- The request line rises (R84). -/
def Yard.requestRises (y : Yard) (lp : ScreenId) : Yard :=
  let l := y.loops[lp]
  if l.request then y
  else
    let y := y.modLoop lp fun l => { l with request := true }
    if !l.lendAllowed then y.raise (.lendRefused lp)
    else if l.owner = .polling then
      let y := y.modLoop lp fun l => { l with owner := .yielding }
      let y := match l.repeatDue with
        | some r => y.modLoop lp fun l => l.dropRepeat r.slot
        | none => y
      y.grantLoan lp
    else y

/-- The loop comes back from a loan (R86); LEND_END is raised before the resend request is taken (the model's choice,
log entry 18). -/
def Yard.endLoan (y : Yard) (lp : ScreenId) : Yard :=
  ((y.modLoop lp fun l => { l with owner := .polling, grant := false, lendTimer := none }).raise
    (.lendEnd lp)).resendLoop Yard.drain lp

/-- The request line falls (R84, R86). -/
def Yard.requestFalls (y : Yard) (lp : ScreenId) : Yard :=
  let l := y.loops[lp]
  if !l.request then y
  else
    let y := y.modLoop lp fun l => { l with request := false }
    match l.owner with
    | .polling => y
    | .yielding => y.modLoop lp fun l => { l with owner := .polling }
    | .lent => y.endLoan lp
    | .reclaiming => y.endLoan lp

/-- The lend timer expires (R86). -/
def Yard.lendExpired (y : Yard) (lp : ScreenId) : Yard :=
  let l := y.loops[lp]
  if l.owner = .lent ∧ l.lendTimer.isSome then
    (y.modLoop lp fun l => { l with owner := .reclaiming, grant := false, lendTimer := none }).raise (.lendOverrun lp)
  else y

/-- A response heard during a loan (R85). -/
def Yard.hear (y : Yard) (site : Site) (lp : ScreenId) (bytes : List Byte) : Yard :=
  let l := y.loops[lp]
  if l.owner = .lent ∨ l.owner = .reclaiming then
    match responseOf bytes with
    | some r =>
      if r.address ≤ 127 ∧ r.valid r.address = some .done then y.takeRecord site lp r.address r.record else y
    | none => y
  else y

/-! ## Post map (R72) and loop reset (R89) -/

/-- Set the presence of one post (R72). -/
def Yard.setPresence (y : Yard) (lp : ScreenId) (post : Nat) (present : Bool) : Yard :=
  let p := (y.loops[lp]).post post
  if p.present = present then y
  else if present then
    y.modLoop lp fun l => l.setPost post { p with
      present := true, errors := 0, conf := .heard, turn := 0, lamp0 := 0, lamp1 := 0, spk0 := false, spk1 := false,
      lastSeq := none }
  else
    (y.modLoop lp fun l => l.setPost post { p with
      present := false, errors := 0, conf := .heard, recovery := none, probeDue := false }).dropSlots lp post

/-- Set the presences of a loop's posts, in rising order. -/
def Yard.postMap (y : Yard) (lp : ScreenId) (presence : List Bool) : Yard :=
  presence.zipIdx.foldl (fun y e => y.setPresence lp e.2 e.1) y

/-- A post's entry after a loop reset (R89). -/
def Post.loopReset (p : Post) : Post :=
  if p.present then
    { p with errors := 0, conf := .heard, turn := 0, lastSeq := none, recovery := none, probeDue := false }
  else { p with probeDue := false }

/-- A loop's record after a loop reset (R89). -/
def LoopRec.loopReset (l : LoopRec) : LoopRec :=
  { l with
    posts := Tab.mapEntries Post.reset (fun _ => Post.loopReset) l.posts
    slots := Vector.replicate 16 OutSlot.empty
    overflow := false
    current := none
    repeatDue := none
    grant := false
    lendTimer := none
    owner := .polling
    cursor := 0
    sendRun := 0
    rows := []
    errors := 0
    repeats := 0
    badRecords := 0
    undelivered := 0 }

/-- A loop after a device reset or power-on (R90): the request line stands as it is. The turn count and the last
accepted sequence are cleared in every entry, also in one that was ABSENT before, for which R89 and R90 name neither
(the model's choice, log entry 48). -/
def LoopRec.deviceReset (l : LoopRec) : LoopRec :=
  { LoopRec.reset with request := l.request }

end Sys2Proof.Machine
end

