-- ==== Sys2Proof/Machine/SoundPath.lean ====
section
/-! DEFINITION. The Sound Path Unit's operations on one screen's sound path (R35 to R64). The unit shares nothing with
the other blocks but the notices it is sent and the reports it raises, so each operation takes one sound path and lists
the reports it raises, in order. -/

namespace Sys2Proof.Machine

/-- One screen's sound path in the course of a step, with the reports raised so far. -/
structure SoundRun where
  id : ScreenId
  sd : Sound
  out : List Report
deriving DecidableEq, Repr

/-- Raise a report. -/
def SoundRun.raise (w : SoundRun) (r : Report) : SoundRun :=
  { w with out := w.out ++ [r] }

/-- Change the sound path. -/
def SoundRun.mod (w : SoundRun) (f : Sound → Sound) : SoundRun :=
  { w with sd := f w.sd }

/-- Change the servo record. -/
def SoundRun.modServo (w : SoundRun) (f : Servo → Servo) : SoundRun :=
  { w with sd := { w.sd with servo := f w.sd.servo } }

/-! ## The rings (R37 to R39) -/

/-- What the rings do with a block. -/
inductive Verdict where
  | late | early | store
deriving DecidableEq, Repr

/-- The judgement of R37: `dist` is the distance of a block number ahead of playout, `held` the tag in the slot. -/
def judge (dist : Nat → Int) (held : Option Nat) (b : Nat) : Verdict :=
  if dist b < 0 then .late
  else
    match held with
    | some t => if 0 ≤ dist t ∧ dist t < dist b then .early else .store
    | none => .store

/-- The block in a slot of the programme ring. -/
def Sound.progSlot (sd : Sound) (i : Nat) : Option Block :=
  Tab.get none sd.prog i

/-- The block in a slot of the break ring. -/
def Sound.brkSlot (sd : Sound) (i : Nat) : Option Block :=
  Tab.get none sd.brk i

/-- The block now playing: c = P div 256 (R37). -/
def Servo.block (v : Servo) : Nat :=
  v.p.toNat / 256

/-- A PROGRAMME block that passed its checks (R37). -/
def Sound.takeProgramme (sd : Sound) (b : Block) : Sound :=
  let i := b.tag % 64
  match judge (fun x => dist24 x sd.servo.block) ((sd.progSlot i).map Block.tag) b.tag with
  | .late => { sd with late := satInc sd.late }
  | .early => { sd with early := satInc sd.early }
  | .store => { sd with prog := Tab.put none sd.prog i (some b) }

/-- A BREAK block that passed its checks (R39). -/
def Sound.takeBreak (sd : Sound) (b : Block) : Sound :=
  let i := b.tag % 16
  match sd.cursor with
  | none => { sd with brk := Tab.put none sd.brk i (some b), cursor := some (b.tag, 0) }
  | some (k, _) =>
    match judge (fun x => dist16 x k) ((sd.brkSlot i).map Block.tag) b.tag with
    | .late => { sd with late := satInc sd.late }
    | .early => { sd with early := satInc sd.early }
    | .store => { sd with brk := Tab.put none sd.brk i (some b) }

/-! ## The link receiver (R35, R36) -/

/-- A two's complement sample, most significant byte first. -/
def sampleOf (hi lo : Byte) : Int :=
  (hi ++ lo).toInt

/-- The stereo frames of a SAMPLES field. -/
def framesOf : List Byte → List Stereo
  | lh :: ll :: rh :: rl :: rest => (sampleOf lh ll, sampleOf rh rl) :: framesOf rest
  | _ => []

/-- A complete block of 1,032 bytes: checked, then given to the ring of its kind, or discarded with a count (R36). -/
def Sound.takeBlock (sd : Sound) (bytes : List Byte) : Sound :=
  match bytes with
  | _ :: kind :: s3 :: s2 :: s1 :: s0 :: rest =>
    let upper := getU16 s3 s2
    let lower := getU16 s1 s0
    let start := upper * 65536 + lower
    let frames := framesOf (rest.take 1024)
    let sound := decide (crc16 ((bytes.drop 1).take 1029) =
      BitVec.ofNat 16 (getU16 ((rest.drop 1024).headD 0) ((rest.drop 1025).headD 0)))
    if sound && decide (kind = 0x01#8) && decide (start % 256 = 0) then
      sd.takeProgramme { tag := start / 256, frames := frames }
    else if sound && decide (kind = 0x02#8) && decide (upper = 0) then
      sd.takeBreak { tag := lower, frames := frames }
    else { sd with linkErrors := satInc sd.linkErrors }
  | _ => { sd with linkErrors := satInc sd.linkErrors }

/-- A byte arrives (R35). -/
def Sound.takeByte (sd : Sound) (b : Byte) : Sound :=
  match sd.rx with
  | none => if b = 0x5A#8 then { sd with rx := some [b] } else sd
  | some got =>
    let got := got ++ [b]
    if got.length < 1032 then { sd with rx := some got } else ({ sd with rx := none } : Sound).takeBlock got

/-- A gap of more than 1 ms ends a block short (R35). The byte that ended the gap arrives next, as a byte of its own. -/
def Sound.takeGap (sd : Sound) : Sound :=
  match sd.rx with
  | none => sd
  | some _ => { sd with rx := none, linkErrors := satInc sd.linkErrors }

/-! ## Underrun gaps (R52) -/

/-- Close an open underrun gap: it is reported once and counted. -/
def SoundRun.closeGap (w : SoundRun) : SoundRun :=
  match w.sd.servo.gap with
  | none => w
  | some (start, n) =>
    ((w.modServo fun v => { v with gap := none }).mod fun sd => { sd with underruns := satInc sd.underruns }).raise
      (.underrun w.id start n)

/-! ## Source changes (R55 to R57) -/

/-- The servo as the source changes away from PROGRAMME: its timers stop and it keeps its values (R49). -/
def Servo.freeze (v : Servo) : Servo :=
  { v with coastGap := none, coastLimit := none }

/-- A countdown in milliseconds; a setting of 0 disables it. -/
def loadMs (n : Nat) : Option Nat :=
  if n = 0 then none else some n

/-- The servo as the source changes to PROGRAMME (R49). -/
def Servo.pickUp (v : Servo) : Servo :=
  match v.state with
  | .silent => { v with state := .capture }
  | .capture => v
  | .track => { v with coastGap := some 250 }
  | .locked => { v with coastGap := some 250 }
  | .coast => { v with coastLimit := loadMs v.settings.coastLimit }

/-- The old source's part of a switch (R56). -/
def SoundRun.leaveSource (w : SoundRun) : Source → SoundRun
  | .programme => (w.modServo Servo.freeze).closeGap
  | .onBreak => w.mod fun sd => { sd with brk := [], cursor := none, breakGapOpen := false }
  | .mute => w

/-- The switch point (R56): the pending source becomes current, SOURCE_CHANGED is reported, then the old and the new
source have their parts done; a switch to the same source leaves rings and servo as they are. -/
def SoundRun.switch (w : SoundRun) (new : Source) (cause : SourceCause) : SoundRun :=
  let old := w.sd.source
  let w := (w.mod fun sd => { sd with source := new, ramp := none }).raise (.sourceChanged w.id old new cause)
  if old = new then w
  else
    let w := w.leaveSource old
    if new = .programme then w.modServo Servo.pickUp else w

/-- A source request (R55). -/
def SoundRun.request (w : SoundRun) (src : Source) (cause : SourceCause) : SoundRun :=
  if w.sd.ramp.isSome then w.mod fun sd => { sd with ramp := some (src, cause) }
  else if w.sd.source = src then w
  else if w.sd.level = 0 then w.switch src cause
  else w.mod fun sd => { sd with ramp := some (src, cause) }

/-- The source a show state notice requests, if the state sends one (R4, R57). -/
def noticeSource : ShowState → Option Source
  | .playing => some .programme
  | .onBreak => some .onBreak
  | .ended => some .mute
  | .halted => some .mute
  | .dark => some .mute
  | .loaded => none
  | .starting => none
  | .held => none

/-- A show state notice of the STU (R57). -/
def SoundRun.notice (w : SoundRun) (st : ShowState) : SoundRun :=
  match noticeSource st with
  | some src => w.request src .auto
  | none => w

/-! ## The frame event (R42 to R46) -/

/-- The target T = F × 2,000 + O, modulo 2^32 (R42). -/
def Servo.targetOf (v : Servo) (f : BitVec 32) : BitVec 32 :=
  f * 2000#32 + BitVec.ofInt 32 v.settings.offset

/-- The error E = T − P, signed (R42). -/
def Servo.errorOf (v : Servo) (f : BitVec 32) : Int :=
  (v.targetOf f - v.p).toInt

/-- P moved to the target by a capture or a jump, with A, R and the lock run at 0 (R43, R44). -/
def Servo.moveTo (v : Servo) (t : BitVec 32) : Servo :=
  { v with state := .track, p := t, a := 0, r := 0, lockRun := 0 }

/-- A rate brought into −Rmax to +Rmax. -/
def clampRate (rmax : Nat) (r : Int) : Int :=
  clampInt (-(rmax : Int)) rmax r

/-- The rate an error sets (R45). -/
def Servo.rateFor (v : Servo) (e : Int) : Int :=
  if e.natAbs ≤ v.settings.deadband then 0 else clampRate v.settings.rmax (e * v.settings.gain)

/-- The lock-run rule (R46), after the rate is set. -/
def SoundRun.lockRun (w : SoundRun) (e : Int) : SoundRun :=
  let v := w.sd.servo
  if e.natAbs ≤ 48 then
    let n := min (v.lockRun + 1) 24
    let w := w.modServo fun v => { v with lockRun := n }
    if v.state = .track ∧ n = 24 then
      (w.modServo fun v => { v with state := .locked }).raise (.syncLocked w.id)
    else w
  else
    let w := w.modServo fun v => { v with lockRun := 0 }
    if v.state = .locked then (w.modServo fun v => { v with state := .track }).raise (.lockLost w.id e) else w

/-- The end of a frame event acted on: the error is recorded, the coast-gap timer reloaded, the coast-limit timer
stopped (R42, R48). -/
def SoundRun.endEvent (w : SoundRun) (e : Option Int) : SoundRun :=
  w.modServo fun v => { v with error := e, coastGap := some 250, coastLimit := none }

/-- A capture (R43). -/
def SoundRun.capture (w : SoundRun) (f : BitVec 32) : SoundRun :=
  let left := w.sd.servo.state
  let t := w.sd.servo.targetOf f
  ((w.closeGap.modServo fun v => v.moveTo t).raise (.syncCapture w.id left t)).endEvent none

/-- A jump (R44). -/
def SoundRun.jump (w : SoundRun) (f : BitVec 32) : SoundRun :=
  let v := w.sd.servo
  let e := v.errorOf f
  let w := (w.closeGap.modServo fun u => u.moveTo (v.targetOf f)).mod fun sd => { sd with jumps := satInc sd.jumps }
  let w := w.raise (.syncJump w.id e v.state)
  let w := if v.state = .locked then w.raise (.lockLost w.id e) else w
  w.endEvent (some e)

/-- A rate setting (R45, R46). -/
def SoundRun.setRate (w : SoundRun) (f : BitVec 32) : SoundRun :=
  let e := w.sd.servo.errorOf f
  let w :=
    if w.sd.servo.state = .coast then
      (w.modServo fun v => { v with state := .track }).raise (.syncTrack w.id e)
    else w
  let w := w.modServo fun v => { v with r := v.rateFor e }
  (w.lockRun e).endEvent (some e)

/-- A frame event carrying F (R42); with another source it is discarded. -/
def SoundRun.frameEvent (w : SoundRun) (f : BitVec 32) : SoundRun :=
  if w.sd.source = .programme then
    match w.sd.servo.state with
    | .silent => w.capture f
    | .capture => w.capture f
    | _ => if w.sd.servo.settings.window < (w.sd.servo.errorOf f).natAbs then w.jump f else w.setRate f
  else w

/-! ## Coasting and silence (R47, R48) -/

/-- The coast-gap timer expires (R47). -/
def SoundRun.coastGapExpired (w : SoundRun) : SoundRun :=
  match w.sd.servo.coastGap with
  | none => w
  | some _ =>
    (w.modServo fun v => { v with
      state := .coast, r := 0, lockRun := 0, coastGap := none, coastLimit := loadMs v.settings.coastLimit }).raise
      (.syncCoast w.id w.sd.servo.p)

/-- The coast-limit timer expires in COAST (R48). -/
def SoundRun.coastLimitExpired (w : SoundRun) : SoundRun :=
  match w.sd.servo.coastLimit with
  | none => w
  | some _ =>
    (w.closeGap.modServo fun v => { v with state := .silent, coastLimit := none }).raise (.syncLost w.id w.sd.servo.p)

/-! ## The output tick (R38, R40, R50 to R54, R59) -/

/-- The sample at a position of the programme ring, absent where its block is not there (R38). -/
def Sound.sampleAt? (sd : Sound) (x : BitVec 32) : Option Stereo :=
  match sd.progSlot (x.toNat / 256 % 64) with
  | some b => if b.tag = x.toNat / 256 then some (b.frames.getD (x.toNat % 256) (0, 0)) else none
  | none => none

/-- The sample with 0 on both channels for an absent one (R38). -/
def Sound.sampleAt (sd : Sound) (x : BitVec 32) : Stereo :=
  (sd.sampleAt? x).getD (0, 0)

/-- The average of two samples, rounded toward minus infinity, channel by channel (R50). -/
def average (s t : Stereo) : Stereo :=
  ((s.1 + t.1) / 2, (s.2 + t.2) / 2)

/-- The underrun rule of a programme tick, on the sample at P (R52). The spec gives the length of a gap no top: the
model lets it grow without end, and UNDERRUN carries its low 32 bits (the model's choice, log entry 43). -/
def SoundRun.gapTick (w : SoundRun) : SoundRun :=
  match w.sd.sampleAt? w.sd.servo.p, w.sd.servo.gap with
  | some _, _ => w.closeGap
  | none, none => w.modServo fun v => { v with gap := some (v.p, 1) }
  | none, some (start, n) => w.modServo fun v => { v with gap := some (start, n + 1) }

/-- The servo's move on a programme tick (R50): the sample supplied and the new servo record. -/
def Servo.advance (v : Servo) (sd : Sound) : Stereo × Servo :=
  let a := v.a + v.r
  if 65536 ≤ a then
    let o := average (sd.sampleAt v.p) (sd.sampleAt (v.p + 1#32))
    (o, { v with p := v.p + 2#32, a := a - 65536, prev := o })
  else if a ≤ -65536 then
    let o := average v.prev (sd.sampleAt v.p)
    (o, { v with a := a + 65536, prev := o })
  else
    let o := sd.sampleAt v.p
    (o, { v with p := v.p + 1#32, a := a, prev := o })

/-- A programme tick (R50, R51). -/
def SoundRun.programmeTick (w : SoundRun) : Stereo × SoundRun :=
  match w.sd.servo.state with
  | .silent => ((0, 0), w.modServo fun v => { v with prev := (0, 0) })
  | .capture => ((0, 0), w.modServo fun v => { v with prev := (0, 0) })
  | _ =>
    let w := w.gapTick
    match w.sd.servo.advance w.sd with
    | (o, v) => (o, w.modServo fun _ => v)

/-- The next place of the break cursor (R40). -/
def nextCursor (k off : Nat) : Nat × Nat :=
  if off = 255 then ((k + 1) % 65536, 0) else (k, off + 1)

/-- A break tick (R40). -/
def Sound.breakTick (sd : Sound) : Stereo × Sound :=
  match sd.cursor with
  | none => ((0, 0), { sd with breakGapOpen := false })
  | some (k, off) =>
    let next := some (nextCursor k off)
    let missing : Stereo × Sound := ((0, 0),
      { sd with cursor := next, breakGapOpen := true,
                breakGaps := if sd.breakGapOpen then sd.breakGaps else satInc sd.breakGaps })
    match sd.brkSlot (k % 16) with
    | some b =>
      if b.tag = k then (b.frames.getD off (0, 0), { sd with cursor := next, breakGapOpen := false }) else missing
    | none => missing

/-- Bring a scaled sample into the 16-bit range (R53). -/
def saturate (x : Int) : Int :=
  clampInt (-32768) 32767 x

/-- The level stage (R53). -/
def scale (level : Nat) (s : Stereo) : Stereo :=
  (saturate (s.1 * level / 256), saturate (s.2 * level / 256))

/-- The aim of the level (R54). -/
def Sound.aim (sd : Sound) : Nat :=
  if sd.ramp.isSome ∨ sd.source = .mute then 0 else sd.target

/-- One step of L toward its aim. -/
def stepToward (aim l : Nat) : Nat :=
  if l < aim then l + 1 else if aim < l then l - 1 else l

/-- The step count advances, and on its wrap L moves one step toward its aim; at 0 in a ramp-down the switch point is
reached (R54, R56). -/
def SoundRun.levelTick (w : SoundRun) : SoundRun :=
  if w.sd.stepCount < 47 then w.mod fun sd => { sd with stepCount := sd.stepCount + 1 }
  else
    let w := w.mod fun sd => { sd with stepCount := 0, level := stepToward sd.aim sd.level }
    match w.sd.ramp with
    | some (src, cause) => if w.sd.level = 0 then w.switch src cause else w
    | none => w

/-- An output tick: the source supplies a sample, the level stage scales it to both outputs, then the level moves (R50
to R54, R59; log entry 13). -/
def SoundRun.tick (w : SoundRun) : SoundRun :=
  let sw : Stereo × SoundRun :=
    match w.sd.source with
    | .programme => w.programmeTick
    | .onBreak =>
      match w.sd.breakTick with
      | (o, sd) => (o, w.mod fun _ => sd)
    | .mute => ((0, 0), w)
  let o := scale sw.2.sd.level sw.1
  (sw.2.mod fun sd => { sd with feed := o, bus := o }).levelTick

/-! ## Resets (R63, R64) -/

/-- A screen reset of the sound path (R63): the settings and the target level stay. -/
def Sound.screenReset (sd : Sound) : Sound :=
  { Sound.reset with
    target := sd.target, servo := { Servo.reset with settings := sd.servo.settings } }

end Sys2Proof.Machine
end

