-- ==== Sys2Proof/Machine/TimelineRules.lean ====
section
/-! DEFINITION. The Show Timeline Unit's rules for one screen (R1 to R34). The unit reads no other block: what it tells
the Sound Path Unit, the Order Engine and the report queue is listed in order, and Ops.lean carries it out. -/

namespace Sys2Proof.Machine

/-- What the timeline tells the other blocks. -/
inductive Effect where
  | report (r : Report)
  | notice (st : ShowState)
  | frameEvent (f : BitVec 32)
  | release
deriving DecidableEq, Repr

/-- One screen's timeline in the course of a step, with what it has told the other blocks so far. -/
structure ShowRun where
  id : ScreenId
  sc : Screen
  out : List Effect
deriving DecidableEq, Repr

/-- Tell another block. -/
def ShowRun.tell (w : ShowRun) (e : Effect) : ShowRun :=
  { w with out := w.out ++ [e] }

/-- Raise a report. -/
def ShowRun.raise (w : ShowRun) (r : Report) : ShowRun :=
  w.tell (.report r)

/-- Change the screen record. -/
def ShowRun.mod (w : ShowRun) (f : Screen → Screen) : ShowRun :=
  { w with sc := f w.sc }

/-! ## Heads (R1 to R3) -/

/-- The head state, derived from the record (R1). -/
def HeadRec.state (h : HeadRec) : HeadState :=
  if !h.lampOk || h.speedLost then .fault
  else if !h.motor then .idle
  else if !h.atSpeed then .spinning
  else if h.runout then .runout
  else .running

/-- A screen's head record. -/
def Screen.head (sc : Screen) : Head → HeadRec
  | .a => sc.headA
  | .b => sc.headB

/-- Write a screen's head record. -/
def Screen.setHead (sc : Screen) : Head → HeadRec → Screen
  | .a, r => { sc with headA := r }
  | .b, r => { sc with headB := r }

/-- The other head. -/
def otherHead : Head → Head
  | .a => .b
  | .b => .a

/-- The head of the current reel; with reel 0 there is none. -/
def Screen.onScreen? (sc : Screen) : Option Head :=
  if sc.reel = 0 then none else if sc.reel % 2 = 1 then some .a else some .b

/-- Whether a head is the on-screen head. -/
def Screen.isOnScreen (sc : Screen) (h : Head) : Bool :=
  decide (sc.onScreen? = some h)

/-- The head of the next reel (the on-screen head is A when the reel is odd); read only where there is a reel. -/
def Screen.incoming (sc : Screen) : Head :=
  if sc.reel % 2 = 1 then .b else .a

/-- The outgoing head while a changeover is due: the on-screen head. -/
def Screen.outgoing (sc : Screen) : Head :=
  otherHead sc.incoming

/-- Change a head record; a head that leaves FAULT is reported HEAD_OK (R2). -/
def ShowRun.modHead (w : ShowRun) (h : Head) (f : HeadRec → HeadRec) : ShowRun :=
  let old := w.sc.head h
  let new := f old
  let w := w.mod fun sc => sc.setHead h new
  if old.state = .fault ∧ new.state ≠ .fault then w.raise (.headOk w.id h new.state) else w

/-- Command a motor: turning it off clears the speed-lost marker (R1). -/
def ShowRun.motor (w : ShowRun) (h : Head) (on : Bool) : ShowRun :=
  w.modHead h fun r => { r with motor := on, speedLost := r.speedLost && on }

/-- Command a douser. -/
def ShowRun.douser (w : ShowRun) (h : Head) (on : Bool) : ShowRun :=
  w.modHead h fun r => { r with douser := on }

/-- Clear a head's stop-at-runout marker. -/
def ShowRun.clearStop (w : ShowRun) (h : Head) : ShowRun :=
  w.modHead h fun r => { r with stopAtRunout := false }

/-- Command a head's motor on if it is off; either way its stop-at-runout marker is cleared (R8, R15). -/
def ShowRun.startMotor (w : ShowRun) (h : Head) : ShowRun :=
  (w.motor h true).clearStop h

/-- Whether a head is RUNNING. -/
def ShowRun.isRunning (w : ShowRun) (h : Head) : Bool :=
  decide ((w.sc.head h).state = .running)

/-! ## Changes of show state (R4) -/

/-- Enter a show state: a change is reported with its cause, and the states that send a notice send it. A changeover
that completes from PLAYING (R14, R16) goes to the state it is in: the model takes it as no change of show state and as
no entry, so that it makes no SHOW_STATE and no notice of PLAYING (the model's choice, log entry 44). -/
def ShowRun.enter (w : ShowRun) (st : ShowState) (cause : ShowCause) : ShowRun :=
  let old := w.sc.phase
  if old = st then w
  else
    let w := (w.mod fun sc => { sc with phase := st }).raise (.showState w.id old st w.sc.reel cause)
    match st with
    | .playing => w.tell (.notice st)
    | .onBreak => w.tell (.notice st)
    | .ended => w.tell (.notice st)
    | .halted => w.tell (.notice st)
    | .dark => w.tell (.notice st)
    | .loaded => w
    | .starting => w
    | .held => w

/-- Both dousers closed, then both motors off, the markers and the held head cleared, the break countdown stopped (R24,
R26). Where both heads leave FAULT with their motors, head A's HEAD_OK is raised first (the model's choice, log entry
18). -/
def ShowRun.shutDown (w : ShowRun) : ShowRun :=
  let w := (w.douser .a false).douser .b false
  let w := (w.motor .a false).motor .b false
  let w := (w.clearStop .a).clearStop .b
  w.mod fun sc => { sc with heldHead := none, countdown := none }

/-- Enter ENDED (R26). -/
def ShowRun.endShow (w : ShowRun) (cause : ShowCause) : ShowRun :=
  ((w.shutDown.mod fun sc => { sc with orderingOpen := false }).tell .release).enter .ended cause

/-! ## Changeover (R11, R14, R16, R17) -/

/-- The staged slot is examined at a completion (R11). -/
def ShowRun.activate (w : ShowRun) : ShowRun :=
  let reel := w.sc.reel
  let staged := w.sc.staged
  let w := w.mod fun sc => { sc with active := none, staged := none, leadFired := false }
  match staged with
  | none => w.raise (.cuesetMissing w.id reel)
  | some cs =>
    if cs.reel = reel then
      w.mod fun sc => { sc with active := some { cs with cues := cs.cues.map fun c => (c.1, false) } }
    else w.raise (.cuesetMismatch w.id reel cs.reel)

/-- Steps 1 to 9 of the completion of a changeover (R14), but for the frame-0 cues. -/
def ShowRun.complete (w : ShowRun) : ShowRun :=
  let out := w.sc.outgoing
  let inc := w.sc.incoming
  let w := w.douser out false
  let w := if w.isRunning out then w.modHead out fun r => { r with stopAtRunout := true } else w.motor out false
  let w := w.mod fun sc => { sc with countdown := none, heldHead := none, reel := sc.reel + 1 }
  let w := w.activate
  let w := (w.clearStop inc).douser inc true
  let w := w.mod fun sc => { sc with frame := 0, orderingOpen := true, breakWindow := false }
  w.enter .playing .changeover

/-- Wait for the incoming head (R16, R19): HELD, its motor on, CHANGEOVER_LATE. -/
def ShowRun.holdForIncoming (w : ShowRun) : ShowRun :=
  let inc := w.sc.incoming
  let w := (w.mod fun sc => { sc with heldHead := some inc, countdown := none }).startMotor inc
  (w.raise (.changeoverLate w.id w.sc.reel (w.sc.head inc).state)).enter .held .changeover

/-- The entry into BREAK with a break length in seconds (R17). Commanding the incoming motor on there clears its
stop-at-runout marker as R15's other commands do (the model's choice, log entry 51). -/
def ShowRun.enterBreak (w : ShowRun) (len : Nat) : ShowRun :=
  let out := w.sc.outgoing
  let w := (w.douser out false).motor out false
  let w := w.mod fun sc => { sc with countdown := some (len * 1000) }
  let w := if w.sc.leadFired then w else w.tell .release
  let w := if len ≤ w.sc.leadSetting then w.startMotor w.sc.incoming else w
  w.enter .onBreak .changeover

/-- The cues of the active set due at a frame: their places in the list, unfired only. -/
def Screen.due (sc : Screen) (frame : Nat) : List (Nat × Cue) :=
  match sc.active with
  | none => []
  | some cs =>
    (cs.cues.zipIdx.filter fun e => !e.1.2 && decide (e.1.1.frame = frame)).map fun e => (e.2, e.1.1)

/-- Set the fired marker of the cue at a place of the active set. -/
def Screen.markFired (sc : Screen) (i : Nat) : Screen :=
  { sc with active := sc.active.map fun cs => { cs with cues := cs.cues.modify i fun c => (c.1, true) } }

/-- The effect of a cue of any kind but CHANGEOVER (R8). -/
def ShowRun.cueEffect (w : ShowRun) (c : Cue) : ShowRun :=
  match c.kind with
  | .motor => w.startMotor w.sc.incoming
  | .changeover => w
  | .lights => w.mod fun sc => { sc with lights := c.arg }
  | .gateClose => w.mod fun sc => { sc with gateOpen := false }
  | .lastCall => w.mod fun sc => { sc with orderingOpen := false }
  | .breakLead => (w.mod fun sc => { sc with breakWindow := true, leadFired := true }).tell .release
  | .mark => w.raise (.cueMark w.id w.sc.reel w.sc.frame c.arg)

/-- A changeover fires with a break length (R16, R17); `done` completes it and fires the next reel's frame-0 cues. A
held head already RUNNING as the hold begins ends the hold at once (R23). -/
def ShowRun.changeover (done : ShowRun → ShowRun) (len : Nat) (w : ShowRun) : ShowRun :=
  if len = 0 then
    if w.isRunning w.sc.incoming then done w
    else
      let w := w.holdForIncoming
      if w.isRunning w.sc.incoming then done w else w
  else w.enterBreak len

/-- Fire a cue of the active set: its marker is set as it fires (R5, R8). -/
def ShowRun.fireCue (done : ShowRun → ShowRun) (w : ShowRun) (e : Nat × Cue) : ShowRun :=
  let w := w.mod fun sc => sc.markFired e.1
  match e.2.kind with
  | .changeover => ShowRun.changeover done e.2.arg w
  | _ => w.cueEffect e.2

/-- Fire, in list order, the cues due at a frame (R5, R7). A CHANGEOVER at frame 0 of the next reel's set may complete
in its turn, and then finds the staged slot empty, so no chain is longer than the bound its callers give. -/
def ShowRun.fireDue : Nat → Nat → ShowRun → ShowRun
  | 0, _, w => w
  | n + 1, frame, w =>
    (w.sc.due frame).foldl (ShowRun.fireCue fun w => ShowRun.fireDue n 0 w.complete) w

/-- The completion of a changeover with the frame-0 cues of the new reel (R14). -/
def ShowRun.finishChangeover (w : ShowRun) : ShowRun :=
  ShowRun.fireDue 3 0 w.complete

/-- A changeover outside the cue list: fired early by a runout (R20). -/
def ShowRun.fireChangeover (len : Nat) (w : ShowRun) : ShowRun :=
  ShowRun.changeover ShowRun.finishChangeover len w

/-! ## Starting (R12, R13) -/

/-- Head A has come to RUNNING in STARTING (R13): PLAYING, the frame-0 cues, and the frame event of F = 0 (R7). -/
def ShowRun.begin (w : ShowRun) : ShowRun :=
  let w := (w.mod fun sc => { sc with startTimer := none }).douser .a true
  let w := (w.mod fun sc => { sc with frame := 0, f := 0 }).enter .playing .start
  (ShowRun.fireDue 3 0 w).tell (.frameEvent 0)

/-! ## The held screen (R21 to R24) -/

/-- The held head has come to RUNNING (R23). -/
def ShowRun.heldReady (w : ShowRun) (h : Head) : ShowRun :=
  if w.sc.isOnScreen h then
    ((w.douser h true).mod fun sc => { sc with heldHead := none }).enter .playing .recovery
  else w.finishChangeover

/-- What a head's coming to RUNNING does (R13, R23). -/
def ShowRun.cameToRunning (w : ShowRun) (h : Head) : ShowRun :=
  if w.sc.phase = .starting ∧ h = .a then w.begin
  else if w.sc.phase = .held ∧ w.sc.heldHead = some h then w.heldReady h
  else w

/-- A second fault halts the screen (R24). -/
def ShowRun.halt (w : ShowRun) : ShowRun :=
  w.shutDown.enter .halted .secondFault

/-- A fault event of a head, its line already taken (R2, R3, R15, R21, R22, R24). -/
def ShowRun.faultEvent (w : ShowRun) (h : Head) (cause : FaultCause) : ShowRun :=
  let w := w.raise (.headFault w.id h cause w.sc.phase)
  let w := if cause = .speed ∧ (w.sc.head h).douser then w.douser h false else w
  let w := if (w.sc.head h).stopAtRunout then (w.motor h false).clearStop h else w
  match w.sc.phase with
  | .playing =>
    if cause = .speed ∧ w.sc.isOnScreen h then
      ((w.mod fun sc => { sc with heldHead := some h }).raise (.stall w.id h w.sc.reel w.sc.frame)).enter .held .stall
    else w
  | .held =>
    if w.sc.heldHead = some h then w.halt
    else if cause = .speed ∧ w.sc.isOnScreen h then w.motor h false
    else w
  | _ => w

/-- Take a head line's change: the reports of R2, then what a head that came to RUNNING does. -/
def ShowRun.lineReact (w : ShowRun) (h : Head) (before : HeadState) : ShowRun :=
  if before ≠ .running ∧ w.isRunning h then w.cameToRunning h else w

/-- AT_SPEED changes (R1, R2). -/
def ShowRun.atSpeed (w : ShowRun) (h : Head) (on : Bool) : ShowRun :=
  let old := w.sc.head h
  if old.atSpeed = on then w
  else if on then
    (w.modHead h fun r => { r with atSpeed := true, speedLost := false }).lineReact h old.state
  else if old.motor then
    (w.modHead h fun r => { r with atSpeed := false, speedLost := true }).faultEvent h .speed
  else w.modHead h fun r => { r with atSpeed := false }

/-- LAMP_OK changes (R2). -/
def ShowRun.lampOk (w : ShowRun) (h : Head) (on : Bool) : ShowRun :=
  let old := w.sc.head h
  if old.lampOk = on then w
  else
    let w := w.modHead h fun r => { r with lampOk := on }
    if on then w.lineReact h old.state else w.faultEvent h .lamp

/-- The active set's CHANGEOVER cue not yet fired, with its place (R20). -/
def Screen.unfiredChangeover (sc : Screen) : Option (Nat × Cue) :=
  match sc.active with
  | none => none
  | some cs =>
    (cs.cues.zipIdx.find? fun e => decide (e.1.1.kind = .changeover) && !e.1.2).map fun e => (e.2, e.1.1)

/-- The outgoing picture ends while the screen is HELD for a late incoming head: douser closed, motor off (R20, R21). -/
def ShowRun.darken (w : ShowRun) (h : Head) : ShowRun :=
  (w.douser h false).motor h false

/-- The on-screen head's RUNOUT in PLAYING (R20). -/
def ShowRun.reelRunsOut (w : ShowRun) (h : Head) : ShowRun :=
  match w.sc.unfiredChangeover with
  | none => w.endShow .runout
  | some (i, c) =>
    let w := w.raise (.changeoverEarly w.id w.sc.reel w.sc.frame)
    let w := ShowRun.fireChangeover c.arg (w.mod fun sc => sc.markFired i)
    if w.sc.phase = .held ∧ w.sc.isOnScreen h then w.darken h else w

/-- RUNOUT comes on at a head whose motor is commanded on (R15, R20, R21). -/
def ShowRun.runoutOn (w : ShowRun) (h : Head) : ShowRun :=
  let w := if (w.sc.head h).stopAtRunout then (w.motor h false).clearStop h else w
  if w.sc.phase = .playing ∧ w.sc.isOnScreen h then w.reelRunsOut h
  else if w.sc.phase = .held ∧ w.sc.isOnScreen h ∧ w.sc.heldHead ≠ some h then w.darken h
  else w

/-- RUNOUT changes (R1, R15, R20, R21). The line is read only while the motor is on. -/
def ShowRun.runout (w : ShowRun) (h : Head) (on : Bool) : ShowRun :=
  let old := w.sc.head h
  if old.runout = on then w
  else
    let w := w.modHead h fun r => { r with runout := on }
    if on then (if old.motor then w.runoutOn h else w) else w.lineReact h old.state

/-! ## Frames and breaks (R5, R6, R18, R19) -/

/-- A frame pulse of the on-screen head in PLAYING (R5); any other pulse is not counted (R6). -/
def ShowRun.pulse (w : ShowRun) (h : Head) : ShowRun :=
  if w.sc.phase = .playing ∧ w.sc.isOnScreen h then
    let w := w.mod fun sc => { sc with frame := if sc.frame < 65535 then sc.frame + 1 else sc.frame, f := sc.f + 1 }
    let w := w.tell (.frameEvent w.sc.f)
    ShowRun.fireDue 3 w.sc.frame w
  else w

/-- The break countdown has reached the motor lead (R18): the incoming motor is commanded on. -/
def ShowRun.leadReached (w : ShowRun) : ShowRun :=
  if w.sc.phase = .onBreak ∧ w.sc.countdown.isSome ∧ w.sc.leadSetting ≠ 0 then w.startMotor w.sc.incoming else w

/-- The end of a break (R19). -/
def ShowRun.endBreak (w : ShowRun) : ShowRun :=
  if w.isRunning w.sc.incoming then w.finishChangeover
  else
    let w := w.holdForIncoming
    if w.isRunning w.sc.incoming then w.finishChangeover else w

/-- The break countdown expires (R19). -/
def ShowRun.countdownExpired (w : ShowRun) : ShowRun :=
  if w.sc.phase = .onBreak ∧ w.sc.countdown.isSome then w.endBreak else w

/-- The start timer expires in STARTING (R13): START_FAILED carries head A's state at that moment. -/
def ShowRun.startExpired (w : ShowRun) : ShowRun :=
  if w.sc.phase = .starting ∧ w.sc.startTimer.isSome then
    let st := w.sc.headA.state
    (((w.mod fun sc => { sc with startTimer := none }).motor .a false).raise (.startFailed w.id st)).enter .loaded
      .startTimer
  else w

/-! ## Requests -/

/-- The argument range of a cue kind (R8): a kind with no argument carries 0. -/
def CueKind.argMax : CueKind → Nat
  | .motor => 0
  | .changeover => 3600
  | .lights => 3
  | .gateClose => 0
  | .lastCall => 0
  | .breakLead => 0
  | .mark => 255

/-- The cue list's order: frames nondecreasing and below the reel length, arguments in range, nothing after a CHANGEOVER
(R9; a second CHANGEOVER would follow the first). -/
def cuesOk (length : Nat) : Nat → List Cue → Bool
  | _, [] => true
  | least, c :: cs =>
    decide (least ≤ c.frame) && decide (c.frame < length) && decide (c.arg ≤ c.kind.argMax) &&
      (!decide (c.kind = .changeover) || cs.isEmpty) && cuesOk length c.frame cs

/-- The checks of LOAD CUES on the whole set (R9). -/
def setOk (reel length : Nat) (cues : List Cue) : Bool :=
  decide (1 ≤ reel) && decide (reel ≤ 15) && decide (1 ≤ length) && decide (length ≤ 65535) &&
    decide (cues.length ≤ 32) && cuesOk length 0 cues &&
    !(decide (reel = 15) && cues.any fun c => decide (c.kind = .changeover))

/-- A checked set with every fired marker clear. -/
def freshSet (reel length : Nat) (cues : List Cue) : CueSet :=
  { reel := reel, length := length, cues := cues.map fun c => (c, false) }

/-- Place a checked set (R10); the answer tells whether it was taken. -/
def ShowRun.load (w : ShowRun) (cs : CueSet) : Bool × ShowRun :=
  match w.sc.phase with
  | .ended => (false, w)
  | .halted => (false, w)
  | .dark =>
    if cs.reel = 1 then
      (true, (w.mod fun sc => { sc with active := some cs, reel := 1, frame := 0, f := 0 }).enter .loaded .loadCues)
    else (true, w.mod fun sc => { sc with staged := some cs })
  | _ => (true, w.mod fun sc => { sc with staged := some cs })

/-- START taken in LOADED (R12, R13). -/
def ShowRun.takeStart (w : ShowRun) : Bool × ShowRun :=
  if w.sc.phase = .loaded then
    let w := (w.motor .a true).mod fun sc => { sc with startTimer := loadSeconds sc.startSetting }
    let w := w.enter .starting .start
    (true, if w.isRunning .a then w.begin else w)
  else (false, w)

/-- RESUME taken in BREAK (R19). -/
def ShowRun.takeResume (w : ShowRun) : Bool × ShowRun :=
  if w.sc.phase = .onBreak then (true, w.endBreak) else (false, w)

/-- STOP SHOW (R13, R26). -/
def ShowRun.takeStop (w : ShowRun) : Bool × ShowRun :=
  match w.sc.phase with
  | .starting => (true, ((w.mod fun sc => { sc with startTimer := none }).motor .a false).enter .loaded .stopShow)
  | .playing => (true, w.endShow .stopShow)
  | .onBreak => (true, w.endShow .stopShow)
  | .held => (true, w.endShow .stopShow)
  | _ => (false, w)

/-- CLEAR SHOW taken in ENDED (R27). -/
def ShowRun.takeClear (w : ShowRun) : Bool × ShowRun :=
  if w.sc.phase = .ended then
    (true, (w.mod fun sc => { sc with
      active := none, staged := none, reel := 0, frame := 0, f := 0, leadFired := false, breakWindow := false,
      orderingOpen := true }).enter .dark .clearShow)
  else (false, w)

/-- TIMELINE SET with clamped settings (R30): a new motor lead applies at once to a running break countdown. -/
def ShowRun.setTimers (w : ShowRun) (start lead : Nat) : ShowRun :=
  let w := w.mod fun sc => { sc with startSetting := start, leadSetting := lead }
  match w.sc.countdown with
  | some ms => if w.sc.phase = .onBreak ∧ lead ≠ 0 ∧ ms ≤ lead * 1000 then w.startMotor w.sc.incoming else w
  | none => w

/-- A screen reset of the timeline (R33). The release and the notice of DARK follow the sound path's reset (R63). -/
def ShowRun.reset (w : ShowRun) : ShowRun :=
  let w := w.shutDown
  let w := w.mod fun sc => { sc with
    active := none, staged := none, reel := 0, frame := 0, f := 0, startTimer := none, leadFired := false,
    lights := 0, gateOpen := true, orderingOpen := true, breakWindow := false }
  (w.enter .dark .resetScreen).tell .release

/-- A screen's timeline after a device reset (R34): the lines are read as they stand and the settings are defaults. -/
def Screen.deviceReset (sc : Screen) : Screen :=
  let keep (h : HeadRec) : HeadRec := { HeadRec.reset with atSpeed := h.atSpeed, runout := h.runout, lampOk := h.lampOk }
  { Screen.reset with headA := keep sc.headA, headB := keep sc.headB }

end Sys2Proof.Machine
end

