-- ==== Sys2Proof/Machine/Ops.lean ====
section
/-! DEFINITION. The named operations over the whole state: reaching one block from a command, carrying out what a
timeline tells the other blocks, and the two shapes of a command, an event of the equipment and a host request that takes
its place in the reply list (R204). Every command of a family file is one of these two shapes. -/

namespace Sys2Proof.Machine

/-! ## Reaching a block -/

/-- What the other blocks lend the Order Engine and the Car Table. -/
def State.site (s : State) : Site :=
  { run := decide (s.link.part = .run), minute := s.link.minute, screens := s.screens }

/-- Change the yard. -/
def State.onYard (s : State) (f : Yard → Yard) : State :=
  { s with yard := f s.yard }

/-- Change one loop's record and nothing else. -/
def State.onLoop (s : State) (lp : ScreenId) (f : LoopRec → LoopRec) : State :=
  s.onYard fun y => y.modLoop lp f

/-- Let one screen's sound path take an operation; what it reports is raised in order. -/
def State.onSound (s : State) (sc : ScreenId) (f : SoundRun → SoundRun) : State :=
  let w := f { id := sc, sd := s.sound[sc], out := [] }
  ({ s with sound := s.sound.set sc w.sd } : State).raiseAll w.out

/-- Carry out one thing a timeline tells another block. -/
def State.effect (sc : ScreenId) (s : State) (e : Effect) : State :=
  match e with
  | .report r => s.raise r
  | .notice st => s.onSound sc fun w => w.notice st
  | .frameEvent f => s.onSound sc fun w => w.frameEvent f
  | .release => s.onYard fun y => (y.releaseHeld sc).2

/-- Let one screen's timeline take an operation, then carry out what it has told the other blocks, in order. -/
def State.onShow (s : State) (sc : ScreenId) (f : ShowRun → ShowRun) : State :=
  let w := f { id := sc, sc := s.screens[sc], out := [] }
  w.out.foldl (State.effect sc) { s with screens := s.screens.set sc w.sc }

/-! ## The two shapes of a command -/

/-- An event of the equipment: it acts, its reports join the queue, and a free transmitter starts its next frame. -/
def event (f : State → State) (s : State) : Host.Outcome State Fault Refusal :=
  .next (f s).finish

/-- Whether a place of the reply list belongs to a request. -/
def Place.isRequest : Place → Bool
  | .request _ _ _ => true
  | .busy _ _ => false

/-- The number of request places in the reply list. -/
def Link.requests (l : Link) : Nat :=
  l.replies.countP Place.isRequest

/-- The number of BUSY places in the reply list. -/
def Link.busies (l : Link) : Nat :=
  l.replies.countP fun p => !p.isRequest

/-- The kind code of RESET DEVICE (spec/10, Catalogue of requests). -/
def resetDeviceKind : Nat := 0x3B

/-- Whether a place is that of a RESET DEVICE taken. -/
def Place.isReset : Place → Bool
  | .request k _ r => k == resetDeviceKind && decide (r.result = .ok)
  | .busy _ _ => false

/-- Whether a RESET DEVICE has been taken and its reply not yet sent: frames that arrive are then dropped (R210). -/
def Link.resetPending (l : Link) : Bool :=
  l.replies.any Place.isReset

/-- A frame has ended, good or discarded: the receiver is hunting again (R201). -/
def Link.hunt (l : Link) : Link :=
  { l with rx := none }

/-- A place joins the tail of the reply list, its frame whole and the receiver hunting again (R201, R204). -/
def Link.addPlace (l : Link) (p : Place) : Link :=
  { l with replies := l.replies ++ [p], rx := none }

/-- A discard raises the link error count (R201, R204). -/
def Link.countError (l : Link) : Link :=
  { l with linkErrors := satInc l.linkErrors }

/-- A good frame arrives (R204, R210): dropped while a RESET DEVICE waits; discarded with a count on a full list; a BUSY
place with 8 request places; otherwise a request, taken at once by `body`, whose reply takes its place at the tail. The
receiver, which has had the frame's last byte, is hunting again. -/
def State.request (s : State) (kind tag : Nat) (body : State → Reply × State) : State :=
  if s.link.resetPending then { s with link := s.link.hunt }
  else if 16 ≤ s.link.replies.length then { s with link := s.link.hunt.countError }
  else if 8 ≤ s.link.requests then { s with link := s.link.addPlace (.busy kind tag) }
  else
    let r := body s
    { r.2 with link := r.2.link.addPlace (.request kind tag r.1) }

/-- A host request as a command. -/
def request (kind tag : Nat) (body : State → Reply × State) (s : State) : Host.Outcome State Fault Refusal :=
  .next (s.request kind tag body).finish

/-! ## Checks the requests share -/

/-- A malformed request: refused UNKNOWN, nothing changed (R202). -/
def malformed (s : State) : Reply × State :=
  (Reply.refuse .unknown, s)

/-- A request refused with nothing changed. -/
def refused (r : Result) (s : State) : Reply × State :=
  (Reply.refuse r, s)

/-- A request answered OK. -/
def done (s : State) : Reply × State :=
  (Reply.ok, s)

/-- A request that a number outside its list makes malformed: a screen, a loop or a lane that is not there. -/
def withFin (n k : Nat) (body : Fin n → State → Reply × State) (s : State) : Reply × State :=
  match finOf n k with
  | some i => body i s
  | none => malformed s

/-- A request refused STATE in SETUP (R208). -/
def inRun (body : State → Reply × State) (s : State) : Reply × State :=
  if s.link.part = .run then body s else refused .state s

/-- A request refused RANGE unless its numbers lie in their ranges. -/
def inRange (ok : Bool) (body : State → Reply × State) (s : State) : Reply × State :=
  if ok then body s else refused .range s

end Sys2Proof.Machine
end

