-- ==== Sys2Proof/Machine/Field.lean ====
section
/-! DEFINITION. The commands of The Car Table and the Field (R117 to R136): the check-in limit's expiry and the seven
requests of the chapter. -/

namespace Sys2Proof.Machine

/-- CHECKIN_LIMIT_EXPIRY (R130). -/
def execCheckinLimitExpiry (car : Nat) (s : State) : Host.Outcome State Fault Refusal :=
  event (fun s => s.onYard fun y => y.limitExpired car) s

/-- The bay states of a SITE PLAN, true for open; none where one lies beyond the list (R202). -/
def planOf : List Nat → Option (List Bool)
  | [] => some []
  | n :: ns =>
    match openOf n, planOf ns with
    | some b, some bs => some (b :: bs)
    | _, _ => none

/-- SITE PLAN of a screen (R121): the reply gives the open bays, the capacity and the bays left closed. -/
def sitePlanBody (sc : ScreenId) (plan : List Bool) (s : State) : Reply × State :=
  match s.yard.sitePlan sc plan with
  | (left, y) =>
    ({ result := .ok, indication := .none,
       fields := [.raw (u16 (y.openBays sc) ++ u16 y.capacity[sc]), .list 2 (left.map fun b => u16 b)] },
      { s with yard := y })

/-- SITE PLAN (R121, R122). -/
def execSitePlan (tag screen : Nat) (bays : List Nat) (s : State) : Host.Outcome State Fault Refusal :=
  request 0x1C tag (withFin 4 screen fun sc s =>
    match planOf bays with
    | some plan => if plan.length = 256 then sitePlanBody sc plan s else malformed s
    | none => malformed s) s

/-- The capacity a CAPACITY SET leaves: lowered to 256 and to the open bays, then raised to the admitted count (R122).
-/
def Yard.fitCapacity (y : Yard) (sc : ScreenId) (n : Nat) : Nat :=
  max (min (min n 256) (y.openBays sc)) y.admittedCount[sc]

/-- Whether one of the steps of a CAPACITY SET changes the value, also where a later step changes it back (R122). -/
def Yard.capacityFitted (y : Yard) (sc : ScreenId) (n : Nat) : Bool :=
  decide (256 < n) || decide (y.openBays sc < min n 256) ||
    decide (min (min n 256) (y.openBays sc) < y.admittedCount[sc])

/-- CAPACITY SET (R122). -/
def execCapacitySet (tag screen capacity : Nat) (s : State) : Host.Outcome State Fault Refusal :=
  request 0x1D tag (withFin 4 screen fun sc s =>
    let n := s.yard.fitCapacity sc capacity
    (Reply.setting (s.yard.capacityFitted sc capacity) (u16 n),
      s.onYard fun y => { y with capacity := y.capacity.set sc n })) s

/-- CT SET (R130). -/
def execCtSet (tag limit : Nat) (s : State) : Host.Outcome State Fault Refusal :=
  request 0x1E tag (fun s =>
    let n := clampTimer 5 120 limit
    (Reply.setting (decide (n ≠ limit)) (u8 n), s.onYard fun y => { y with checkinSetting := n })) s

/-- The bay read of a departure, made before the car departs; a car that is not PARKED needs none. -/
def Yard.readParkedBay (y : Yard) (c : Car) : Read Bay × Yard :=
  match c.parkedBay with
  | some bay => y.readBay Yard.drain bay
  | none => (.absent, y)

/-- CAR REMOVE in RUN (R132). A parity fault at the car's record or at the record of its bay is answered STORE_ERROR;
after a fault at the bay the car, unbound by R133, stays in the table (the model's choice, log entry 20). A fault that
the departure itself meets, at an order or an item, leaves the answer OK (the model's choice, log entry 55). -/
def carRemoveBody (car : Nat) (s : State) : Reply × State :=
  match s.yard.readCar Yard.drain car with
  | (.whole c, y) =>
    match y.readParkedBay c with
    | (.fault, y) => (Reply.refuse .storeError, { s with yard := y })
    | (_, y) => (Reply.ok, { s with yard := y.depart c .host })
  | (.absent, y) => (Reply.refuse .noSuch, { s with yard := y })
  | (.fault, y) => (Reply.refuse .storeError, { s with yard := y })

/-- CAR REMOVE (R131, R132). -/
def execCarRemove (tag car : Nat) (s : State) : Host.Outcome State Fault Refusal :=
  request 0x1F tag (inRun (carRemoveBody car)) s

/-- The fields of CAR QUERY: the record as R117 lists it and the limit remaining in minutes (R134). -/
def Car.status (c : Car) (limit : Option Nat) : List Byte :=
  u16 c.number ++ u32 c.ticket ++ u8 c.cls.ctorIdx ++ u8 c.screen ++ u8 c.state.ctorIdx ++ u8 c.entryLane ++
    minuteBytes c.entryMinute ++ opt u16 c.bay ++ opt minuteBytes c.checkin ++ flag c.wired ++ u8 c.orders.length ++
    (c.orders.map u16).flatten ++ flag c.unchecked ++ opt u8 (limit.map ceilMinutes)

/-- CAR QUERY (R134). -/
def carQueryBody (car : Nat) (s : State) : Reply × State :=
  match s.yard.readCar Yard.drain car with
  | (.whole c, y) => (Reply.okWith (c.status (Tab.get none y.limits car)), { s with yard := y })
  | (.absent, y) => (Reply.refuse .noSuch, { s with yard := y })
  | (.fault, y) => (Reply.refuse .storeError, { s with yard := y })

/-- CAR QUERY (R134). -/
def execCarQuery (tag car : Nat) (s : State) : Host.Outcome State Fault Refusal :=
  request 0x20 tag (carQueryBody car) s

/-- The fields of BAY QUERY: open or closed, occupant, speaker, the mark, and whether the slot is out of use (R120,
R134). The free slot of a closed bay counts as not out of use (the model's choice, log entry 15). -/
def bayStatus (y : Yard) (bay : Nat) : List Byte :=
  match y.bay? bay with
  | some b => u8 0 ++ opt u16 b.occupant ++ flag b.speaker ++ flag (y.spkMarked bay) ++ flag false
  | none => u8 1 ++ opt u16 none ++ flag false ++ flag (y.spkMarked bay) ++ flag (y.baySlot bay).isOut

/-- BAY QUERY (R134). -/
def bayQueryBody (bay : Nat) (s : State) : Reply × State :=
  match s.yard.readBay Yard.drain bay with
  | (.fault, y) => (Reply.refuse .storeError, { s with yard := y })
  | (_, y) => (Reply.okWith (bayStatus y bay), { s with yard := y })

/-- BAY QUERY (R134). -/
def execBayQuery (tag bay : Nat) (s : State) : Host.Outcome State Fault Refusal :=
  request 0x21 tag (inRange (decide (bay ≤ 1023)) (bayQueryBody bay)) s

/-- Read every car record and keep those of a screen's field; a record lost at its read is not counted. -/
def Yard.readField (sc : ScreenId) : List Nat → Yard → List Car × Yard
  | [], y => ([], y)
  | i :: is, y =>
    match y.readCarSlot Yard.drain i with
    | (.whole c, y) =>
      match Yard.readField sc is y with
      | (l, y) => (if c.screen = sc then c :: l else l, y)
    | (_, y) => Yard.readField sc is y

/-- FIELD STATUS of a screen (R134). -/
def fieldStatusBody (sc : ScreenId) (s : State) : Reply × State :=
  match Yard.readField sc s.yard.carSlotsInUse s.yard with
  | (cars, y) =>
    let inState (st : CarState) : List Byte := u16 (cars.countP fun c => decide (c.state = st))
    (Reply.okWith (u16 y.capacity[sc] ++ u16 y.admittedCount[sc] ++ u16 (y.openBays sc) ++ inState .entering ++
      inState .onField ++ inState .parked ++ inState .leaving ++ u16 y.lastCar), { s with yard := y })

/-- FIELD STATUS (R134). -/
def execFieldStatus (tag screen : Nat) (s : State) : Host.Outcome State Fault Refusal :=
  request 0x22 tag (withFin 4 screen fieldStatusBody) s

end Sys2Proof.Machine
end

