-- ==== Sys2Proof/Machine/LaneRules.lean ====
section
/-! DEFINITION. The Gate Lane Controller's rules for one lane (R91 to R116). A lane shares with the other blocks only the
yard (the car table, the admitted counts and the used-ticket set), so each operation takes the lane and the yard. -/

namespace Sys2Proof.Machine

/-- One lane in the course of a step, with the yard it works on and what the other blocks lend it. -/
structure GateRun where
  id : LaneId
  lane : Lane
  yard : Yard
  site : Site
deriving DecidableEq, Repr

/-- Change the lane record. -/
def GateRun.mod (w : GateRun) (f : Lane → Lane) : GateRun :=
  { w with lane := f w.lane }

/-- Raise a report. -/
def GateRun.raise (w : GateRun) (r : Report) : GateRun :=
  { w with yard := w.yard.raise r }

/-- Raise one of the lane's counts (R112). -/
def GateRun.count (w : GateRun) (f : LaneCounts → LaneCounts) : GateRun :=
  w.mod fun l => { l with counts := f l.counts }

/-- What the reader shows the driver (R94). -/
def GateRun.answer (w : GateRun) (a : ReaderAnswer) : GateRun :=
  w.mod fun l => { l with answer := some a }

/-- Lanes 0 to 3 are entry lanes, 4 and 5 exit lanes. -/
def isExit (ln : LaneId) : Bool :=
  decide (4 ≤ ln.val)

/-! ## Detectors and barrier (R91 to R93) -/

/-- The effective occupancy of a loop (R91). -/
def Detector.isOccupied (d : Detector) : Bool :=
  decide (d ≠ .clear)

/-- The travel time of a barrier, fixed at 10 s (R92, R113). -/
def travelTime : Nat := 10000

/-- Command the barrier (R92): a change of command loads the travel timer. -/
def Lane.setBarrier (l : Lane) (b : Barrier) : Lane :=
  if l.command = b then l else { l with command := b, travel := some travelTime }

/-- Command the barrier UP. -/
def GateRun.lift (w : GateRun) : GateRun :=
  w.mod fun l => l.setBarrier .up

/-- Command the barrier DOWN, which a rule does only where it finds the barrier loop clear (R93). -/
def GateRun.lower (w : GateRun) : GateRun :=
  w.mod fun l => if Detector.isOccupied l.barrierLoop then l else l.setBarrier .down

/-- The reports of a detector's change (R91). -/
def GateRun.detectorReports (w : GateRun) (loop : LaneLoop) (old new : Detector) : GateRun :=
  if new = .fault then w.raise (.detectorFault w.id loop)
  else if old = .fault then w.raise (.detectorOk w.id loop new)
  else w

/-! ## Lane states -/

/-- The lane goes to CLOSED, its close-deferred flag cleared, and LANE_CLOSED is reported (R106). -/
def GateRun.close (w : GateRun) : GateRun :=
  (w.mod fun l => { l with state := .closed, closeDeferred := false }).raise (.laneClosed w.id)

/-- The lane enters EMPTY, or CLOSED in its place where a close is deferred (R104, R106). -/
def GateRun.enterEmpty (w : GateRun) : GateRun :=
  if w.lane.closeDeferred then w.close else w.mod fun l => { l with state := .empty }

/-- The lane enters PRESENT; an exit lane without a deferred close loads its exit read timer (R107). -/
def GateRun.enterPresent (w : GateRun) : GateRun :=
  w.mod fun l => { l with
    state := .present
    exitRead := if isExit w.id ∧ l.closeDeferred = false then loadSeconds l.exitReadSetting else l.exitRead }

/-- The lane goes to PRESENT or EMPTY by its arming loop (R95, R102, R104, R109). -/
def GateRun.enterIdle (w : GateRun) : GateRun :=
  if Detector.isOccupied w.lane.arming then w.enterPresent else w.enterEmpty

/-- The lane goes to OPENING: the barrier is lifted and the dwell timer loaded (R99, R101, R107, R108). -/
def GateRun.enterOpening (w : GateRun) (p : Pending) : GateRun :=
  w.lift.mod fun l => { l with
    state := .opening, pending := p, exitRead := none, dwell := loadSeconds l.dwellSetting }

/-- The lane goes to PASSING: the stall timer is loaded, the dwell and exit read timers stopped (R101, R105). -/
def GateRun.enterPassing (w : GateRun) : GateRun :=
  w.mod fun l => { l with
    state := .passing, stall := loadSeconds l.stallSetting, dwell := none, exitRead := none }

/-- A vehicle reaches the barrier loop without an admission (R96, R104). -/
def GateRun.tailgate (w : GateRun) : GateRun :=
  let left := w.lane.state
  ((w.enterPassing.mod fun l => { l with pending := .absent }).count fun c => { c with
    tailgates := satInc c.tailgates }).raise (.tailgate w.id left)

/-! ## Withdrawal (R102, R109) -/

/-- The pending admission or exit is given back. -/
def GateRun.giveBack (w : GateRun) : GateRun :=
  match w.lane.pending with
  | .admission car ticket sc =>
    { w with yard := (w.yard.removeEntering car sc).freeTicket ticket }
  | .exit car => { w with yard := w.yard.returnCar car }
  | .anonymous => w
  | .absent => w

/-- The car a pending admission or exit names. -/
def Pending.car? : Pending → Option Nat
  | .admission car _ _ => some car
  | .exit car => some car
  | .anonymous => none
  | .absent => none

/-- The car of a pending admission, which LANE_STALL names; an exit lane holds none (R105). -/
def Pending.admittedCar? : Pending → Option Nat
  | .admission car _ _ => some car
  | .exit _ => none
  | .anonymous => none
  | .absent => none

/-- The ticket a pending admission names. -/
def Pending.ticket? : Pending → Option Nat
  | .admission _ ticket _ => some ticket
  | .exit _ => none
  | .anonymous => none
  | .absent => none

/-- A withdrawal in OPENING (R102, R109). -/
def GateRun.withdraw (w : GateRun) (cause : WithdrawCause) : GateRun :=
  let p := w.lane.pending
  let w := w.lower.giveBack
  let w := (w.mod fun l => { l with pending := .absent, dwell := none }).count fun c => { c with
    withdrawals := satInc c.withdrawals }
  (w.raise (.withdrawn w.id p.car? p.ticket? cause)).enterIdle

/-! ## Crossing (R103, R105, R110) -/

/-- The settlement of a crossing by what the lane holds (R103, R110). -/
def GateRun.settleCrossing (w : GateRun) : GateRun :=
  match w.lane.pending with
  | .admission car _ _ =>
    let found := (w.yard.crossEntry car).1
    let w := ({ w with yard := (w.yard.crossEntry car).2 } : GateRun).count fun c => { c with
      crossings := satInc c.crossings }
    if found then w.raise (.entered w.id car) else w
  | .exit car =>
    ({ w with yard := w.yard.crossExit car } : GateRun).count fun c => { c with crossings := satInc c.crossings }
  | .anonymous => w.count fun c => { c with anonymous := satInc c.anonymous }
  | .absent => w

/-- The barrier loop clears under a vehicle: the crossing completes and the lane goes to CLOSING (R103, R105, R110). -/
def GateRun.completeCrossing (w : GateRun) : GateRun :=
  let stalled := decide (w.lane.state = .stalled)
  let w := w.settleCrossing.lower.mod fun l => { l with pending := .absent, stall := none, state := .closing }
  if stalled then w.raise (.laneStallClear w.id) else w

/-! ## Detector and feedback changes -/

/-- What the lane state machine does with a change of the arming loop's detector (R96, R101, R102, R107). -/
def GateRun.armingMoved (w : GateRun) (old new : Detector) : GateRun :=
  match w.lane.state with
  | .empty => if !Detector.isOccupied old && Detector.isOccupied new then w.enterPresent else w
  | .present =>
    if Detector.isOccupied old && !Detector.isOccupied new then
      (w.mod fun l => { l with exitRead := none }).enterEmpty
    else w
  | .opening =>
    if !Detector.isOccupied new then w.withdraw .backout
    else w.mod fun l => { l with dwell := loadSeconds l.dwellSetting }
  | .closed => w
  | .passing => w
  | .closing => w
  | .stalled => w

/-- The arming loop's detector changes (R91, R96). -/
def GateRun.arming (w : GateRun) (d : Detector) : GateRun :=
  let old := w.lane.arming
  if old = d then w
  else ((w.mod fun l => { l with arming := d }).detectorReports .arming old d).armingMoved old d

/-- What the lane state machine does when its barrier loop becomes occupied (R96, R101, R104). -/
def GateRun.barrierOccupied (w : GateRun) : GateRun :=
  match w.lane.state with
  | .empty => w.tailgate
  | .present => w.tailgate
  | .closing => w.tailgate
  | .opening => w.enterPassing
  | .closed => w
  | .passing => w
  | .stalled => w

/-- What the lane state machine does when its barrier loop becomes clear (R93, R103, R105). -/
def GateRun.barrierCleared (w : GateRun) : GateRun :=
  match w.lane.state with
  | .closed => w.lower
  | .passing => w.completeCrossing
  | .stalled => w.completeCrossing
  | .empty => w
  | .present => w
  | .opening => w
  | .closing => w

/-- The barrier loop's detector changes (R91, R93, R103): the barrier is raised over a vehicle before the lane state
machine acts. The detector's own report is raised before the lane's of the same change (the model's choice, log entry
18). -/
def GateRun.barrierLoop (w : GateRun) (d : Detector) : GateRun :=
  let old := w.lane.barrierLoop
  if old = d then w
  else
    let w := (w.mod fun l => { l with barrierLoop := d }).detectorReports .barrier old d
    if !Detector.isOccupied old && Detector.isOccupied d then w.lift.barrierOccupied
    else if Detector.isOccupied old && !Detector.isOccupied d then w.barrierCleared
    else w

/-- Whether a feedback is at the commanded position. -/
def Barrier.reached : Barrier → Feedback → Bool
  | .up, .up => true
  | .down, .down => true
  | _, _ => false

/-- The barrier's feedback changes (R92, R104). -/
def GateRun.feedback (w : GateRun) (f : Feedback) : GateRun :=
  let old := w.lane.feedback
  if old = f then w
  else
    let w := w.mod fun l => { l with feedback := f }
    let w :=
      if w.lane.command.reached f then w.mod fun l => { l with travel := none }
      else if w.lane.command.reached old ∧ w.lane.travel.isNone then w.raise (.barrierFault w.id w.lane.command f)
      else w
    if w.lane.state = .closing ∧ f = .down then w.enterIdle else w

/-! ## Timers -/

/-- The barrier travel timer expires (R92). -/
def GateRun.travelExpired (w : GateRun) : GateRun :=
  match w.lane.travel with
  | none => w
  | some _ =>
    let w := w.mod fun l => { l with travel := none }
    if w.lane.command.reached w.lane.feedback then w
    else w.raise (.barrierFault w.id w.lane.command w.lane.feedback)

/-- The dwell timer expires in OPENING (R102, R109). -/
def GateRun.dwellExpired (w : GateRun) : GateRun :=
  if w.lane.state = .opening ∧ w.lane.dwell.isSome then w.withdraw .dwell else w

/-- The stall timer expires in PASSING (R105). -/
def GateRun.stallExpired (w : GateRun) : GateRun :=
  if w.lane.state = .passing ∧ w.lane.stall.isSome then
    (w.mod fun l => { l with state := .stalled, stall := none }).raise (.laneStall w.id w.lane.pending.admittedCar?)
  else w

/-- The exit read timer expires in PRESENT: the exit is anonymous (R108). -/
def GateRun.exitReadExpired (w : GateRun) : GateRun :=
  if w.lane.state = .present ∧ w.lane.exitRead.isSome then (w.enterOpening .anonymous).answer .go else w

/-! ## Credentials (R94, R97 to R100, R107) -/

/-- Whether a credential's check flag is GOOD and its fields lie in their lists (R94). -/
def goodCredential (c : Credential) : Bool :=
  c.good && decide (c.ticket ≤ 99999999) && decide (c.cls ≤ 3) && decide (c.choice ≤ 4)

/-- A screen's free capacity (R97). -/
def Yard.freeCapacity (y : Yard) (sc : ScreenId) : Nat :=
  y.capacity[sc] - y.admittedCount[sc]

/-- The open screen with the most free capacity, the lowest-numbered of several (R97). -/
def GateRun.anyScreen (w : GateRun) : Option ScreenId :=
  (List.finRange 4).foldl (fun best sc =>
    if (w.site.screens[sc]).gateOpen then
      match best with
      | none => some sc
      | some b => if w.yard.freeCapacity b < w.yard.freeCapacity sc then some sc else some b
    else best) none

/-- The screen chosen for a credential (R97). -/
def GateRun.chooseScreen (w : GateRun) (choice : Nat) : Option ScreenId :=
  match finOf 4 choice with
  | some sc => some sc
  | none => w.anyScreen

/-- What check 1 of an admission reads: whether the ticket is in the used-ticket set or carried by a car record, and
whether a read met a parity fault (R98). -/
def Yard.ticketReads (y : Yard) (ticket : Nat) : (Bool × Bool) × Yard :=
  match y.readTicket Yard.drain ticket with
  | (rt, y) =>
    match Yard.searchCars Yard.drain (fun c => c.ticket == ticket) y.carSlotsInUse y with
    | (car, lost, y) => ((rt.record?.isSome || car.isSome, rt.faulty || lost), y)

/-- The first failing check of an admission, in the order of R98. -/
def GateRun.admissionFailure (w : GateRun) (sc : Option ScreenId) (used lost : Bool) : Option Refuse :=
  match used, sc with
  | true, _ => some .used
  | false, none => some .late
  | false, some sc =>
    if !(w.site.screens[sc]).gateOpen then some .late
    else if w.yard.capacity[sc] ≤ w.yard.admittedCount[sc] then some .full
    else if (lowestFree w.yard.store.cars TableId.car.size).isNone ∨
        (lowestFree w.yard.store.tickets TableId.ticket.size).isNone then some .full
    else if lost then some .storeError
    else if w.lane.closeDeferred then some .closed
    else none

/-- A ticket enters the used-ticket set in the lowest free slot (R99, R111). -/
def Yard.addTicket (y : Yard) (slot ticket : Nat) (ln : LaneId) (minute : Nat) : Yard :=
  y.setTicketSlot slot ((y.ticketSlot slot).write { ticket := ticket, lane := ln, minute := minute })

/-- An admission (R99). -/
def GateRun.admitCar (w : GateRun) (ticket : Nat) (cls : TicketClass) (sc : ScreenId) (carSlot ticketSlot : Nat) :
    GateRun :=
  let c := w.yard.createCar carSlot ticket cls sc w.id w.site.minute
  let w := { w with yard := c.2.addTicket ticketSlot ticket w.id w.site.minute }
  ((w.enterOpening (.admission c.1 ticket sc)).answer (.admitted sc)).raise (.admitted w.id c.1 ticket cls sc)

/-- Raise the refusal count of a reason (R100). -/
def LaneCounts.refusal (c : LaneCounts) (r : Refuse) : LaneCounts :=
  match r with
  | .used => { c with used := satInc c.used }
  | .late => { c with late := satInc c.late }
  | .full => { c with full := satInc c.full }
  | .storeError => { c with storeError := satInc c.storeError }
  | .closed => { c with closed := satInc c.closed }

/-- The admission decision (R97 to R100). -/
def GateRun.decideAdmission (w : GateRun) (ticket : Nat) (cls : TicketClass) (choice : Nat) : GateRun :=
  let sc := w.chooseScreen choice
  match w.yard.ticketReads ticket with
  | ((used, lost), y) =>
    let w := { w with yard := y }
    match w.admissionFailure sc used lost, sc, lowestFree y.store.cars TableId.car.size,
        lowestFree y.store.tickets TableId.ticket.size with
    | none, some sc, some i, some j => w.admitCar ticket cls sc i j
    | some r, _, _, _ =>
      ((w.answer (.refusedFor r)).count fun c => c.refusal r).raise (.refuse w.id ticket cls choice sc r)
    | none, _, _, _ => w

/-- An exit read (R106, R107). -/
def GateRun.readExit (w : GateRun) (ticket : Nat) : GateRun :=
  if w.lane.closeDeferred then w.answer .laneClosed
  else
    match w.yard.exitRead ticket with
    | (some car, y) => (({ w with yard := y } : GateRun).enterOpening (.exit car)).answer .go
    | (none, y) => ({ w with yard := y } : GateRun).answer .notFound

/-- A credential record reaches the part (R94). -/
def GateRun.credential (w : GateRun) (c : Credential) : GateRun :=
  match goodCredential c, TicketClass.of c.cls with
  | true, some cls =>
    match w.lane.state with
    | .present => if isExit w.id then w.readExit c.ticket else w.decideAdmission c.ticket cls c.choice
    | .closed => w.answer .laneClosed
    | .empty => w.answer .reRead
    | .opening => w.answer .reRead
    | .passing => w.answer .reRead
    | .closing => w.answer .reRead
    | .stalled => w.answer .reRead
  | _, _ => (w.answer .reRead).count fun k => { k with readerErrors := satInc k.readerErrors }

/-! ## Requests (R95, R106) -/

/-- LANE OPEN in RUN (R95). -/
def GateRun.openLane (w : GateRun) : GateRun :=
  if w.lane.state = .closed then
    if Detector.isOccupied w.lane.barrierLoop then w.enterPassing else w.enterIdle
  else w.mod fun l => { l with closeDeferred := false }

/-- LANE CLOSE (R106): the answer tells whether the close is deferred. -/
def GateRun.closeLane (w : GateRun) : Bool × GateRun :=
  match w.lane.state with
  | .closed => (false, w)
  | .empty => (false, w.close)
  | .present => (true, w.mod fun l => { l with closeDeferred := true, exitRead := none })
  | .opening => (true, w.mod fun l => { l with closeDeferred := true })
  | .passing => (true, w.mod fun l => { l with closeDeferred := true })
  | .closing => (true, w.mod fun l => { l with closeDeferred := true })
  | .stalled => (true, w.mod fun l => { l with closeDeferred := true })

/-! ## Resets (R115, R116) -/

/-- A lane after a device reset or power-on (R115): detectors and feedback are read as they stand. -/
def Lane.deviceReset (l : Lane) : Lane :=
  { Lane.reset with
    arming := l.arming, barrierLoop := l.barrierLoop, feedback := l.feedback,
    command := if Detector.isOccupied l.barrierLoop then .up else .down }

/-- A lane at the night's end (R116). -/
def Lane.closeNight (l : Lane) : Lane :=
  { l with counts := LaneCounts.zero }

end Sys2Proof.Machine
end

