-- ==== Sys2Proof/Machine/Gate.lean ====
section
/-! DEFINITION. The commands of Gate Lanes and Admission (R91 to R116): detectors, barrier, timers and reader of a lane, and
the five requests of the chapter. -/

namespace Sys2Proof.Machine

/-- Let one lane take an operation. -/
def State.onLane (s : State) (ln : LaneId) (f : GateRun → GateRun) : State :=
  let w := f { id := ln, lane := s.lanes[ln], yard := s.yard, site := s.site }
  { s with lanes := s.lanes.set ln w.lane, yard := w.yard }

/-! ## Events of the equipment -/

/-- ARMING_LOOP_CHANGE (R91, R96, R101, R102, R107, R109). -/
def execArmingLoopChange (ln : LaneId) (d : Detector) (s : State) : Host.Outcome State Fault Refusal :=
  event (fun s => s.onLane ln fun w => w.arming d) s

/-- BARRIER_LOOP_CHANGE (R91, R93, R96, R101, R103 to R105, R110). -/
def execBarrierLoopChange (ln : LaneId) (d : Detector) (s : State) : Host.Outcome State Fault Refusal :=
  event (fun s => s.onLane ln fun w => w.barrierLoop d) s

/-- BARRIER_FEEDBACK_CHANGE (R92, R104, R106). -/
def execBarrierFeedbackChange (ln : LaneId) (f : Feedback) (s : State) : Host.Outcome State Fault Refusal :=
  event (fun s => s.onLane ln fun w => w.feedback f) s

/-- BARRIER_TRAVEL_EXPIRY (R92). -/
def execBarrierTravelExpiry (ln : LaneId) (s : State) : Host.Outcome State Fault Refusal :=
  event (fun s => s.onLane ln GateRun.travelExpired) s

/-- CREDENTIAL (R94, R97 to R100, R107). -/
def execCredential (ln : LaneId) (c : Credential) (s : State) : Host.Outcome State Fault Refusal :=
  event (fun s => s.onLane ln fun w => w.credential c) s

/-- DWELL_EXPIRY (R102, R109). -/
def execDwellExpiry (ln : LaneId) (s : State) : Host.Outcome State Fault Refusal :=
  event (fun s => s.onLane ln GateRun.dwellExpired) s

/-- STALL_TIMER_EXPIRY (R105). -/
def execStallTimerExpiry (ln : LaneId) (s : State) : Host.Outcome State Fault Refusal :=
  event (fun s => s.onLane ln GateRun.stallExpired) s

/-- EXIT_READ_EXPIRY (R108). -/
def execExitReadExpiry (ln : LaneId) (s : State) : Host.Outcome State Fault Refusal :=
  event (fun s => s.onLane ln GateRun.exitReadExpired) s

/-! ## Requests -/

/-- LANE OPEN (R95). -/
def execLaneOpen (tag lane : Nat) (s : State) : Host.Outcome State Fault Refusal :=
  request 0x17 tag (withFin 6 lane fun ln => inRun fun s => done (s.onLane ln GateRun.openLane)) s

/-- LANE CLOSE of a lane (R106). -/
def laneCloseBody (ln : LaneId) (s : State) : Reply × State :=
  let w := GateRun.closeLane { id := ln, lane := s.lanes[ln], yard := s.yard, site := s.site }
  (if w.1 then Reply.okNote .deferred else Reply.ok, s.onLane ln fun w => w.closeLane.2)

/-- LANE CLOSE (R106). -/
def execLaneClose (tag lane : Nat) (s : State) : Host.Outcome State Fault Refusal :=
  request 0x18 tag (withFin 6 lane laneCloseBody) s

/-- LANE SET of a lane (R113). The exit read setting is a field that an entry lane has not (R203): one sent for an entry
lane is disregarded, and an exit lane's request without it is malformed (log entry 15). -/
def laneSetBody (ln : LaneId) (dwell stall : Nat) (exitRead : Option Nat) (s : State) : Reply × State :=
  let d := clampTimer 5 120 dwell
  let t := clampTimer 30 600 stall
  if isExit ln then
    match exitRead with
    | some x =>
      let e := clampTimer 2 60 x
      (Reply.setting (decide (d ≠ dwell ∨ t ≠ stall ∨ e ≠ x)) (u8 d ++ u16 t ++ opt u8 (some e)),
        s.onLane ln fun w => w.mod fun l => { l with dwellSetting := d, stallSetting := t, exitReadSetting := e })
    | none => malformed s
  else
    (Reply.setting (decide (d ≠ dwell ∨ t ≠ stall)) (u8 d ++ u16 t ++ opt u8 none),
      s.onLane ln fun w => w.mod fun l => { l with dwellSetting := d, stallSetting := t })

/-- LANE SET (R113). -/
def execLaneSet (tag lane dwell stall : Nat) (exitRead : Option Nat) (s : State) :
    Host.Outcome State Fault Refusal :=
  request 0x19 tag (withFin 6 lane fun ln => laneSetBody ln dwell stall exitRead) s

/-- What a lane holds, in LANE STATUS (R114): an anonymous exit is carried as a car that is absent. -/
def Pending.status : Pending → List Byte
  | .absent => [0x00#8]
  | .admission car ticket sc => [0x01#8] ++ u16 car ++ u32 ticket ++ u8 sc
  | .exit car => [0x01#8] ++ opt u16 (some car)
  | .anonymous => [0x01#8] ++ opt u16 none

/-- The counts of R112, in their order. -/
def LaneCounts.status (c : LaneCounts) : List Byte :=
  u16 c.crossings ++ u16 c.used ++ u16 c.late ++ u16 c.full ++ u16 c.storeError ++ u16 c.closed ++ u16 c.withdrawals ++
    u16 c.tailgates ++ u16 c.anonymous ++ u16 c.readerErrors

/-- The fields of LANE STATUS (R114). Only an exit lane has an exit read timer and its setting, which are absent for an
entry lane (R203). -/
def Lane.status (exit : Bool) (l : Lane) : List Byte :=
  u8 l.state.ctorIdx ++ u8 l.arming.ctorIdx ++ u8 l.barrierLoop.ctorIdx ++ u8 l.command.ctorIdx ++
    u8 l.feedback.ctorIdx ++ flag l.closeDeferred ++ l.pending.status ++ opt u8 (l.dwell.map ceilSeconds) ++
    opt u16 (l.stall.map ceilSeconds) ++ opt u8 (l.travel.map ceilSeconds) ++
    opt u8 (if exit then l.exitRead.map ceilSeconds else none) ++ l.counts.status ++ u8 l.dwellSetting ++
    u16 l.stallSetting ++ opt u8 (if exit then some l.exitReadSetting else none) ++ u8 10

/-- LANE STATUS (R114). -/
def execLaneStatus (tag lane : Nat) (s : State) : Host.Outcome State Fault Refusal :=
  request 0x1A tag (withFin 6 lane fun ln s => (Reply.okWith ((s.lanes[ln]).status (isExit ln)), s)) s

/-- TICKET QUERY (R111): one presence byte tells whether the ticket is in the set and stands before the lane and the
minute (the model's choice, log entry 15). -/
def ticketQueryBody (ticket : Nat) (s : State) : Reply × State :=
  match s.yard.readTicket Yard.drain ticket with
  | (rt, y) =>
    match Yard.searchCars Yard.drain (fun c => c.ticket == ticket) y.carSlotsInUse y with
    | (car, lost, y) =>
      (if rt.faulty || lost then Reply.refuse .storeError
       else Reply.okWith (opt (fun t : Ticket => u8 t.lane ++ minuteBytes t.minute) rt.record? ++
         opt u16 (car.map Car.number)),
       { s with yard := y })

/-- TICKET QUERY (R111): a number above 99,999,999 is looked up like any other (the model's choice, log entry 10). -/
def execTicketQuery (tag ticket : Nat) (s : State) : Host.Outcome State Fault Refusal :=
  request 0x1B tag (ticketQueryBody ticket) s

end Sys2Proof.Machine
end

