-- ==== Sys2Proof/Machine/StoreTest.lean ====
section
/-! DEFINITION. The commands of The Record Store (R190 to R200): the slot test's visit and the three requests of the
chapter, with the store's part in the resets. -/

namespace Sys2Proof.Machine

/-! ## The slot test (R196 to R198) -/

/-- What a visit found (R197). -/
inductive VisitEnd where
  | passedOver | kept | returned | quarantined
deriving DecidableEq, Repr

/-- A visit to one slot (R197): a slot whose memory fails fails the test, and one that passes is left holding nothing
with good parity. The visit is whole within its step, so no other operation meets a slot under test. -/
def Slot.visit {ρ : Type} (sl : Slot ρ) : VisitEnd × Slot ρ :=
  let passed : Slot ρ := { state := .free, badFirst := false, badSecond := false, failing := sl.failing }
  match sl.state with
  | .inUse _ => (.passedOver, sl)
  | .free => if sl.failing then (.quarantined, sl.quarantine) else (.kept, passed)
  | .quarantined => if sl.failing then (.kept, sl) else (.returned, passed)
  | .underTest true => if sl.failing then (.kept, sl.quarantine) else (.returned, passed)
  | .underTest false => if sl.failing then (.quarantined, sl.quarantine) else (.kept, passed)

/-- Visit a slot of a table. -/
def Yard.visitSlot (y : Yard) (t : TableId) (i : Nat) : VisitEnd × Yard :=
  match t with
  | .car => ((y.carSlot i).visit.1, y.setCarSlot i (y.carSlot i).visit.2)
  | .bay => ((y.baySlot i).visit.1, y.setBaySlot i (y.baySlot i).visit.2)
  | .order => ((y.orderSlot i).visit.1, y.setOrderSlot i (y.orderSlot i).visit.2)
  | .menu => ((y.menuSlot i).visit.1, y.setMenuSlot i (y.menuSlot i).visit.2)
  | .ticket => ((y.ticketSlot i).visit.1, y.setTicketSlot i (y.ticketSlot i).visit.2)

/-- The test's counts after a visit, with the cursor on the next slot (R196, R197). -/
def TestRun.advance (t : TestRun) (e : VisitEnd) : TestRun :=
  let t := { t with cursor := t.cursor + 1 }
  match e with
  | .passedOver => { t with passed := t.passed + 1 }
  | .kept => { t with visited := t.visited + 1 }
  | .returned => { t with visited := t.visited + 1, returned := t.returned + 1 }
  | .quarantined => { t with visited := t.visited + 1, quarantined := t.quarantined + 1 }

/-- Store the running test. -/
def Yard.setTest (y : Yard) (t : Option TestRun) : Yard :=
  { y with store := { y.store with test := t } }

/-- The next visit of the running test; past the last slot the test ends and is reported (R197, R198). -/
def Yard.testVisit (y : Yard) : Yard :=
  match y.store.test with
  | none => y
  | some t =>
    let v := y.visitSlot t.table t.cursor
    let t := t.advance v.1
    if t.cursor < t.table.size then v.2.setTest (some t)
    else (v.2.setTest none).raise (.storeTestDone t.table t.visited t.passed t.returned t.quarantined)

/-- STORE_TEST_VISIT (R197, R198). -/
def execStoreTestVisit (s : State) : Host.Outcome State Fault Refusal :=
  event (fun s => s.onYard Yard.testVisit) s

/-- A test at its start (R196). -/
def TestRun.fresh (t : TableId) : TestRun :=
  { table := t, cursor := 0, visited := 0, passed := 0, returned := 0, quarantined := 0 }

/-- STORE TEST of a table (R196). -/
def storeTestBody (t : TableId) (s : State) : Reply × State :=
  if s.yard.store.test.isSome then refused .busy s
  else if t = .menu ∧ s.link.part = .run then refused .state s
  else done (s.onYard fun y => y.setTest (some (TestRun.fresh t)))

/-- STORE TEST (R196). -/
def execStoreTest (tag table : Nat) (s : State) : Host.Outcome State Fault Refusal :=
  request 0x36 tag (fun s =>
    match TableId.of table with
    | some t => storeTestBody t s
    | none => malformed s) s

/-! ## Status and clearing (R199) -/

/-- The numbers of the slots of a table that are quarantined, in rising order. -/
def quarantinedSlots {ρ : Type} (t : Tab (Slot ρ)) : List Nat :=
  (t.filter fun e => e.2.isQuarantined).map Prod.fst

/-- A table's part of STORE STATUS: slots in use, free, quarantined and under test, then the list of quarantined
slots (R199), each number in the bytes that the table's size asks for (R203). -/
def tableStatus {ρ : Type} (t : Tab (Slot ρ)) (size : Nat) : List Field :=
  let used := (inUse t).length
  let quar := (quarantinedSlots t).length
  let out := t.countP fun e => e.2.isOut
  [.raw (sized size used ++ sized size (size - (used + out)) ++ sized size quar ++ sized size (out - quar)),
    .list (if size ≤ 255 then 1 else 2) ((quarantinedSlots t).map (sized (size - 1)))]

/-- The running test in STORE STATUS. -/
def TestRun.status (t : TestRun) : List Byte :=
  u8 t.table.ctorIdx ++ u16 t.cursor ++ u16 t.visited ++ u16 t.passed ++ u16 t.returned ++ u16 t.quarantined

/-- STORE STATUS (R199). -/
def storeStatusBody (s : State) : Reply × State :=
  let st := s.yard.store
  ({ result := .ok, indication := .none,
     fields := [.raw (opt (fun l : TableId × Nat × Halves => u8 l.1.ctorIdx ++ u16 l.2.1 ++ u8 l.2.2.ctorIdx) st.latch ++
         u8 st.faultCount)] ++
       tableStatus st.cars TableId.car.size ++ tableStatus st.bays TableId.bay.size ++
       tableStatus st.orders TableId.order.size ++ tableStatus st.menu TableId.menu.size ++
       tableStatus st.tickets TableId.ticket.size ++ [.raw (opt TestRun.status st.test)] }, s)

/-- STORE STATUS (R199). -/
def execStoreStatus (tag : Nat) (s : State) : Host.Outcome State Fault Refusal :=
  request 0x37 tag storeStatusBody s

/-- STORE CLEAR (R199). -/
def execStoreClear (tag : Nat) (s : State) : Host.Outcome State Fault Refusal :=
  request 0x38 tag (fun s => done (s.onYard fun y => { y with
    store := { y.store with latch := none, faultCount := 0 } })) s

/-! ## Resets (R200) -/

/-- A slot after a device reset (R198, R200): a quarantined slot stays so, one under test returns to what it was, any
other becomes free. -/
def Slot.deviceReset {ρ : Type} (sl : Slot ρ) : Slot ρ :=
  match sl.state with
  | .quarantined => sl
  | .underTest true => sl.quarantine
  | .underTest false => sl.release
  | .free => sl
  | .inUse _ => sl.release

/-- A slot after power-on: free (R200). -/
def Slot.powerOn {ρ : Type} (sl : Slot ρ) : Slot ρ :=
  { state := .free, badFirst := false, badSecond := false, failing := sl.failing }

/-- A slot emptied at the night's end (R200): one in use becomes free. -/
def Slot.emptied {ρ : Type} (sl : Slot ρ) : Slot ρ :=
  match sl.state with
  | .inUse _ => sl.release
  | .free => sl
  | .quarantined => sl
  | .underTest _ => sl

/-- The store after a device reset (R200). -/
def Store.deviceReset (st : Store) : Store :=
  { Store.reset with
    cars := Tab.mapEntries Slot.blank (fun _ => Slot.deviceReset) st.cars
    bays := Tab.mapEntries Slot.blank (fun _ => Slot.deviceReset) st.bays
    orders := Tab.mapEntries Slot.blank (fun _ => Slot.deviceReset) st.orders
    menu := Tab.mapEntries Slot.blank (fun _ => Slot.deviceReset) st.menu
    tickets := Tab.mapEntries Slot.blank (fun _ => Slot.deviceReset) st.tickets }

/-- The store after power-on (R200). -/
def Store.powerOn (st : Store) : Store :=
  { Store.reset with
    cars := Tab.mapEntries Slot.blank (fun _ => Slot.powerOn) st.cars
    bays := Tab.mapEntries Slot.blank (fun _ => Slot.powerOn) st.bays
    orders := Tab.mapEntries Slot.blank (fun _ => Slot.powerOn) st.orders
    menu := Tab.mapEntries Slot.blank (fun _ => Slot.powerOn) st.menu
    tickets := Tab.mapEntries Slot.blank (fun _ => Slot.powerOn) st.tickets }

/-- The number of slots held quarantined, over all tables (R210). -/
def Store.quarantinedCount (st : Store) : Nat :=
  (quarantinedSlots st.cars).length + (quarantinedSlots st.bays).length + (quarantinedSlots st.orders).length +
    (quarantinedSlots st.menu).length + (quarantinedSlots st.tickets).length

end Sys2Proof.Machine
end

