-- ==== Sys2Proof/Machine/HostLink.lean ====
section
/-! DEFINITION. The commands of The Host Link, Reports and Start-Up (R202 to R211): frames turned away, the transmitter, the
night, and the resets of the whole part. The receiver is in Frames.lean. -/

namespace Sys2Proof.Machine

/-! ## Frames that are not requests (R202, R204) -/

/-- UNKNOWN_KIND (R202): answered UNKNOWN, nothing changed. With a request's KIND it is that request's malformed frame.
-/
def execUnknownKind (kind tag : Nat) (s : State) : Host.Outcome State Fault Refusal :=
  request kind tag malformed s

/-- A good frame that finds no room for a request (R204, R210); with room the command has nothing to turn away. -/
def State.turnAway (s : State) (kind tag : Nat) : State :=
  if s.link.requests < 8 ∧ s.link.replies.length < 16 then s else s.request kind tag malformed

/-- REQUEST_BUSY (R204). -/
def execRequestBusy (kind tag : Nat) (s : State) : Host.Outcome State Fault Refusal :=
  event (fun s => s.turnAway kind tag) s

/-! ## The device reset and power-on (R210) -/

/-- Every block in its device reset state (R34, R64, R90, R115, R135, R158, R175, R189, R200, R210), with READY raised
with the cause HOST and the quarantined slots. -/
def State.deviceReset (s : State) : State :=
  { pending := s.pending
    hostLine := s.hostLine
    screens := s.screens.map Screen.deviceReset
    sound := Vector.replicate 4 Sound.reset
    lanes := s.lanes.map Lane.deviceReset
    yard := { Yard.reset with
      loops := s.yard.loops.map LoopRec.deviceReset
      store := s.yard.store.deviceReset
      raised := [.ready .host s.yard.store.deviceReset.quarantinedCount]
      freeIndex := s.yard.freeIndex }
    link := { Link.reset with tx := .idle } }

/-- Every block in its power-on state, with READY raised with the cause POWER and a count of 0 (R210). -/
def State.powerOn (s : State) : State :=
  { pending := s.pending
    hostLine := s.hostLine
    screens := s.screens.map Screen.deviceReset
    sound := Vector.replicate 4 Sound.reset
    lanes := s.lanes.map Lane.deviceReset
    yard := { Yard.reset with
      loops := s.yard.loops.map LoopRec.deviceReset
      store := s.yard.store.powerOn
      raised := [.ready .power 0]
      freeIndex := s.yard.freeIndex }
    link := { Link.reset with tx := .idle } }

/-- DEVICE_RESET (R210). -/
def execDeviceReset (s : State) : Host.Outcome State Fault Refusal :=
  event State.deviceReset s

/-- POWER_ON (R210). -/
def execPowerOn (s : State) : Host.Outcome State Fault Refusal :=
  event State.powerOn s

/-! ## The transmitter (R204, R207, R210) -/

/-- The last byte of a frame has been sent: a reply's place leaves the list, and the reply of a RESET DEVICE is followed
by the device reset. -/
def State.frameSent (s : State) : State :=
  match s.link.tx, s.link.replies with
  | .idle, _ => s
  | .report _ _, _ => { s with link := { s.link with tx := .idle } }
  | .reply, [] => { s with link := { s.link with tx := .idle } }
  | .reply, p :: ps =>
    if p.isReset then s.deviceReset else { s with link := { s.link with tx := .idle, replies := ps } }

/-- LINK_FRAME_SENT (R204, R207, R210). -/
def execLinkFrameSent (s : State) : Host.Outcome State Fault Refusal :=
  event State.frameSent s

/-! ## The night (R208, R209) -/

/-- Whether a test of the menu is running (R208). -/
def Yard.menuTest (y : Yard) : Bool :=
  match y.store.test with
  | some t => decide (t.table = .menu)
  | none => false

/-- OPEN NIGHT (R208). -/
def openNightBody (s : State) : Reply × State :=
  if s.link.part = .run then refused .state s
  else if s.yard.menuTest then refused .busy s
  else done { s with link := { s.link with part := .run, clock := 0 } }

/-- OPEN NIGHT (R208). -/
def execOpenNight (tag : Nat) (s : State) : Host.Outcome State Fault Refusal :=
  request 0x39 tag openNightBody s

/-- A bay at the night's end (R136): no occupant, and a speaker that was ON set OFF and marked. -/
def Yard.closeNightBay (y : Yard) (bay : Nat) : Yard :=
  match y.readBay Yard.drain bay with
  | (.whole _, y) => (y.modBay bay fun b => { b with occupant := none }).setSpeaker bay false
  | (_, y) => y

/-- An item at the night's end (R159): the stock on hand is the next night's loaded total. -/
def MenuItem.closeNight (m : MenuItem) : MenuItem :=
  { m with loaded := m.remaining, pending := 0, sold := 0, waste := 0 }

/-- An item's record at the night's end, read and written back. -/
def Yard.closeNightItem (y : Yard) (i : Nat) : Yard :=
  (y.moveTally MenuItem.closeNight i).2

/-- The car table and the used-ticket set at the night's end (R116, R136). -/
def Yard.closeNightCars (y : Yard) : Yard :=
  let y := { y with
    store := { y.store with
      tickets := Tab.mapEntries Slot.blank (fun _ => Slot.emptied) y.store.tickets
      cars := Tab.mapEntries Slot.blank (fun _ => Slot.emptied) y.store.cars }
    limits := []
    admittedCount := Vector.replicate 4 0
    lastCar := 0 }
  let y := ((inUse y.store.bays).map Prod.fst).foldl Yard.closeNightBay y
  (List.finRange 4).foldl (fun y lp => y.placeAllSpeakers Yard.drain lp) y

/-- The orders, the menu, the queues, the ready list and the runners at the night's end (R159, R176, R189), with every
bay's resting lamp marked and placed. -/
def Yard.closeNightOrders (y : Yard) : Yard :=
  let y := { y with
    store := { y.store with orders := Tab.mapEntries Slot.blank (fun _ => Slot.emptied) y.store.orders }
    held := Vector.replicate 4 []
    queues := Vector.replicate 6 []
    readyList := []
    rowCounts := []
    runners := Vector.replicate 32 Runner.reset
    lastOrder := 0
    lampMarks := (List.range 1024).map fun b => (b, true) }
  let y := ((inUse y.store.menu).map Prod.fst).foldl Yard.closeNightItem y
  (List.finRange 4).foldl (fun y lp => y.placeAllLamps Yard.drain lp) y

/-- The lowest-numbered screen not in DARK, ENDED or HALTED (R209). -/
def State.openShow (s : State) : Option ScreenId :=
  (List.finRange 4).find? fun sc =>
    decide (s.screens[sc].phase ≠ .dark) && decide (s.screens[sc].phase ≠ .ended) &&
      decide (s.screens[sc].phase ≠ .halted)

/-- The first lane that is not CLOSED (R209). -/
def State.openLane (s : State) : Option LaneId :=
  (List.finRange 6).find? fun ln => decide (s.lanes[ln].state ≠ .closed)

/-- The night's-end changes of every block (R209). What they report is stamped with the night clock as it still runs
(R206); then the clock stops at 0 and the part is in SETUP. -/
def State.closeNight (s : State) : State :=
  let s := State.flush { s with
    lanes := s.lanes.map Lane.closeNight
    yard := s.yard.closeNightCars.closeNightOrders }
  { s with link := { s.link with part := .setup, clock := 0 } }

/-- CLOSE NIGHT (R209): a refusal in RUN names the first screen and the first lane in the way. The refusal STATE in
SETUP carries no fields: R209 gives them with the refusal of its RUN condition, and that they are left out in SETUP is
the model's choice (log entry 60). -/
def closeNightBody (s : State) : Reply × State :=
  if s.link.part = .setup then refused .state s
  else
    match s.openShow, s.openLane with
    | none, none => done s.closeNight
    | sc, ln =>
      ({ result := .state, indication := .none,
         fields := [.raw (opt (fun k : ScreenId => u8 k) sc ++ opt (fun k : LaneId => u8 k) ln)] }, s)

/-- CLOSE NIGHT (R209). -/
def execCloseNight (tag : Nat) (s : State) : Host.Outcome State Fault Refusal :=
  request 0x3A tag closeNightBody s

/-- RESET DEVICE (R210): answered OK; the reset is made when the last byte of the reply has been sent. -/
def execResetDevice (tag : Nat) (s : State) : Host.Outcome State Fault Refusal :=
  request resetDeviceKind tag done s

/-- LINK STATUS (R211): the request places count the request's own. -/
def linkStatusBody (s : State) : Reply × State :=
  let l := s.link
  (Reply.okWith (u8 l.part.ctorIdx ++ u32 l.clock ++ u16 l.linkErrors ++ u16 l.lostCount ++ flag l.lost ++
    u8 l.reports.length ++ u8 (l.requests + 1) ++ u8 l.busies), s)

/-- LINK STATUS (R211). -/
def execLinkStatus (tag : Nat) (s : State) : Host.Outcome State Fault Refusal :=
  request 0x3C tag linkStatusBody s

end Sys2Proof.Machine
end

