-- ==== Sys2Proof/Machine/Loops.lean ====
section
/-! DEFINITION. The commands of Post Loops (R65 to R90): the transaction on a loop, the timers, lending, and the eight
requests of the chapter. -/

namespace Sys2Proof.Machine

/-! ## Events of the equipment -/

/-- TRANSACTION_START (R65, R73, R74). -/
def execTransactionStart (lp : ScreenId) (s : State) : Host.Outcome State Fault Refusal :=
  event (fun s => s.onLoop lp LoopRec.start) s

/-- HEADER_SENT (R65, R66). -/
def execHeaderSent (lp : ScreenId) (s : State) : Host.Outcome State Fault Refusal :=
  event (fun s => s.onLoop lp LoopRec.openWindow) s

/-- LOOP_RESPONSE (R66 to R71, R77, R80 to R84). -/
def execLoopResponse (lp : ScreenId) (bytes : List Byte) (s : State) : Host.Outcome State Fault Refusal :=
  event (fun s => s.onYard fun y => y.takeResponse s.site lp bytes) s

/-- RESPONSE_WINDOW_EXPIRY (R66, R69, R70, R77). -/
def execResponseWindowExpiry (lp : ScreenId) (s : State) : Host.Outcome State Fault Refusal :=
  event (fun s => s.onYard fun y => y.windowExpired s.site lp) s

/-- LOOP_STRAY_BYTES (R68): ignored. -/
def execLoopStrayBytes (_lp : ScreenId) (_bytes : List Byte) (s : State) : Host.Outcome State Fault Refusal :=
  event (fun s => s) s

/-- RECOVERY_TIMER_EXPIRY (R71). -/
def execRecoveryTimerExpiry (lp : ScreenId) (post : Nat) (s : State) : Host.Outcome State Fault Refusal :=
  event (fun s => s.onLoop lp fun l => l.recoveryExpired post) s

/-- LEND_REQUEST_RISE (R84). -/
def execLendRequestRise (lp : ScreenId) (s : State) : Host.Outcome State Fault Refusal :=
  event (fun s => s.onYard fun y => y.requestRises lp) s

/-- LEND_REQUEST_FALL (R84, R86). -/
def execLendRequestFall (lp : ScreenId) (s : State) : Host.Outcome State Fault Refusal :=
  event (fun s => s.onYard fun y => y.requestFalls lp) s

/-- LEND_TIMER_EXPIRY (R86). -/
def execLendTimerExpiry (lp : ScreenId) (s : State) : Host.Outcome State Fault Refusal :=
  event (fun s => s.onYard fun y => y.lendExpired lp) s

/-- LENT_RESPONSE_HEARD (R85). -/
def execLentResponseHeard (lp : ScreenId) (bytes : List Byte) (s : State) : Host.Outcome State Fault Refusal :=
  event (fun s => s.onYard fun y => y.hear s.site lp bytes) s

/-! ## Requests -/

/-- A list of flags, each 0 or 1; none where one is not (R202). -/
def flagsOf : List Nat → Option (List Bool)
  | [] => some []
  | n :: ns =>
    match flagOf n, flagsOf ns with
    | some b, some bs => some (b :: bs)
    | _, _ => none

/-- POST MAP (R72). -/
def execPostMap (tag loop : Nat) (presence : List Nat) (s : State) : Host.Outcome State Fault Refusal :=
  request 0x0F tag (withFin 4 loop fun lp s =>
    match flagsOf presence with
    | some bits =>
      if bits.length = 128 then done (s.onYard fun y => y.postMap lp bits) else malformed s
    | none => malformed s) s

/-- SEND of a well-formed message (R78). -/
def sendBody (lp : ScreenId) (post : Nat) (kind : SlotKind) (v0 v1 : Option Nat) (prio : Nat) (s : State) :
    Reply × State :=
  match (s.yard.loops[lp]).freeSlot? with
  | none => refused .full s
  | some i =>
    let it : Item := { post := post, kind := kind, v0 := v0, v1 := v1, prio := min prio 3, origin := .host }
    ({ result := if 3 < prio then .clamped else .ok, indication := .none, fields := [.raw (u8 i)] },
      s.onYard fun y => (y.putItem lp it).2)

/-- SEND (R75, R78). A value of a side that is not enabled is held to its kind's list too. -/
def execSend (tag loop post kind enable0 value0 enable1 value1 prio : Nat) (s : State) :
    Host.Outcome State Fault Refusal :=
  request 0x10 tag (withFin 4 loop fun lp s =>
    match SlotKind.of kind, flagOf enable0, flagOf enable1 with
    | some k, some e0, some e1 =>
      if k.admits value0 && k.admits value1 then
        inRange (decide (post ≤ 127) && (e0 || e1))
          (sendBody lp post k (if e0 then some value0 else none) (if e1 then some value1 else none) prio) s
      else malformed s
    | _, _, _ => malformed s) s

/-- SEND ABORT of a slot (R79). -/
def abortBody (lp : ScreenId) (i : Fin 16) (s : State) : Reply × State :=
  match ((s.yard.loops[lp]).slots[i]).use with
  | .free => refused .noSuch s
  | .inFlight => refused .tooLate s
  | .pending =>
    done (s.onYard fun y => (y.modLoop lp fun l => l.setSlot i OutSlot.empty).afterFree Yard.drain lp)

/-- SEND ABORT (R76, R79). -/
def execSendAbort (tag loop slot : Nat) (s : State) : Host.Outcome State Fault Refusal :=
  request 0x11 tag (withFin 4 loop fun lp s =>
    match finOf 16 slot with
    | some i => abortBody lp i s
    | none => refused .range s) s

/-- FIELD SUMMARY (R83): the rows are listed in rising order and the set is emptied. -/
def execFieldSummary (tag loop : Nat) (s : State) : Host.Outcome State Fault Refusal :=
  request 0x12 tag (withFin 4 loop fun lp s =>
    ({ result := .ok, indication := .none,
       fields := [.list 1 ((s.yard.loops[lp]).rows.map fun e => u8 e.1)] },
      s.onLoop lp fun l => { l with rows := [] })) s

/-- LOOP SET (R87). -/
def execLoopSet (tag loop window lendAllowed lend : Nat) (s : State) : Host.Outcome State Fault Refusal :=
  request 0x13 tag (withFin 4 loop fun lp s =>
    match flagOf lendAllowed with
    | some allow =>
      let w := clampTimer 5 100 window
      let t := clampTimer 60 3600 lend
      (Reply.setting (decide (w ≠ window ∨ t ≠ lend)) (u8 w ++ flag allow ++ u16 t),
        s.onLoop lp fun l => { l with windowSetting := w, lendAllowed := allow, lendSetting := t })
    | none => malformed s) s

/-- A slot in LOOP STATUS: its state and the fields of what it holds, each absent for a FREE slot, and the value of a
side absent also where the side is not enabled (R88, R203; log entry 15). -/
def OutSlot.status (sl : OutSlot) : List Byte :=
  let held := decide (sl.use ≠ .free)
  u8 sl.use.ctorIdx ++ presentFields held [u8 sl.post, u8 sl.kind.ctorIdx] ++
    sideBytes (if held then sl.v0 else none) (if held then sl.v1 else none) ++
    presentFields held [u8 sl.prio, u8 sl.origin.ctorIdx, u8 sl.fails]

/-- The number of posts of a loop that satisfy `q`. -/
def LoopRec.countPosts (l : LoopRec) (q : Post → Bool) : Nat :=
  allPosts.countP fun p => q (l.post p)

/-- The fields of LOOP STATUS (R88); the lend timer's remaining seconds are rounded up (the model's choice, log
entry 45). -/
def LoopRec.status (l : LoopRec) : List Byte :=
  u8 l.owner.ctorIdx ++ flag l.request ++ flag l.grant ++ opt u16 (l.lendTimer.map ceilSeconds) ++ flag l.overflow ++
    u8 l.cursor ++ u8 (l.countPosts fun p => !p.present) ++
    u8 (l.countPosts fun p => p.present && decide (p.conf = .heard)) ++
    u8 (l.countPosts fun p => p.present && decide (p.conf = .doubtful)) ++
    u8 (l.countPosts fun p => p.present && decide (p.conf = .dropped)) ++
    (l.slots.toList.map OutSlot.status).flatten ++ u16 l.errors ++ u16 l.repeats ++ u16 l.badRecords ++
    u16 l.undelivered ++ u8 l.windowSetting ++ flag l.lendAllowed ++ u16 l.lendSetting

/-- LOOP STATUS (R88). -/
def execLoopStatus (tag loop : Nat) (s : State) : Host.Outcome State Fault Refusal :=
  request 0x14 tag (withFin 4 loop fun lp s => (Reply.okWith (s.yard.loops[lp]).status, s)) s

/-- The fields of POST STATUS: the entry as R69 lists it (R88); the recovery timer's remaining seconds are rounded up
(the model's choice, log entry 45). -/
def Post.status (p : Post) : List Byte :=
  flag p.present ++ u8 p.errors ++ u8 p.conf.ctorIdx ++ u8 p.turn ++ opt u8 (p.recovery.map ceilSeconds) ++
    flag p.probeDue ++ u8 p.lamp0 ++ flag p.spk0 ++ u8 p.lamp1 ++ flag p.spk1 ++ opt u8 p.lastSeq

/-- POST STATUS (R88). -/
def execPostStatus (tag loop post : Nat) (s : State) : Host.Outcome State Fault Refusal :=
  request 0x15 tag (withFin 4 loop fun lp => inRange (decide (post ≤ 127)) fun s =>
    (Reply.okWith ((s.yard.loops[lp]).post post).status, s)) s

/-- LOOP RESET (R89): the reset, then the resend request naming the loop. -/
def execLoopReset (tag loop : Nat) (s : State) : Host.Outcome State Fault Refusal :=
  request 0x16 tag (withFin 4 loop fun lp s =>
    done (s.onYard fun y => (y.modLoop lp LoopRec.loopReset).resendLoop Yard.drain lp)) s

end Sys2Proof.Machine
end

