-- ==== Sys2Proof/Machine/Orders.lean ====
section
/-! DEFINITION. The commands of Menu, Stock and Order Intake (R137 to R159): the nine requests of the chapter. -/

namespace Sys2Proof.Machine

/-- Answer with a changed yard. -/
def State.withYard (s : State) (r : Reply) (y : Yard) : Reply × State :=
  (r, { s with yard := y })

/-! ## The menu -/

/-- A newly defined item: its five tallies are 0 (R138). -/
def newItem (station : StationId) (price : Nat) (available : Bool) (mode : StockMode) : MenuItem :=
  { station := station, price := price, available := available, mode := mode, loaded := 0, remaining := 0,
    pending := 0, sold := 0, waste := 0 }

/-- A defined item under a MENU SET in SETUP (R138): the tallies stay where the stock mode stays. -/
def MenuItem.redefine (m : MenuItem) (station : StationId) (price : Nat) (available : Bool) (mode : StockMode) :
    MenuItem :=
  if m.mode = mode then { m with station := station, price := price, available := available }
  else newItem station price available mode

/-- MENU SET of an item with its values checked (R138, R195). -/
def menuSetBody (item : Nat) (station : StationId) (price : Nat) (available : Bool) (mode : StockMode) (s : State) :
    Reply × State :=
  let p := min price 9999
  let reply := Reply.setting (decide (9999 < price)) (u16 p)
  match s.yard.readItem Yard.drain item with
  | (.fault, y) => s.withYard (Reply.refuse .storeError) y
  | (.absent, y) =>
    if (y.menuSlot item).isOut then s.withYard (Reply.refuse .storeError) y
    else s.withYard reply (y.setMenuSlot item ((y.menuSlot item).write (newItem station p available mode)))
  | (.whole m, y) =>
    if s.link.part = .setup then s.withYard reply (y.modItem item fun m => m.redefine station p available mode)
    else if m.station = station ∧ m.mode = mode then
      s.withYard reply (y.modItem item fun m => { m with price := p, available := available })
    else s.withYard (Reply.refuse .state) y

/-- MENU SET (R138, R195). -/
def execMenuSet (tag item station price available mode : Nat) (s : State) : Host.Outcome State Fault Refusal :=
  request 0x23 tag (fun s =>
    match flagOf available, StockMode.of mode with
    | some a, some md =>
      match finOf 6 station with
      | some st => inRange (decide (item ≤ 63)) (menuSetBody item st price a md) s
      | none => refused .range s
    | _, _ => malformed s) s

/-- The item under a restock of `k` units (R139). -/
def MenuItem.load (m : MenuItem) (k : Nat) : MenuItem :=
  { m with loaded := m.loaded + k, remaining := m.remaining + k }

/-- RESTOCK of an item (R139, R141, R195). -/
def restockBody (item qty : Nat) (s : State) : Reply × State :=
  match s.yard.readItem Yard.drain item with
  | (.whole m, y) =>
    if m.mode = .unlimited then s.withYard (Reply.refuse .state) y
    else
      let k := min qty (65535 - m.loaded)
      let m' := m.load k
      let y := y.modItem item fun _ => m'
      s.withYard (Reply.setting (decide (k < qty)) (u16 k))
        (if m.remaining = 0 ∧ 0 < m'.remaining then y.raise (m'.stockReport item) else y)
  | (_, y) => s.withYard (Reply.refuse .noSuch) y

/-- Whether an item and a quantity lie in their ranges (R139, R140). -/
def stockRange (item qty : Nat) : Bool :=
  decide (item ≤ 63) && decide (1 ≤ qty) && decide (qty ≤ 65535)

/-- RESTOCK (R139, R141). -/
def execRestock (tag item qty : Nat) (s : State) : Host.Outcome State Fault Refusal :=
  request 0x24 tag (inRange (stockRange item qty) (restockBody item qty)) s

/-- STOCK WASTE of an item (R140, R195). -/
def stockWasteBody (item qty : Nat) (s : State) : Reply × State :=
  match s.yard.readItem Yard.drain item with
  | (.whole m, y) =>
    if m.mode = .unlimited then s.withYard (Reply.refuse .state) y
    else
      let k := min qty m.remaining
      s.withYard (Reply.setting (decide (k < qty)) (u16 k)) (y.modItem item fun m => m.writeOff qty)
  | (_, y) => s.withYard (Reply.refuse .noSuch) y

/-- STOCK WASTE (R140). -/
def execStockWaste (tag item qty : Nat) (s : State) : Host.Outcome State Fault Refusal :=
  request 0x25 tag (inRange (stockRange item qty) (stockWasteBody item qty)) s

/-! ## Orders -/

/-- Whether a line of ORDER ENTER lies in its ranges (R149). -/
def WireLine.enterable (l : WireLine) : Bool :=
  decide (l.item ≤ 63) && decide (1 ≤ l.qty) && decide (l.qty ≤ 9)

/-- ORDER ENTER of a well-formed order (R149). ORDER_IN is raised before the ACCEPTED lamp is placed (the model's choice,
log entry 18). -/
def orderEnterBody (bay : Nat) (mode : OrderMode) (lines : List WireLine) (s : State) : Reply × State :=
  match s.yard.intake s.site bay mode lines .host with
  | (.accepted n total first, y) =>
    s.withYard (Reply.okWith (u16 n ++ u32 total ++ u8 first.ctorIdx)) (y.placePassing bay lampAccepted)
  | (.refused r item, y) =>
    s.withYard { result := r, indication := .none,
                 fields := match item with
                   | some i => [.raw (u8 i)]
                   | none => [] } y

/-- ORDER ENTER (R144 to R147, R149). -/
def execOrderEnter (tag bay mode : Nat) (lines : List WireLine) (s : State) : Host.Outcome State Fault Refusal :=
  request 0x26 tag (fun s =>
    match OrderMode.of mode with
    | some md =>
      if 1 ≤ lines.length ∧ lines.length ≤ 8 then
        inRange (decide (bay ≤ 1023) && lines.all WireLine.enterable) (orderEnterBody bay md lines) s
      else malformed s
    | none => malformed s) s

/-- ORDER RELEASE (R151). -/
def execOrderRelease (tag screen : Nat) (s : State) : Host.Outcome State Fault Refusal :=
  request 0x27 tag (withFin 4 screen fun sc => inRun fun s =>
    s.withYard (Reply.okWith (u16 (s.yard.releaseHeld sc).1)) (s.yard.releaseHeld sc).2) s

/-- Place the resting lamp of a PARKED car's bay (R154). -/
def Yard.placeResting (y : Yard) (car : Nat) : Yard :=
  match (y.car? car).bind Car.parkedBay with
  | some bay => y.placeRestingNow bay (some car)
  | none => y

/-- FORCE CANCEL in RUN (R154). ORDER_CANCELLED is raised before the resting lamp is placed (the model's choice, log
entry 18). -/
def forceCancelBody (order : Nat) (s : State) : Reply × State :=
  match s.yard.readOrder Yard.drain order with
  | (.whole o, y) =>
    if o.state = .taken then s.withYard (Reply.refuse .state) y
    else s.withYard Reply.ok ((y.cancelOrder o .host).placeResting o.car)
  | (.absent, y) => s.withYard (Reply.refuse .noSuch) y
  | (.fault, y) => s.withYard (Reply.refuse .storeError) y

/-- FORCE CANCEL (R152, R154). -/
def execForceCancel (tag order : Nat) (s : State) : Host.Outcome State Fault Refusal :=
  request 0x28 tag (inRun (forceCancelBody order)) s

/-! ## Queries (R157) -/

/-- The fields of an item's record in MENU QUERY. -/
def MenuItem.fields (m : MenuItem) : List (List Byte) :=
  [u8 m.station, u16 m.price, flag m.available, u8 m.mode.ctorIdx, u16 m.loaded, u16 m.remaining, u16 m.pending,
    u16 m.sold, u16 m.waste]

/-- The record whose widths stand for the absent fields of an undefined item; none of its values is sent. -/
def MenuItem.absent : MenuItem :=
  { station := 0, price := 0, available := false, mode := .finite, loaded := 0, remaining := 0, pending := 0, sold := 0,
    waste := 0 }

/-- The fields of MENU QUERY; those of an item that is undefined or out of service are absent (R157, R195, R203). -/
def menuStatus (y : Yard) (item : Nat) : List Byte :=
  match y.item? item with
  | some m => flag true ++ presentFields true m.fields ++ flag true
  | none => flag false ++ presentFields false MenuItem.absent.fields ++ flag (!(y.menuSlot item).isOut)

/-- MENU QUERY (R157, R195). -/
def menuQueryBody (item : Nat) (s : State) : Reply × State :=
  match s.yard.readItem Yard.drain item with
  | (.fault, y) => s.withYard (Reply.refuse .storeError) y
  | (_, y) => s.withYard (Reply.okWith (menuStatus y item)) y

/-- MENU QUERY (R157). -/
def execMenuQuery (tag item : Nat) (s : State) : Host.Outcome State Fault Refusal :=
  request 0x29 tag (inRange (decide (item ≤ 63)) (menuQueryBody item)) s

/-- The lines of an order with their states, as a list. -/
def linesStatus (lines : List Line) : List Byte :=
  u8 lines.length ++ (lines.map fun l => u8 l.item ++ u8 l.qty ++ u8 l.state.ctorIdx).flatten

/-- The fields of ORDER QUERY: the record as R142 lists it. -/
def Order.status (o : Order) : List Byte :=
  u16 o.number ++ u16 o.car ++ u8 o.screen ++ u8 o.mode.ctorIdx ++ u8 o.state.ctorIdx ++ linesStatus o.lines ++
    u32 o.total ++ minuteBytes o.accepted ++ opt minuteBytes o.readyMinute ++
    opt (fun r : RunnerId => u8 r) o.taker ++ flag o.carGone

/-- ORDER QUERY (R157). -/
def orderQueryBody (order : Nat) (s : State) : Reply × State :=
  match s.yard.readOrder Yard.drain order with
  | (.whole o, y) => s.withYard (Reply.okWith o.status) y
  | (.absent, y) => s.withYard (Reply.refuse .noSuch) y
  | (.fault, y) => s.withYard (Reply.refuse .storeError) y

/-- ORDER QUERY (R157). -/
def execOrderQuery (tag order : Nat) (s : State) : Host.Outcome State Fault Refusal :=
  request 0x2A tag (orderQueryBody order) s

/-- The number of orders in the table, in use by the slot index. -/
def Yard.orderCount (y : Yard) : Nat :=
  (inUse y.store.orders).length

/-- The number of HELD orders: the entries of the held lists. -/
def Yard.heldCount (y : Yard) : Nat :=
  (y.held.toList.map List.length).sum

/-- The number of TAKEN orders: the runners HOLDING. -/
def Yard.takenCount (y : Yard) : Nat :=
  y.runners.toList.countP fun r => r.held.isSome

/-- The number of order slots out of use. -/
def Yard.orderSlotsOut (y : Yard) : Nat :=
  y.store.orders.countP fun e => e.2.isOut

/-- The fields of OE STATUS (R157). The orders in each state are told from the Order Engine's own lists, without a
read. Each of the four counts is sent in two bytes, that of TAKEN too, which 32 bounds: R157 gives no range, and the
width is the model's choice (log entry 15). -/
def oeStatus (y : Yard) : List Byte :=
  ((List.finRange 6).map fun st =>
    u8 (y.queues[st]).length ++ u8 (y.reservation st) ++ u8 (y.load st)).flatten ++
  (y.held.toList.map fun l => u16 l.length).flatten ++
  u16 y.heldCount ++ u16 (y.orderCount - (y.heldCount + y.readyList.length + y.takenCount)) ++
  u16 y.readyList.length ++ u16 y.takenCount ++ u16 y.lastOrder ++
  u16 (TableId.order.size - (y.orderCount + y.orderSlotsOut)) ++ u16 y.orderSlotsOut

/-- OE STATUS (R157). -/
def execOeStatus (tag : Nat) (s : State) : Host.Outcome State Fault Refusal :=
  request 0x2B tag (fun s => (Reply.okWith (oeStatus s.yard), s)) s

end Sys2Proof.Machine
end

