-- ==== Sys2Proof/Machine/Kitchen.lean ====
section
/-! DEFINITION. The commands of Kitchen Stations and the Ready List (R160 to R176): STATION NEXT, STATION DONE and the two
status requests. -/

namespace Sys2Proof.Machine

/-- What a station's request has read of an order: its record, its car's and its line's item; none where a read met a
parity fault (R163, R165). A car that is absent is missing (R164). -/
structure LineReads where
  order : Order
  car : Option Car
deriving DecidableEq, Repr

/-- What reading for a line answers. -/
inductive LineRead where
  | whole (r : LineReads)
  | gone
  | fault
deriving DecidableEq, Repr

/-- Read an order, its car and a line's item, up to the first parity fault. -/
def Yard.readLine (y : Yard) (order item : Nat) : LineRead × Yard :=
  match y.readOrder Yard.drain order with
  | (.fault, y) => (.fault, y)
  | (.absent, y) => (.gone, y)
  | (.whole o, y) =>
    match y.readCar Yard.drain o.car with
    | (.fault, y) => (.fault, y)
    | (rc, y) =>
      match y.readItem Yard.drain item with
      | (.fault, y) => (.fault, y)
      | (_, y) => (.whole { order := o, car := rc.record? }, y)

/-! ## Starting a line (R162 to R164) -/

/-- The number of PENDING lines left in a station's queue. -/
def Yard.pendingLeft (y : Yard) (st : StationId) : Nat :=
  (y.queues[st]).countP fun r => decide (r.state = .pending)

/-- Start a line: MAKING in its order and its queue, its units from pending to sold (R162). -/
def Yard.startLine (y : Yard) (st : StationId) (r : LineRef) : Yard :=
  let y := (y.modOrder r.order fun o => o.setLine r.line .making).markRef st r.order r.line .making
  y.modItem r.item fun m => m.startMove r.qty

/-- The reply of a STATION NEXT that started a line (R162). -/
def nextReply (r : LineRef) (o : Order) (left : Nat) : Reply :=
  Reply.okWith (u16 r.order ++ u8 r.line ++ u8 r.item ++ u8 r.qty ++ u16 o.car ++ u8 o.screen ++ u8 o.mode.ctorIdx ++
    minuteBytes o.accepted ++ u8 left)

/-- The walk of a station's queue (R162, R164): a reference that has left the queue meanwhile, or whose line is not
PENDING, is passed; an order whose car is missing is settled and the walk goes on, also where settling it meets a parity
fault at an item (the model's choice, log entry 55). -/
def Yard.walkQueue (st : StationId) : List LineRef → Yard → Reply × Yard
  | [], y => (Reply.refuse .noSuch, y)
  | r :: rs, y =>
    if r.state = .pending ∧ r ∈ y.queues[st] then
      match y.readLine r.order r.item with
      | (.fault, y) => (Reply.refuse .storeError, y)
      | (.gone, y) => Yard.walkQueue st rs y
      | (.whole lr, y) =>
        match lr.car with
        | none => Yard.walkQueue st rs (y.settleGone lr.order .carLost)
        | some _ =>
          let y := y.startLine st r
          (nextReply r lr.order (y.pendingLeft st), y)
    else Yard.walkQueue st rs y

/-- STATION NEXT in RUN (R162 to R164). -/
def stationNextBody (st : StationId) (s : State) : Reply × State :=
  let r := Yard.walkQueue st s.yard.queues[st] s.yard
  s.withYard r.1 r.2

/-- A request that a station number above 5 makes RANGE. -/
def withStation (station : Nat) (body : StationId → State → Reply × State) (s : State) : Reply × State :=
  match finOf 6 station with
  | some st => body st s
  | none => refused .range s

/-- STATION NEXT (R162 to R164). -/
def execStationNext (tag station : Nat) (s : State) : Host.Outcome State Fault Refusal :=
  request 0x2C tag (withStation station fun st => inRun (stationNextBody st)) s

/-! ## Finishing a line (R165, R166) -/

/-- The completion of an order (R166). -/
def Yard.completeOrder (y : Yard) (minute : Nat) (o : Order) (c : Car) : Yard :=
  let y := y.modOrder o.number fun o => { o with state := .ready, readyMinute := some minute }
  let y := y.joinTail { order := o.number, car := o.car, row := c.row }
  let y := y.raise (.orderReady o.number o.car c.parkedBay o.screen minute y.readyList.length)
  match c.parkedBay with
  | some bay => y.markLamp Yard.drain bay
  | none => y

/-- Finish a MAKING line (R165). -/
def Yard.finishLine (y : Yard) (minute : Nat) (st : StationId) (r : LineRef) (o : Order) (c : Car) :
    Indication × Yard :=
  let o := o.setLine r.line .done
  let y := (y.modOrder r.order fun _ => o).dequeue st r.order r.line
  if o.allDone then (.ready, y.completeOrder minute o c) else (.queued, y)

/-- STATION DONE in RUN with its numbers in range (R165). An order whose car is missing is settled and answered OK
VOIDED, also where settling it meets a parity fault at an item (the model's choice, log entry 55). -/
def stationDoneBody (st : StationId) (order line : Nat) (s : State) : Reply × State :=
  match s.yard.lineRef? st order line with
  | none => refused .noSuch s
  | some r =>
    if r.state = .pending then refused .state s
    else
      match s.yard.readLine order r.item with
      | (.fault, y) => s.withYard (Reply.refuse .storeError) y
      | (.gone, y) => s.withYard (Reply.refuse .noSuch) y
      | (.whole lr, y) =>
        match lr.car with
        | none => s.withYard (Reply.okNote .voided) (y.settleGone lr.order .carLost)
        | some c =>
          let w := y.finishLine s.link.minute st r lr.order c
          s.withYard (Reply.okNote w.1) w.2

/-- Whether an order number lies in 1 to 9,999. -/
def orderNumberOk (n : Nat) : Bool :=
  decide (1 ≤ n) && decide (n ≤ 9999)

/-- STATION DONE (R165, R166). -/
def execStationDone (tag station order line : Nat) (s : State) : Host.Outcome State Fault Refusal :=
  request 0x2D tag (withStation station fun st =>
    inRange (orderNumberOk order && decide (line ≤ 7)) (inRun (stationDoneBody st order line))) s

/-! ## Status (R174) -/

/-- STATION STATUS of a station (R174). -/
def stationStatusBody (st : StationId) (s : State) : Reply × State :=
  let q := s.yard.queues[st]
  ({ result := .ok, indication := .none,
     fields := [.list 1 (q.map fun r => u16 r.order ++ u8 r.line ++ u8 r.item ++ u8 r.qty ++ u8 r.state.ctorIdx),
       .raw (u8 q.length ++ u8 (s.yard.reservation st) ++ u8 (s.yard.load st))] }, s)

/-- STATION STATUS (R174). -/
def execStationStatus (tag station : Nat) (s : State) : Host.Outcome State Fault Refusal :=
  request 0x2E tag (withStation station stationStatusBody) s

/-- The 64 rows. -/
def allRows : List Nat :=
  List.range 64

/-- READY STATUS: the ready list, the row counts, the row lamps (R169, R174). -/
def readyStatusBody (s : State) : Reply × State :=
  ({ result := .ok, indication := .none,
     fields := [.list 2 (s.yard.readyList.map fun e => u16 e.order ++ u16 e.car ++ opt u8 e.row),
       .raw ((allRows.map fun r => u16 (s.yard.rowCount r)).flatten ++
         (allRows.map fun r => flag (s.yard.rowLamp r)).flatten)] }, s)

/-- READY STATUS (R174). -/
def execReadyStatus (tag : Nat) (s : State) : Host.Outcome State Fault Refusal :=
  request 0x2F tag readyStatusBody s

end Sys2Proof.Machine
end

