-- ==== Sys2Proof/Machine/Runners.lean ====
section
/-! DEFINITION. The commands of Runner Takes (R177 to R189): TAKE, DELIVERED, RETURN, the take timer's expiry, and the
three requests for settings and status. -/

namespace Sys2Proof.Machine

/-! ## Taking an order (R178 to R181) -/

/-- The filters of TAKE (R178). -/
inductive TakeFilter where
  | all
  | order (number : Nat)
  | screen (sc : ScreenId)
deriving DecidableEq, Repr

/-- What a filter's fields name: malformed for an unknown filter kind, out of range for its number (R178). -/
inductive FilterRead where
  | ok (f : TakeFilter)
  | range
  | malformed
deriving DecidableEq, Repr

/-- The filter a TAKE carries: NONE, ORDER with a number, SCREEN with a number. -/
def filterOf (kind arg : Nat) : FilterRead :=
  match kind with
  | 0 => .ok .all
  | 1 => if orderNumberOk arg then .ok (.order arg) else .range
  | 2 =>
    match finOf 4 arg with
    | some sc => .ok (.screen sc)
    | none => .range
  | _ => .malformed

/-- Give an order to a runner (R181). -/
def Yard.giveOrder (y : Yard) (r : RunnerId) (o : Order) (c : Car) : Yard :=
  let y := (y.leaveReady o.number).modOrder o.number fun o => { o with state := .taken, taker := some r }
  (y.setRunner r { held := some o.number, timer := loadMinutes y.takeLimit, last := none }).raise
    (.orderTaken r o.number o.car c.parkedBay)

/-- The reply of a take (R181): a car that is not PARKED is UNLOCATED, its bay and row absent. -/
def takeReply (o : Order) (c : Car) : Reply :=
  Reply.okWith (u16 o.number ++ u16 o.car ++ opt u16 c.parkedBay ++ opt u8 (c.parkedBay.map bayRow) ++
    u8 o.lines.length ++ (o.lines.map fun l => u8 l.item ++ u8 l.qty).flatten ++ u32 o.total ++
    minuteBytes (o.readyMinute.getD 0))

/-- Whether a candidate's order belongs to the filter's screen. -/
def TakeFilter.fits : TakeFilter → Order → Bool
  | .all, _ => true
  | .order _, _ => true
  | .screen sc, o => decide (o.screen = sc)

/-- The walk along the ready list (R179, R180): an entry that has left the list meanwhile is passed, an order of another
screen too, and an order whose car is missing is voided and the walk goes on. -/
def Yard.walkReady (r : RunnerId) (f : TakeFilter) : List ReadyEntry → Yard → Reply × Yard
  | [], y => (Reply.refuse .noSuch, y)
  | e :: es, y =>
    if (y.readyEntry? e.order).isSome then
      match y.readOrder Yard.drain e.order with
      | (.fault, y) => (Reply.refuse .storeError, y)
      | (.absent, y) => Yard.walkReady r f es y
      | (.whole o, y) =>
        if f.fits o then
          match y.readCar Yard.drain o.car with
          | (.fault, y) => (Reply.refuse .storeError, y)
          | (.absent, y) => Yard.walkReady r f es (y.voidOrder o .carLost)
          | (.whole c, y) => (takeReply o c, y.giveOrder r o c)
        else Yard.walkReady r f es y
    else Yard.walkReady r f es y

/-- A TAKE of a named order (R179, R180). -/
def Yard.takeNamed (r : RunnerId) (number : Nat) (y : Yard) : Reply × Yard :=
  let listed := (y.readyEntry? number).isSome
  match y.readOrder Yard.drain number with
  | (.fault, y) => (Reply.refuse .storeError, y)
  | (.absent, y) => (Reply.refuse .noSuch, y)
  | (.whole o, y) =>
    if listed then
      match y.readCar Yard.drain o.car with
      | (.fault, y) => (Reply.refuse .storeError, y)
      | (.absent, y) =>
        ({ result := .noSuch, indication := .voided, fields := [] }, y.voidOrder o .carLost)
      | (.whole c, y) => (takeReply o c, y.giveOrder r o c)
    else
      ({ result := .state, indication := .none,
         fields := [.raw (u8 o.state.ctorIdx ++ opt (fun k : RunnerId => u8 k) o.taker)] }, y)

/-- TAKE in RUN from a runner (R178 to R181). -/
def takeBody (r : RunnerId) (f : TakeFilter) (s : State) : Reply × State :=
  match (s.yard.runners[r]).held with
  | some n => ({ result := .paused, indication := .none, fields := [.raw (u16 n)] }, s)
  | none =>
    let w := match f with
      | .order n => Yard.takeNamed r n s.yard
      | f => Yard.walkReady r f s.yard.readyList s.yard
    s.withYard w.1 w.2

/-- A request that a runner number above 31 makes RANGE. -/
def withRunner (runner : Nat) (body : RunnerId → State → Reply × State) (s : State) : Reply × State :=
  match finOf 32 runner with
  | some r => body r s
  | none => refused .range s

/-- TAKE (R178 to R181). -/
def execTake (tag runner filter arg : Nat) (s : State) : Host.Outcome State Fault Refusal :=
  request 0x30 tag (fun s =>
    match filterOf filter arg with
    | .malformed => malformed s
    | .range => refused .range s
    | .ok f => withRunner runner (fun r => inRun (takeBody r f)) s) s

/-! ## Ending a take (R182 to R187) -/

/-- What reading a held order and its car answers. -/
inductive HeldRead where
  | whole (o : Order) (c : Car)
  | carGone (o : Order)
  | carFault (o : Order)
  | orderFault
deriving DecidableEq, Repr

/-- Read a held order and its car (R183 to R187). An order whose CAR_GONE flag is set, or whose car is missing, has no
car. -/
def Yard.readHeld (y : Yard) (order : Nat) : HeldRead × Yard :=
  match y.readOrder Yard.drain order with
  | (.whole o, y) =>
    match y.readCar Yard.drain o.car with
    | (.fault, y) => (.carFault o, y)
    | (.absent, y) => (.carGone o, y)
    | (.whole c, y) => (if o.carGone then .carGone o else .whole o c, y)
  | (_, y) => (.orderFault, y)

/-- The cause of a void at a runner's action (R186). -/
def goneCause (o : Order) : VoidCause :=
  if o.carGone then .carGone else .carLost

/-- The runner becomes FREE with its timer stopped; its last release is kept. -/
def Yard.freeRunner (y : Yard) (r : RunnerId) : Yard :=
  y.setRunner r { y.runners[r] with held := none, timer := none }

/-- The order of a car that has gone is voided and the runner freed (R186). -/
def Yard.voidHeld (y : Yard) (r : RunnerId) (o : Order) : Yard :=
  (y.voidOrder o (goneCause o)).freeRunner r

/-- An order goes back to the head of the ready list (R168, R184, R185). -/
def Yard.backToPass (y : Yard) (o : Order) (c : Car) : Yard :=
  (y.modOrder o.number fun o => { o with state := .ready, taker := none }).joinHead
    { order := o.number, car := o.car, row := c.row }

/-- The judgement of a DELIVERED or RETURN that does not name the held order (R182). -/
def lateReply (k : Runner) (order : Nat) : Reply :=
  match k.held, k.last with
  | some n, _ => { result := .state, indication := .none, fields := [.raw (u16 n)] }
  | none, some (n, .expired) => Reply.refuse (if n = order then .tooLate else .state)
  | none, some (n, .lost) => Reply.refuse (if n = order then .storeError else .state)
  | none, none => Reply.refuse .state

/-- The settlement of a delivery (R183); DELIVERED is raised after the bay's lamp is placed (the model's choice, log
entry 18). -/
def Yard.settleDelivery (y : Yard) (r : RunnerId) (o : Order) (c : Car) : Yard :=
  let y := ((y.freeOrder o.number).dropOpenOrder o.car o.number).freeRunner r
  let y := match c.parkedBay with
    | some bay => y.markLamp Yard.drain bay
    | none => y
  y.raise (.delivered r o.number o.car c.parkedBay o.total false)

/-- DELIVERED of the held order (R183, R186, R187). -/
def deliverHeld (r : RunnerId) (order : Nat) (s : State) : Reply × State :=
  match s.yard.readHeld order with
  | (.whole o c, y) => s.withYard Reply.ok (y.settleDelivery r o c)
  | (.carGone o, y) =>
    s.withYard (Reply.okNote .carGone) ((y.voidHeld r o).raise (.delivered r o.number o.car none o.total true))
  | (.carFault _, y) => s.withYard (Reply.refuse .storeError) y
  | (.orderFault, y) => s.withYard (Reply.refuse .storeError) y

/-- RETURN of the held order (R184, R186, R187). -/
def returnHeld (r : RunnerId) (order : Nat) (s : State) : Reply × State :=
  match s.yard.readHeld order with
  | (.whole o c, y) =>
    s.withYard Reply.ok (((y.backToPass o c).freeRunner r).raise (.orderReturned r o.number))
  | (.carGone o, y) => s.withYard (Reply.okNote .voided) (y.voidHeld r o)
  | (.carFault _, y) => s.withYard (Reply.refuse .storeError) y
  | (.orderFault, y) => s.withYard (Reply.refuse .storeError) y

/-- A DELIVERED or RETURN, judged against the runner record (R182). -/
def settleBody (held : RunnerId → Nat → State → Reply × State) (r : RunnerId) (order : Nat) (s : State) :
    Reply × State :=
  if (s.yard.runners[r]).held = some order then held r order s else (lateReply s.yard.runners[r] order, s)

/-- DELIVERED (R182, R183). -/
def execDelivered (tag runner order : Nat) (s : State) : Host.Outcome State Fault Refusal :=
  request 0x31 tag (withRunner runner fun r => inRange (orderNumberOk order)
    (inRun (settleBody deliverHeld r order))) s

/-- RETURN (R182, R184). -/
def execReturnOrder (tag runner order : Nat) (s : State) : Host.Outcome State Fault Refusal :=
  request 0x32 tag (withRunner runner fun r => inRange (orderNumberOk order)
    (inRun (settleBody returnHeld r order))) s

/-- The runner's last release (R185). -/
def Yard.setLast (y : Yard) (r : RunnerId) (order : Nat) : Yard :=
  y.setRunner r { y.runners[r] with last := some (order, .expired) }

/-- A runner's take timer expires (R185 to R187); where it voids the order, ORDER_VOIDED is raised before TAKE_EXPIRED
(the model's choice, log entry 18). -/
def Yard.takeExpired (y : Yard) (r : RunnerId) : Yard :=
  match (y.runners[r]).held, (y.runners[r]).timer with
  | some order, some _ =>
    match y.readHeld order with
    | (.whole o c, y) =>
      (((y.backToPass o c).freeRunner r).setLast r order).raise
        (.takeExpired r order o.car c.parkedBay false)
    | (.carGone o, y) => ((y.voidHeld r o).setLast r order).raise (.takeExpired r order o.car none true)
    | (.carFault o, y) => ((y.voidHeld r o).setLast r order).raise (.takeExpired r order o.car none true)
    | (.orderFault, y) => y
  | _, _ => y

/-- TAKE_TIMER_EXPIRY (R185 to R187). -/
def execTakeTimerExpiry (r : RunnerId) (s : State) : Host.Outcome State Fault Refusal :=
  event (fun s => s.onYard fun y => y.takeExpired r) s

/-! ## Settings and status (R188) -/

/-- RUNNER SET (R188). -/
def execRunnerSet (tag limit : Nat) (s : State) : Host.Outcome State Fault Refusal :=
  request 0x33 tag (fun s =>
    let n := clampTimer 1 60 limit
    (Reply.setting (decide (n ≠ limit)) (u8 n), s.onYard fun y => { y with takeLimit := n })) s

/-- The fields of RUNNER STATUS that the record alone gives (R188). -/
def Runner.status (k : Runner) : List Byte :=
  flag k.held.isSome ++ opt u16 k.held ++ opt u8 (k.timer.map ceilMinutes) ++
    opt (fun l : Nat × ReleaseCause => u16 l.1 ++ u8 l.2.ctorIdx) k.last

/-- The CAR_GONE flag and the car's present bay in RUNNER STATUS: absent without a held order, as the bay is while the
car is UNLOCATED (R188, R203). -/
def heldStatus (gone : Option Bool) (bay : Option Nat) : List Byte :=
  opt flag gone ++ opt u16 bay

/-- RUNNER STATUS of a runner (R188). -/
def runnerStatusBody (r : RunnerId) (s : State) : Reply × State :=
  let k := s.yard.runners[r]
  match k.held with
  | none => (Reply.okWith (k.status ++ heldStatus none none), s)
  | some order =>
    match s.yard.readHeld order with
    | (.carFault _, y) => s.withYard (Reply.refuse .storeError) y
    | (.orderFault, y) => s.withYard (Reply.refuse .storeError) y
    | (.whole o c, y) => s.withYard (Reply.okWith (k.status ++ heldStatus (some o.carGone) c.parkedBay)) y
    | (.carGone o, y) => s.withYard (Reply.okWith (k.status ++ heldStatus (some o.carGone) none)) y

/-- RUNNER STATUS (R188). -/
def execRunnerStatus (tag runner : Nat) (s : State) : Host.Outcome State Fault Refusal :=
  request 0x34 tag (withRunner runner runnerStatusBody) s

/-- RUNNERS STATUS (R188). -/
def execRunnersStatus (tag : Nat) (s : State) : Host.Outcome State Fault Refusal :=
  request 0x35 tag (fun s =>
    (Reply.okWith ((s.yard.runners.toList.map fun r => flag r.held.isSome ++ opt u16 r.held).flatten ++
      u8 s.yard.takeLimit), s)) s

end Sys2Proof.Machine
end

