-- ==== Sys2Proof/Machine/Sound.lean ====
section
/-! DEFINITION. The commands of Programme Sound and the Sync Servo (R35 to R64): the link receiver, the output tick, the
servo's timers, and the four requests of the chapter. -/

namespace Sys2Proof.Machine

/-! ## Events of the equipment -/

/-- SOUND_LINK_BYTE (R35 to R39). -/
def execSoundLinkByte (sc : ScreenId) (b : Byte) (s : State) : Host.Outcome State Fault Refusal :=
  event (fun s => s.onSound sc fun w => w.mod fun sd => sd.takeByte b) s

/-- SOUND_BLOCK_GAP (R35). -/
def execSoundBlockGap (sc : ScreenId) (s : State) : Host.Outcome State Fault Refusal :=
  event (fun s => s.onSound sc fun w => w.mod Sound.takeGap) s

/-- OUTPUT_TICK (R40, R50 to R54, R56, R59). -/
def execOutputTick (sc : ScreenId) (s : State) : Host.Outcome State Fault Refusal :=
  event (fun s => s.onSound sc SoundRun.tick) s

/-- COAST_GAP_EXPIRY (R47). -/
def execCoastGapExpiry (sc : ScreenId) (s : State) : Host.Outcome State Fault Refusal :=
  event (fun s => s.onSound sc SoundRun.coastGapExpired) s

/-- COAST_LIMIT_EXPIRY (R48). -/
def execCoastLimitExpiry (sc : ScreenId) (s : State) : Host.Outcome State Fault Refusal :=
  event (fun s => s.onSound sc SoundRun.coastLimitExpired) s

/-! ## Requests -/

/-- SOURCE (R55, R58). -/
def execSource (tag screen src : Nat) (s : State) : Host.Outcome State Fault Refusal :=
  request 0x0B tag (withFin 4 screen fun sc s =>
    match Source.of src with
    | some new => inRun (fun s => done (s.onSound sc fun w => w.request new .host)) s
    | none => malformed s) s

/-- The settings of a SERVO SET, each brought into its range (R41, R60). -/
def servoSettings (offset : Int) (window deadband gain rmax limit : Nat) : ServoSettings :=
  { offset := clampInt (-4000) 4000 offset, window := clampNat 480 16000 window, deadband := clampNat 0 32 deadband,
    gain := clampNat 1 64 gain, rmax := clampNat 0 1310 rmax, coastLimit := clampTimer 500 10000 limit }

/-- The six settings as SERVO SET carries them; the coast limit is a time in milliseconds, in four bytes (R203). -/
def ServoSettings.bytes (v : ServoSettings) : List Byte :=
  i16 v.offset ++ u16 v.window ++ u8 v.deadband ++ u8 v.gain ++ u16 v.rmax ++ u32 v.coastLimit

/-- The servo under new settings: R is clamped to the new limits at once (R60). -/
def Servo.setSettings (v : Servo) (st : ServoSettings) : Servo :=
  { v with settings := st, r := clampRate st.rmax v.r }

/-- SERVO SET (R60). -/
def execServoSet (tag screen : Nat) (offset : Int) (window deadband gain rmax limit : Nat) (s : State) :
    Host.Outcome State Fault Refusal :=
  request 0x0C tag (withFin 4 screen fun sc s =>
    let st := servoSettings offset window deadband gain rmax limit
    let sent : ServoSettings :=
      { offset := offset, window := window, deadband := deadband, gain := gain, rmax := rmax, coastLimit := limit }
    (Reply.setting (decide (st ≠ sent)) st.bytes,
      s.onSound sc fun w => w.modServo fun v => v.setSettings st)) s

/-- LEVEL SET (R61). -/
def execLevelSet (tag screen level : Nat) (s : State) : Host.Outcome State Fault Refusal :=
  request 0x0D tag (withFin 4 screen fun sc s =>
    (Reply.setting (decide (320 < level)) (u16 (min level 320)),
      s.onSound sc fun w => w.mod fun sd => { sd with target := min level 320 })) s

/-- The number of programme ring slots holding a block at a distance of 0 to 63 ahead of playout (R62). -/
def Sound.progAhead (sd : Sound) : Nat :=
  sd.prog.countP fun e =>
    match e.2 with
    | some b => decide (0 ≤ dist24 b.tag sd.servo.block) && decide (dist24 b.tag sd.servo.block ≤ 63)
    | none => false

/-- The number of break ring slots holding a block (R62). -/
def Sound.brkHeld (sd : Sound) : Nat :=
  sd.brk.countP fun e => e.2.isSome

/-- The fields of SOUND STATUS (R62), with the nine settings of R41 in the order of its table. The coast gap and the
coast limit are times in milliseconds, in four bytes each (R203). A is sent in four bytes: its largest magnitude,
65,535, would give two by R203's words, and two bytes in two's complement do not hold it (the model's choice, log entry
43). -/
def Sound.status (sd : Sound) : List Byte :=
  let v := sd.servo
  u8 v.state.ctorIdx ++ u32 v.p.toNat ++ i32 v.a ++ i16 v.r ++ opt i32 v.error ++ u8 v.lockRun ++
    u8 sd.source.ctorIdx ++ opt (fun r : Source × SourceCause => u8 r.1.ctorIdx) sd.ramp ++ u16 sd.level ++
    u16 sd.target ++ u8 sd.progAhead ++ opt (fun c : Nat × Nat => u16 c.1 ++ u8 c.2) sd.cursor ++ u8 sd.brkHeld ++
    i16 v.settings.offset ++ u16 v.settings.window ++ u8 v.settings.deadband ++ u8 v.settings.gain ++
    u16 v.settings.rmax ++ u8 48 ++ u8 24 ++ u32 250 ++ u32 v.settings.coastLimit ++ u16 sd.linkErrors ++
    u16 sd.late ++ u16 sd.early ++ u16 sd.jumps ++ u16 sd.underruns ++ u16 sd.breakGaps

/-- SOUND STATUS (R62). -/
def execSoundStatus (tag screen : Nat) (s : State) : Host.Outcome State Fault Refusal :=
  request 0x0E tag (withFin 4 screen fun sc s => (Reply.okWith s.sound[sc].status, s)) s

end Sys2Proof.Machine
end

