-- ==== Sys2Proof/Machine/Timeline.lean ====
section
/-! DEFINITION. The commands of the Show Timeline (R1 to R34): the head lines, the frame pulse, the timers, and the ten
requests of the chapter. -/

namespace Sys2Proof.Machine

/-! ## Events of the equipment -/

/-- AT_SPEED_CHANGE (R1, R2, R13, R14, R21 to R24). -/
def execAtSpeedChange (sc : ScreenId) (h : Head) (on : Bool) (s : State) : Host.Outcome State Fault Refusal :=
  event (fun s => s.onShow sc fun w => w.atSpeed h on) s

/-- RUNOUT_CHANGE (R1, R15, R20, R21). -/
def execRunoutChange (sc : ScreenId) (h : Head) (on : Bool) (s : State) : Host.Outcome State Fault Refusal :=
  event (fun s => s.onShow sc fun w => w.runout h on) s

/-- LAMP_OK_CHANGE (R2, R22 to R24). -/
def execLampOkChange (sc : ScreenId) (h : Head) (on : Bool) (s : State) : Host.Outcome State Fault Refusal :=
  event (fun s => s.onShow sc fun w => w.lampOk h on) s

/-- FRAME_PULSE (R5 to R8). -/
def execFramePulse (sc : ScreenId) (h : Head) (s : State) : Host.Outcome State Fault Refusal :=
  event (fun s => s.onShow sc fun w => w.pulse h) s

/-- START_TIMER_EXPIRY (R13). -/
def execStartTimerExpiry (sc : ScreenId) (s : State) : Host.Outcome State Fault Refusal :=
  event (fun s => s.onShow sc ShowRun.startExpired) s

/-- MOTOR_LEAD_REACHED (R18). -/
def execMotorLeadReached (sc : ScreenId) (s : State) : Host.Outcome State Fault Refusal :=
  event (fun s => s.onShow sc ShowRun.leadReached) s

/-- BREAK_COUNTDOWN_EXPIRY (R19). -/
def execBreakCountdownExpiry (sc : ScreenId) (s : State) : Host.Outcome State Fault Refusal :=
  event (fun s => s.onShow sc ShowRun.countdownExpired) s

/-! ## Requests -/

/-- The cues of a LOAD CUES body; a kind code beyond the list makes the request malformed (R202). -/
def cuesOf : List WireCue → Option (List Cue)
  | [] => some []
  | c :: cs =>
    match CueKind.of c.kind, cuesOf cs with
    | some k, some rest => some ({ kind := k, frame := c.frame, arg := c.arg } :: rest)
    | _, _ => none

/-- LOAD CUES of a decoded list (R9, R10). -/
def loadCuesBody (sc : ScreenId) (reel length : Nat) (cues : List Cue) (s : State) : Reply × State :=
  if setOk reel length cues then
    match s.screens[sc].phase with
    | .ended => refused .state s
    | .halted => refused .state s
    | _ => done (s.onShow sc fun w => (w.load (freshSet reel length cues)).2)
  else refused .range s

/-- LOAD CUES (R9, R10, R31). -/
def execLoadCues (tag screen reel length : Nat) (cues : List WireCue) (s : State) :
    Host.Outcome State Fault Refusal :=
  request 0x01 tag (withFin 4 screen fun sc s =>
    match cuesOf cues with
    | some list => inRun (loadCuesBody sc reel length list) s
    | none => malformed s) s

/-- A request that a timeline takes or refuses STATE. -/
def showBody (sc : ScreenId) (f : ShowRun → Bool × ShowRun) (s : State) : Reply × State :=
  if (f { id := sc, sc := s.screens[sc], out := [] }).1 then done (s.onShow sc fun w => (f w).2)
  else refused .state s

/-- START (R12, R13, R31). -/
def execStart (tag screen : Nat) (s : State) : Host.Outcome State Fault Refusal :=
  request 0x02 tag (withFin 4 screen fun sc => inRun (showBody sc ShowRun.takeStart)) s

/-- RESUME (R19, R31). -/
def execResume (tag screen : Nat) (s : State) : Host.Outcome State Fault Refusal :=
  request 0x03 tag (withFin 4 screen fun sc => inRun (showBody sc ShowRun.takeResume)) s

/-- STOP SHOW (R13, R26, R31). -/
def execStopShow (tag screen : Nat) (s : State) : Host.Outcome State Fault Refusal :=
  request 0x04 tag (withFin 4 screen fun sc => inRun (showBody sc ShowRun.takeStop)) s

/-- CLEAR SHOW (R27, R31). -/
def execClearShow (tag screen : Nat) (s : State) : Host.Outcome State Fault Refusal :=
  request 0x05 tag (withFin 4 screen fun sc => showBody sc ShowRun.takeClear) s

/-- The flags of FLAG SET: GATE or ORDERING (R28). -/
inductive ShowFlag where
  | gate | ordering
deriving DecidableEq, Repr

/-- The flag a code names. -/
def ShowFlag.of : Nat → Option ShowFlag
  | 0 => some .gate
  | 1 => some .ordering
  | _ => none

/-- Set one of the two flags of a screen. -/
def Screen.setFlag (sc : Screen) (f : ShowFlag) (isOpen : Bool) : Screen :=
  match f with
  | .gate => { sc with gateOpen := isOpen }
  | .ordering => { sc with orderingOpen := isOpen }

/-- FLAG SET (R28, R31). -/
def execFlagSet (tag screen flag value : Nat) (s : State) : Host.Outcome State Fault Refusal :=
  request 0x06 tag (withFin 4 screen fun sc s =>
    match ShowFlag.of flag, openOf value with
    | some f, some v => inRun (fun s => done (s.onShow sc fun w => w.mod fun r => r.setFlag f v)) s
    | _, _ => malformed s) s

/-- LIGHTS (R28, R31). -/
def execLights (tag screen level : Nat) (s : State) : Host.Outcome State Fault Refusal :=
  request 0x07 tag (withFin 4 screen fun sc => inRun fun s =>
    (Reply.setting (decide (3 < level)) (u8 (min level 3)),
      s.onShow sc fun w => w.mod fun r => { r with lights := min level 3 })) s

/-- TIMELINE SET (R30). -/
def execTimelineSet (tag screen start lead : Nat) (s : State) : Host.Outcome State Fault Refusal :=
  request 0x08 tag (withFin 4 screen fun sc s =>
    let a := clampTimer 2 60 start
    let b := clampTimer 2 30 lead
    (Reply.setting (decide (a ≠ start ∨ b ≠ lead)) (u8 a ++ u8 b), s.onShow sc fun w => w.setTimers a b)) s

/-- The code of the douser command, open or closed in that order (spec/01, Heads; R203; log entry 9). -/
def douserCode (isOpen : Bool) : List Byte :=
  u8 (if isOpen then 0 else 1)

/-- A head in SHOW STATUS (R32). -/
def HeadRec.status (h : HeadRec) : List Byte :=
  flag h.motor ++ douserCode h.douser ++ flag h.atSpeed ++ flag h.runout ++ flag h.lampOk ++ u8 h.state.ctorIdx ++
    flag h.stopAtRunout

/-- The active set in SHOW STATUS: reel number, reel length, cue count, cues fired (R32). The reel number and length of
an emptied set are stated nowhere (log entry 5). -/
def activeStatus : Option CueSet → List Byte
  | some cs => u8 cs.reel ++ u16 cs.length ++ u8 cs.cues.length ++ u8 (cs.cues.countP fun c => c.2)
  | none => u8 Config.emptySetReel ++ u16 Config.emptySetLength ++ u8 0 ++ u8 0

/-- The fields of SHOW STATUS (R32). -/
def Screen.status (sc : Screen) : List Byte :=
  u8 sc.phase.ctorIdx ++ u8 sc.reel ++ u16 sc.frame ++ u32 sc.f.toNat ++ opt (fun h : Head => u8 h.ctorIdx) sc.heldHead ++
    opt u16 (sc.countdown.map ceilSeconds) ++ sc.headA.status ++ sc.headB.status ++ activeStatus sc.active ++
    opt u8 (sc.staged.map CueSet.reel) ++ u8 sc.lights ++ flag sc.gateOpen ++ flag sc.orderingOpen ++
    flag sc.breakWindow ++ u8 sc.startSetting ++ u8 sc.leadSetting

/-- SHOW STATUS (R32). -/
def execShowStatus (tag screen : Nat) (s : State) : Host.Outcome State Fault Refusal :=
  request 0x09 tag (withFin 4 screen fun sc s => (Reply.okWith s.screens[sc].status, s)) s

/-- A screen reset: the sound path as R63 gives, then the timeline as R33 gives, with its notice of DARK and its release
of held orders. -/
def State.resetScreen (s : State) (sc : ScreenId) : State :=
  ({ s with sound := s.sound.set sc s.sound[sc].screenReset } : State).onShow sc ShowRun.reset

/-- RESET SCREEN (R33, R63). -/
def execResetScreen (tag screen : Nat) (s : State) : Host.Outcome State Fault Refusal :=
  request 0x0A tag (withFin 4 screen fun sc s => done (s.resetScreen sc)) s

end Sys2Proof.Machine
end

