-- ==== Sys2Proof/Machine/Frames.lean ====
section
/-! DEFINITION. The receiver of the host link (R201): bytes on the line are dropped while it hunts, gathered into a frame
after 0xA5, and a frame is discarded for its LENGTH, its CRC or a gap. A frame whose CRC matches is a good frame: the
fields of its body are read as R203 encodes them, and it is the request of its KIND, or malformed (R202). -/

namespace Sys2Proof.Machine

/-! ## Reading a body (R203) -/

/-- The number some bytes hold, most significant first. -/
def numberOf (bytes : List Byte) : Nat :=
  bytes.foldl (fun n b => n * 256 + b.toNat) 0

/-- The signed number two bytes hold. -/
def signed16 (n : Nat) : Int :=
  (BitVec.ofNat 16 n).toInt

/-- The numbers in the fields at the head of a body, of the given widths, and the bytes after them; none where the body
is too short. -/
def takeFields : List Nat → List Byte → Option (List Nat × List Byte)
  | [], bytes => some ([], bytes)
  | w :: ws, bytes =>
    if bytes.length < w then none
    else (takeFields ws (bytes.drop w)).map fun r => (numberOf (bytes.take w) :: r.1, r.2)

/-- The numbers in the fields of a whole body; none where its length is not that of the fields. -/
def wholeFields (widths : List Nat) (body : List Byte) : Option (List Nat) :=
  match takeFields widths body with
  | some (ns, []) => some ns
  | _ => none

/-- The cues of a LOAD CUES body: kind, frame, argument. -/
def wireCues : List Byte → Option (List WireCue)
  | [] => some []
  | k :: fh :: fl :: ah :: al :: rest =>
    (wireCues rest).map fun cs => { kind := k.toNat, frame := getU16 fh fl, arg := getU16 ah al } :: cs
  | _ => none

/-- The lines of an ORDER ENTER body: item, quantity. -/
def wireLines : List Byte → Option (List WireLine)
  | [] => some []
  | i :: q :: rest => (wireLines rest).map fun ls => { item := i.toNat, qty := q.toNat } :: ls
  | _ => none

/-- What a frame's command does. -/
abbrev Meaning := State → Host.Outcome State Fault Refusal

/-- LOAD CUES: screen, reel, length, and the cues behind their count. -/
def loadCuesFrame (tag : Nat) (body : List Byte) : Option Meaning :=
  match takeFields [1, 1, 2, 1] body with
  | some ([sc, reel, len, n], rest) =>
    match wireCues rest with
    | some cues => if cues.length = n then some (execLoadCues tag sc reel len cues) else none
    | none => none
  | _ => none

/-- ORDER ENTER: bay, mode, and the lines behind their count. -/
def orderEnterFrame (tag : Nat) (body : List Byte) : Option Meaning :=
  match takeFields [2, 1, 1] body with
  | some ([bay, mode, n], rest) =>
    match wireLines rest with
    | some lines => if lines.length = n then some (execOrderEnter tag bay mode lines) else none
    | none => none
  | _ => none

/-- LANE SET: lane, dwell, stall, and the exit read setting behind its presence byte. -/
def laneSetFrame (tag : Nat) (body : List Byte) : Option Meaning :=
  match takeFields [1, 1, 2, 1] body with
  | some ([ln, dwell, stall, 0], []) => some (execLaneSet tag ln dwell stall none)
  | some ([ln, dwell, stall, 1], [e]) => some (execLaneSet tag ln dwell stall (some e.toNat))
  | _ => none

/-- TAKE: runner, filter kind, and the number of the kinds that have one, without a presence byte (the model's choice,
log entry 15). -/
def takeFrame (tag : Nat) (body : List Byte) : Option Meaning :=
  match takeFields [1, 1] body with
  | some ([r, 0], []) => some (execTake tag r 0 0)
  | some ([r, 1], [hi, lo]) => some (execTake tag r 1 (getU16 hi lo))
  | some ([r, 2], [n]) => some (execTake tag r 2 n.toNat)
  | _ => none

/-- POST MAP: loop, and 128 presences without a count. -/
def postMapFrame (tag : Nat) (body : List Byte) : Option Meaning :=
  match takeFields [1] body with
  | some ([lp], bits) => if bits.length = 128 then some (execPostMap tag lp (bits.map BitVec.toNat)) else none
  | _ => none

/-- SITE PLAN: screen, and 256 bay states without a count. -/
def sitePlanFrame (tag : Nat) (body : List Byte) : Option Meaning :=
  match takeFields [1] body with
  | some ([sc], bits) => if bits.length = 256 then some (execSitePlan tag sc (bits.map BitVec.toNat)) else none
  | _ => none

/-- A request that carries nothing. -/
def fields0 (body : List Byte) (m : Meaning) : Option Meaning :=
  match wholeFields [] body with
  | some [] => some m
  | _ => none

/-- A request of one number. -/
def fields1 (body : List Byte) (a : Nat) (m : Nat → Meaning) : Option Meaning :=
  match wholeFields [a] body with
  | some [x] => some (m x)
  | _ => none

/-- A request of two numbers. -/
def fields2 (body : List Byte) (a b : Nat) (m : Nat → Nat → Meaning) : Option Meaning :=
  match wholeFields [a, b] body with
  | some [x, y] => some (m x y)
  | _ => none

/-- A request of three numbers. -/
def fields3 (body : List Byte) (a b c : Nat) (m : Nat → Nat → Nat → Meaning) : Option Meaning :=
  match wholeFields [a, b, c] body with
  | some [x, y, z] => some (m x y z)
  | _ => none

/-- SEND: loop, post, kind, enable and value of each side, priority. -/
def sendFrame (tag : Nat) (body : List Byte) : Option Meaning :=
  match wholeFields [1, 1, 1, 1, 1, 1, 1, 1] body with
  | some [lp, post, kind, e0, v0, e1, v1, prio] => some (execSend tag lp post kind e0 v0 e1 v1 prio)
  | _ => none

/-- LOOP SET: loop, window, LEND_ALLOWED, lend setting. -/
def loopSetFrame (tag : Nat) (body : List Byte) : Option Meaning :=
  match wholeFields [1, 1, 1, 2] body with
  | some [lp, window, allow, lend] => some (execLoopSet tag lp window allow lend)
  | _ => none

/-- SERVO SET: screen, the signed offset, window, deadband, gain, Rmax, and the coast limit in milliseconds. -/
def servoSetFrame (tag : Nat) (body : List Byte) : Option Meaning :=
  match wholeFields [1, 2, 2, 1, 1, 2, 4] body with
  | some [sc, o, w, d, k, m, l] => some (execServoSet tag sc (signed16 o) w d k m l)
  | _ => none

/-- MENU SET: item, station, price, available flag, stock mode. -/
def menuSetFrame (tag : Nat) (body : List Byte) : Option Meaning :=
  match wholeFields [1, 1, 2, 1, 1] body with
  | some [item, st, price, a, md] => some (execMenuSet tag item st price a md)
  | _ => none

/-- The request that a good frame is: what its KIND does with the fields of its body (spec/10, Catalogue of requests);
none where the LENGTH is not that of the fields, a presence byte is neither 0x00 nor 0x01, or the KIND is no request's
(R202). Values beyond their lists are malformed to the request itself. -/
def frameMeaning (kind tag : Nat) (body : List Byte) : Option Meaning :=
  match kind with
  | 0x01 => loadCuesFrame tag body
  | 0x02 => fields1 body 1 (execStart tag)
  | 0x03 => fields1 body 1 (execResume tag)
  | 0x04 => fields1 body 1 (execStopShow tag)
  | 0x05 => fields1 body 1 (execClearShow tag)
  | 0x06 => fields3 body 1 1 1 (execFlagSet tag)
  | 0x07 => fields2 body 1 1 (execLights tag)
  | 0x08 => fields3 body 1 1 1 (execTimelineSet tag)
  | 0x09 => fields1 body 1 (execShowStatus tag)
  | 0x0A => fields1 body 1 (execResetScreen tag)
  | 0x0B => fields2 body 1 1 (execSource tag)
  | 0x0C => servoSetFrame tag body
  | 0x0D => fields2 body 1 2 (execLevelSet tag)
  | 0x0E => fields1 body 1 (execSoundStatus tag)
  | 0x0F => postMapFrame tag body
  | 0x10 => sendFrame tag body
  | 0x11 => fields2 body 1 1 (execSendAbort tag)
  | 0x12 => fields1 body 1 (execFieldSummary tag)
  | 0x13 => loopSetFrame tag body
  | 0x14 => fields1 body 1 (execLoopStatus tag)
  | 0x15 => fields2 body 1 1 (execPostStatus tag)
  | 0x16 => fields1 body 1 (execLoopReset tag)
  | 0x17 => fields1 body 1 (execLaneOpen tag)
  | 0x18 => fields1 body 1 (execLaneClose tag)
  | 0x19 => laneSetFrame tag body
  | 0x1A => fields1 body 1 (execLaneStatus tag)
  | 0x1B => fields1 body 4 (execTicketQuery tag)
  | 0x1C => sitePlanFrame tag body
  | 0x1D => fields2 body 1 2 (execCapacitySet tag)
  | 0x1E => fields1 body 1 (execCtSet tag)
  | 0x1F => fields1 body 2 (execCarRemove tag)
  | 0x20 => fields1 body 2 (execCarQuery tag)
  | 0x21 => fields1 body 2 (execBayQuery tag)
  | 0x22 => fields1 body 1 (execFieldStatus tag)
  | 0x23 => menuSetFrame tag body
  | 0x24 => fields2 body 1 2 (execRestock tag)
  | 0x25 => fields2 body 1 2 (execStockWaste tag)
  | 0x26 => orderEnterFrame tag body
  | 0x27 => fields1 body 1 (execOrderRelease tag)
  | 0x28 => fields1 body 2 (execForceCancel tag)
  | 0x29 => fields1 body 1 (execMenuQuery tag)
  | 0x2A => fields1 body 2 (execOrderQuery tag)
  | 0x2B => fields0 body (execOeStatus tag)
  | 0x2C => fields1 body 1 (execStationNext tag)
  | 0x2D => fields3 body 1 2 1 (execStationDone tag)
  | 0x2E => fields1 body 1 (execStationStatus tag)
  | 0x2F => fields0 body (execReadyStatus tag)
  | 0x30 => takeFrame tag body
  | 0x31 => fields2 body 1 2 (execDelivered tag)
  | 0x32 => fields2 body 1 2 (execReturnOrder tag)
  | 0x33 => fields1 body 1 (execRunnerSet tag)
  | 0x34 => fields1 body 1 (execRunnerStatus tag)
  | 0x35 => fields0 body (execRunnersStatus tag)
  | 0x36 => fields1 body 1 (execStoreTest tag)
  | 0x37 => fields0 body (execStoreStatus tag)
  | 0x38 => fields0 body (execStoreClear tag)
  | 0x39 => fields0 body (execOpenNight tag)
  | 0x3A => fields0 body (execCloseNight tag)
  | 0x3B => fields0 body (execResetDevice tag)
  | 0x3C => fields0 body (execLinkStatus tag)
  | _ => none

/-! ## The receiver (R201) -/

/-- The state a meaning leaves; every request has one (no meaning stops). -/
def Meaning.run (m : Meaning) (s : State) : State :=
  match m s with
  | .next t => t
  | .fault _ => s
  | .refused _ => s

/-- A good frame (R202, R204): the request it is, or one answered UNKNOWN. -/
def State.goodFrame (s : State) (kind tag : Nat) (body : List Byte) : State :=
  ((frameMeaning kind tag body).getD (Sys2Proof.Machine.request kind tag malformed)).run s

/-- The frame in progress is discarded: the receiver is hunting, and the discard is counted unless a RESET DEVICE waits
(R201, R210). -/
def State.discardFrame (s : State) : State :=
  if s.link.resetPending then { s with link := s.link.hunt } else { s with link := s.link.hunt.countError }

/-- A frame whose last byte has arrived, from KIND on: `n` is its LENGTH and `crc` the CRC of what it covers. -/
def State.endFrame (s : State) (n : Nat) (crc : BitVec 16) : List Byte → State
  | kind :: tag :: rest =>
    if crc = BitVec.ofNat 16 (numberOf (rest.drop n)) then s.goodFrame kind.toNat tag.toNat (rest.take n)
    else s.discardFrame
  | _ => s.discardFrame

/-- A byte arrives on the host link (R201). -/
def State.takeHostByte (s : State) (b : Byte) : State :=
  match s.link.rx with
  | none => if b = 0xA5#8 then { s with link := { s.link with rx := some [] } } else s
  | some got =>
    let got := got ++ [b]
    match got with
    | hi :: lo :: rest =>
      let n := getU16 hi lo
      if 1024 < n then s.discardFrame
      else if rest.length < n + 4 then { s with link := { s.link with rx := some got } }
      else s.endFrame n (crc16 (got.take (n + 4))) rest
    | _ => { s with link := { s.link with rx := some got } }

/-- A gap of more than 5 ms ends the frame in progress, if there is one (R201). -/
def State.hostGap (s : State) : State :=
  match s.link.rx with
  | none => s
  | some _ => s.discardFrame

/-- The bytes on the host link arrive, one after the other. -/
def State.takeHostLine (s : State) : State :=
  s.hostLine.foldl State.takeHostByte { s with hostLine := [] }

/-- The byte that ends a gap is the first byte of a hunt (R201). -/
def State.takeGapByte (s : State) : State :=
  match s.hostLine with
  | [] => s
  | b :: rest => { s with hostLine := rest }.takeHostByte b

/-- HOST_FRAME_DISCARD (R201): the bytes of a frame that is discarded arrive. What they are decides: the receiver takes
those on the line one after the other. With none on the line the row stands for the discard alone (log entry 33). -/
def execHostFrameDiscard (s : State) : Host.Outcome State Fault Refusal :=
  event (fun s => if s.hostLine = [] then s.discardFrame else s.takeHostLine) s

/-- HOST_FRAME_GAP (R201): a gap ends the frame in progress, and the byte that ends the gap is taken by a hunting
receiver. -/
def execHostFrameGap (s : State) : Host.Outcome State Fault Refusal :=
  event (fun s => s.hostGap.takeGapByte) s

end Sys2Proof.Machine
end

