-- ==== Sys2Proof/Machine/Dispatch.lean ====
section
/-! DEFINITION. The dispatch: one arm for each command, each a direct call of the command's own meaning. -/

namespace Sys2Proof.Machine

/-- The effect of a command on everything but the queue. -/
def exec (i : Instr) (s : State) : Host.Outcome State Fault Refusal :=
  match i with
  | .atSpeedChange sc h on => Sys2Proof.Machine.execAtSpeedChange sc h on s
  | .runoutChange sc h on => Sys2Proof.Machine.execRunoutChange sc h on s
  | .lampOkChange sc h on => Sys2Proof.Machine.execLampOkChange sc h on s
  | .framePulse sc h => Sys2Proof.Machine.execFramePulse sc h s
  | .startTimerExpiry sc => Sys2Proof.Machine.execStartTimerExpiry sc s
  | .motorLeadReached sc => Sys2Proof.Machine.execMotorLeadReached sc s
  | .breakCountdownExpiry sc => Sys2Proof.Machine.execBreakCountdownExpiry sc s
  | .loadCues tag screen reel length cues => Sys2Proof.Machine.execLoadCues tag screen reel length cues s
  | .start tag screen => Sys2Proof.Machine.execStart tag screen s
  | .resume tag screen => Sys2Proof.Machine.execResume tag screen s
  | .stopShow tag screen => Sys2Proof.Machine.execStopShow tag screen s
  | .clearShow tag screen => Sys2Proof.Machine.execClearShow tag screen s
  | .flagSet tag screen flag value => Sys2Proof.Machine.execFlagSet tag screen flag value s
  | .lights tag screen level => Sys2Proof.Machine.execLights tag screen level s
  | .timelineSet tag screen start lead => Sys2Proof.Machine.execTimelineSet tag screen start lead s
  | .showStatus tag screen => Sys2Proof.Machine.execShowStatus tag screen s
  | .resetScreen tag screen => Sys2Proof.Machine.execResetScreen tag screen s
  | .soundLinkByte sc b => Sys2Proof.Machine.execSoundLinkByte sc b s
  | .soundBlockGap sc => Sys2Proof.Machine.execSoundBlockGap sc s
  | .outputTick sc => Sys2Proof.Machine.execOutputTick sc s
  | .coastGapExpiry sc => Sys2Proof.Machine.execCoastGapExpiry sc s
  | .coastLimitExpiry sc => Sys2Proof.Machine.execCoastLimitExpiry sc s
  | .source tag screen src => Sys2Proof.Machine.execSource tag screen src s
  | .servoSet tag screen offset window deadband gain rmax limit => Sys2Proof.Machine.execServoSet tag screen offset window deadband gain rmax limit s
  | .levelSet tag screen level => Sys2Proof.Machine.execLevelSet tag screen level s
  | .soundStatus tag screen => Sys2Proof.Machine.execSoundStatus tag screen s
  | .transactionStart lp => Sys2Proof.Machine.execTransactionStart lp s
  | .headerSent lp => Sys2Proof.Machine.execHeaderSent lp s
  | .loopResponse lp bytes => Sys2Proof.Machine.execLoopResponse lp bytes s
  | .responseWindowExpiry lp => Sys2Proof.Machine.execResponseWindowExpiry lp s
  | .loopStrayBytes lp bytes => Sys2Proof.Machine.execLoopStrayBytes lp bytes s
  | .recoveryTimerExpiry lp post => Sys2Proof.Machine.execRecoveryTimerExpiry lp post s
  | .lendRequestRise lp => Sys2Proof.Machine.execLendRequestRise lp s
  | .lendRequestFall lp => Sys2Proof.Machine.execLendRequestFall lp s
  | .lendTimerExpiry lp => Sys2Proof.Machine.execLendTimerExpiry lp s
  | .lentResponseHeard lp bytes => Sys2Proof.Machine.execLentResponseHeard lp bytes s
  | .postMap tag loop presence => Sys2Proof.Machine.execPostMap tag loop presence s
  | .send tag loop post kind enable0 value0 enable1 value1 prio => Sys2Proof.Machine.execSend tag loop post kind enable0 value0 enable1 value1 prio s
  | .sendAbort tag loop slot => Sys2Proof.Machine.execSendAbort tag loop slot s
  | .fieldSummary tag loop => Sys2Proof.Machine.execFieldSummary tag loop s
  | .loopSet tag loop window lendAllowed lend => Sys2Proof.Machine.execLoopSet tag loop window lendAllowed lend s
  | .loopStatus tag loop => Sys2Proof.Machine.execLoopStatus tag loop s
  | .postStatus tag loop post => Sys2Proof.Machine.execPostStatus tag loop post s
  | .loopReset tag loop => Sys2Proof.Machine.execLoopReset tag loop s
  | .armingLoopChange ln d => Sys2Proof.Machine.execArmingLoopChange ln d s
  | .barrierLoopChange ln d => Sys2Proof.Machine.execBarrierLoopChange ln d s
  | .barrierFeedbackChange ln f => Sys2Proof.Machine.execBarrierFeedbackChange ln f s
  | .barrierTravelExpiry ln => Sys2Proof.Machine.execBarrierTravelExpiry ln s
  | .credential ln c => Sys2Proof.Machine.execCredential ln c s
  | .dwellExpiry ln => Sys2Proof.Machine.execDwellExpiry ln s
  | .stallTimerExpiry ln => Sys2Proof.Machine.execStallTimerExpiry ln s
  | .exitReadExpiry ln => Sys2Proof.Machine.execExitReadExpiry ln s
  | .laneOpen tag lane => Sys2Proof.Machine.execLaneOpen tag lane s
  | .laneClose tag lane => Sys2Proof.Machine.execLaneClose tag lane s
  | .laneSet tag lane dwell stall exitRead => Sys2Proof.Machine.execLaneSet tag lane dwell stall exitRead s
  | .laneStatus tag lane => Sys2Proof.Machine.execLaneStatus tag lane s
  | .ticketQuery tag ticket => Sys2Proof.Machine.execTicketQuery tag ticket s
  | .checkinLimitExpiry car => Sys2Proof.Machine.execCheckinLimitExpiry car s
  | .sitePlan tag screen bays => Sys2Proof.Machine.execSitePlan tag screen bays s
  | .capacitySet tag screen capacity => Sys2Proof.Machine.execCapacitySet tag screen capacity s
  | .ctSet tag limit => Sys2Proof.Machine.execCtSet tag limit s
  | .carRemove tag car => Sys2Proof.Machine.execCarRemove tag car s
  | .carQuery tag car => Sys2Proof.Machine.execCarQuery tag car s
  | .bayQuery tag bay => Sys2Proof.Machine.execBayQuery tag bay s
  | .fieldStatus tag screen => Sys2Proof.Machine.execFieldStatus tag screen s
  | .menuSet tag item station price available mode => Sys2Proof.Machine.execMenuSet tag item station price available mode s
  | .restock tag item qty => Sys2Proof.Machine.execRestock tag item qty s
  | .stockWaste tag item qty => Sys2Proof.Machine.execStockWaste tag item qty s
  | .orderEnter tag bay mode lines => Sys2Proof.Machine.execOrderEnter tag bay mode lines s
  | .orderRelease tag screen => Sys2Proof.Machine.execOrderRelease tag screen s
  | .forceCancel tag order => Sys2Proof.Machine.execForceCancel tag order s
  | .menuQuery tag item => Sys2Proof.Machine.execMenuQuery tag item s
  | .orderQuery tag order => Sys2Proof.Machine.execOrderQuery tag order s
  | .oeStatus tag => Sys2Proof.Machine.execOeStatus tag s
  | .stationNext tag station => Sys2Proof.Machine.execStationNext tag station s
  | .stationDone tag station order line => Sys2Proof.Machine.execStationDone tag station order line s
  | .stationStatus tag station => Sys2Proof.Machine.execStationStatus tag station s
  | .readyStatus tag => Sys2Proof.Machine.execReadyStatus tag s
  | .take tag runner filter arg => Sys2Proof.Machine.execTake tag runner filter arg s
  | .delivered tag runner order => Sys2Proof.Machine.execDelivered tag runner order s
  | .returnOrder tag runner order => Sys2Proof.Machine.execReturnOrder tag runner order s
  | .takeTimerExpiry runner => Sys2Proof.Machine.execTakeTimerExpiry runner s
  | .runnerSet tag limit => Sys2Proof.Machine.execRunnerSet tag limit s
  | .runnerStatus tag runner => Sys2Proof.Machine.execRunnerStatus tag runner s
  | .runnersStatus tag => Sys2Proof.Machine.execRunnersStatus tag s
  | .storeTestVisit => Sys2Proof.Machine.execStoreTestVisit s
  | .storeTest tag table => Sys2Proof.Machine.execStoreTest tag table s
  | .storeStatus tag => Sys2Proof.Machine.execStoreStatus tag s
  | .storeClear tag => Sys2Proof.Machine.execStoreClear tag s
  | .hostFrameDiscard => Sys2Proof.Machine.execHostFrameDiscard s
  | .hostFrameGap => Sys2Proof.Machine.execHostFrameGap s
  | .unknownKind kind tag => Sys2Proof.Machine.execUnknownKind kind tag s
  | .requestBusy kind tag => Sys2Proof.Machine.execRequestBusy kind tag s
  | .linkFrameSent => Sys2Proof.Machine.execLinkFrameSent s
  | .openNight tag => Sys2Proof.Machine.execOpenNight tag s
  | .closeNight tag => Sys2Proof.Machine.execCloseNight tag s
  | .resetDevice tag => Sys2Proof.Machine.execResetDevice tag s
  | .deviceReset => Sys2Proof.Machine.execDeviceReset s
  | .powerOn => Sys2Proof.Machine.execPowerOn s
  | .linkStatus tag => Sys2Proof.Machine.execLinkStatus tag s

end Sys2Proof.Machine
end

