-- ==== Sys2Proof/Safety.lean ====
section
/-! DEFINITION. What a safe run keeps, and the terms in which the statements speak of commands: a part that is ready for a
request, what a step leaves on the host link, which commands are host requests, and the laws of the blocks. -/

namespace Sys2Proof.Machine

/-! ## The host link around one command -/

/-- Every report raised has joined the report queue, as it has after every step. -/
abbrev State.settled (s : State) : Prop :=
  s.yard.raised = []

/-- A good frame that arrives is taken as a request: no RESET DEVICE waits, the reply list has a place and fewer than 8
places belong to requests (R204, R210). -/
abbrev Link.roomy (l : Link) : Prop :=
  l.resetPending = false ∧ l.replies.length < 16 ∧ l.requests < 8

/-- The part between two commands, with room for a request. -/
abbrev State.ready (s : State) : Prop :=
  s.settled ∧ s.link.roomy

/-- The link after a step that raised these reports: they join the queue in order, then a free transmitter starts its
next frame (R206, R207). -/
def Link.after (l : Link) (reports : List Report) : Link :=
  (reports.foldl Link.enqueue l).kick

/-- A state that differs only by the reports of a step. -/
def State.reported (s : State) (reports : List Report) : State :=
  { s with link := s.link.after reports }

/-- A state that differs only by the reply of a request at the tail of the reply list and by the reports of the step. -/
def State.answered (s : State) (kind tag : Nat) (r : Reply) (reports : List Report) : State :=
  { s with link := (s.link.addPlace (.request kind tag r)).after reports }

/-- A state with one screen's timeline in place of its own. -/
def State.withScreen (s : State) (sc : ScreenId) (r : Screen) : State :=
  { s with screens := s.screens.set sc r }

/-- A state with one screen's sound path in place of its own. -/
def State.withSound (s : State) (sc : ScreenId) (r : Sound) : State :=
  { s with sound := s.sound.set sc r }

/-- A state with one lane's record in place of its own. -/
def State.withLane (s : State) (ln : LaneId) (r : Lane) : State :=
  { s with lanes := s.lanes.set ln r }

/-- A state with one loop's record in place of its own. -/
def State.withLoop (s : State) (lp : ScreenId) (r : LoopRec) : State :=
  { s with yard := { s.yard with loops := s.yard.loops.set lp r } }

/-- What a command of one screen leaves alone: the other screens' timelines and sound paths, and the lanes. -/
def State.apartFromScreen (s : State) (sc : ScreenId) (t : State) : Prop :=
  (∀ k, k ≠ sc → t.screens[k] = s.screens[k] ∧ t.sound[k] = s.sound[k]) ∧ t.lanes = s.lanes

/-- What a command of one lane leaves alone: the other lanes, the screens and the sound paths. -/
def State.apartFromLane (s : State) (ln : LaneId) (t : State) : Prop :=
  (∀ k, k ≠ ln → t.lanes[k] = s.lanes[k]) ∧ t.screens = s.screens ∧ t.sound = s.sound

/-- Whether every slot of a table has good parity. -/
def tableUndamaged {ρ : Type} (t : Tab (Slot ρ)) : Bool :=
  t.all fun e => !e.2.badFirst && !e.2.badSecond

/-- Whether no record of the store is damaged, so that no read meets a parity fault (R191). -/
def Store.undamaged (st : Store) : Bool :=
  tableUndamaged st.cars && tableUndamaged st.bays && tableUndamaged st.orders && tableUndamaged st.menu &&
    tableUndamaged st.tickets

/-- Whether every slot of a table that holds a record has good parity. -/
def recordsSound {ρ : Type} (t : Tab (Slot ρ)) : Bool :=
  t.all fun e => e.2.record?.isNone || (!e.2.badFirst && !e.2.badSecond)

/-- Whether no read of the store would meet a parity fault (R191). -/
def Store.sound (st : Store) : Bool :=
  recordsSound st.cars && recordsSound st.bays && recordsSound st.orders && recordsSound st.menu && recordsSound st.tickets

/-- The halves of a damaged slot that a read finds wrong (R191). -/
def Slot.damaged {ρ : Type} (sl : Slot ρ) (h : Halves) : Prop :=
  (sl.badFirst || sl.badSecond) = true ∧
    h = (if sl.badFirst && sl.badSecond then .both else if sl.badFirst then .first else .second)

/-- A store in which one parity fault has been latched and counted, with no handling left to do (R191, R192). -/
def Store.hasLatched (st old : Store) (tb : TableId) (i : Nat) (h : Halves) : Prop :=
  st.latch = some (tb, i, h) ∧ st.faultCount = min (old.faultCount + 1) 255 ∧ st.waiting = [] ∧ st.test = old.test

/-- Whether a value for a bay's side is on its way: a PENDING slot for its post and kind carries it, or the post is not
reachable and the item was completed at once (R75). -/
def Yard.sends (y : Yard) (kind : SlotKind) (bay v : Nat) : Prop :=
  let l := y.loops[bayLoop bay]
  (l.post (bayPost bay)).present = false ∨ (l.post (bayPost bay)).conf = .dropped ∨
    ∃ i : Fin 16, (l.slots[i]).use = .pending ∧ (l.slots[i]).post = bayPost bay ∧ (l.slots[i]).kind = kind ∧
      (if bay % 2 = 0 then (l.slots[i]).v0 else (l.slots[i]).v1) = some v

/-- Whether a ticket is in the used-ticket set or carried by a car record (R98, check 1). -/
def Yard.ticketKnown (y : Yard) (ticket : Nat) : Bool :=
  (inUse y.store.tickets).any (fun e => e.2.ticket == ticket) || (inUse y.store.cars).any fun e => e.2.ticket == ticket

/-- The screen a credential's choice gives (R97): the one it names, or for ANY the open screen with the most free
capacity, the lowest-numbered of several, and none where no gate is open. -/
def State.chosen (s : State) (choice : Nat) (sc : Option ScreenId) : Prop :=
  (∃ k : ScreenId, choice = k.val ∧ sc = some k) ∨
  (choice = 4 ∧ match sc with
    | none => ∀ k : ScreenId, (s.screens[k]).gateOpen = false
    | some b => (s.screens[b]).gateOpen = true ∧ ∀ k : ScreenId, k ≠ b → (s.screens[k]).gateOpen = true →
        s.yard.capacity[k] - s.yard.admittedCount[k] < s.yard.capacity[b] - s.yard.admittedCount[b] ∨
        b < k ∧ s.yard.capacity[k] - s.yard.admittedCount[k] = s.yard.capacity[b] - s.yard.admittedCount[b])

/-- Whether every quarantined slot of a table stands unchanged in another (R200). -/
def quarantineKept {ρ : Type} (old new : Tab (Slot ρ)) : Prop :=
  ∀ i, (Tab.get Slot.blank old i).isQuarantined = true → Tab.get Slot.blank new i = Tab.get Slot.blank old i

/-- The slots of a table that a device reset leaves quarantined: those quarantined, and those under test that were
(R198, R200). -/
def quarantinedAfterReset {ρ : Type} (t : Tab (Slot ρ)) : Nat :=
  t.countP fun e => match e.2.state with
    | .quarantined => true
    | .underTest was => was
    | .free => false
    | .inUse _ => false

/-- The units an order gives back at a void and those it loses (R172): of the lines whose item is in service, those
PENDING and those a station has started. -/
def Yard.unitsOf (y : Yard) (o : Order) (pending : Bool) : Nat :=
  ((o.lines.filter fun l => (y.item? l.item).isSome && decide (l.state = .pending) == pending).map Line.qty).sum

/-- The tallies of an item (R137): those of a FINITE item add up to its loaded total; an UNLIMITED item has loaded and
remaining at 0. -/
def MenuItem.balanced (m : MenuItem) : Prop :=
  match m.mode with
  | .finite => m.loaded = m.remaining + m.pending + m.sold + m.waste ∧ m.loaded ≤ 65535
  | .unlimited => m.loaded = 0 ∧ m.remaining = 0 ∧ m.pending ≤ 65535 ∧ m.sold ≤ 65535 ∧ m.waste ≤ 65535

/-- The units of an item on an order's lines that are PENDING, or on those that are not (R152, R172). -/
def Order.unitsOn (o : Order) (item : Nat) (pending : Bool) : Nat :=
  ((o.lines.filter fun l => l.item == item && decide (l.state = .pending) == pending).map Line.qty).sum

/-- An item's record after an order with these units PENDING and started has been settled (R137, R152, R154, R172): the
PENDING units go back to remaining, or out of an UNLIMITED item's pending, and the started ones to waste. -/
def MenuItem.gaveBack (m : MenuItem) (pending started : Nat) : MenuItem :=
  match m.mode with
  | .finite => { m with
      pending := m.pending - min pending m.pending, remaining := m.remaining + min pending m.pending
      sold := m.sold - min started m.sold, waste := m.waste + min started m.sold }
  | .unlimited => { m with
      pending := m.pending - pending, sold := m.sold - started, waste := min (m.waste + started) 65535 }

/-- What the settlement of an order leaves of the yard, whatever its lines (R150, R152, R154, R168, R172): its slot is
free and no other order's slot changed; every list is as it was without it, the row of its entry on the ready list
counting one less; and its lines' units are settled for each item in service, no other item changing. -/
def Yard.orderGone (y : Yard) (i : Nat) (o : Order) (z : Yard) : Prop :=
  z.orderSlot i = (y.orderSlot i).release ∧ (∀ j, j ≠ i → z.orderSlot j = y.orderSlot j) ∧
  (∀ sc : ScreenId, z.held[sc] = (y.held[sc]).filter fun e => e.order != o.number) ∧
  (∀ st : StationId, z.queues[st] = (y.queues[st]).filter fun q => q.order != o.number) ∧
  z.readyList = (y.readyList.filter fun e => e.order != o.number) ∧
  (∀ e, y.readyEntry? o.number = some e →
    ∀ w, z.rowCount w = y.rowCount w - (if e.row = some w then 1 else 0)) ∧
  ((∀ e ∈ y.readyList, e.order ≠ o.number) → z.rowCounts = y.rowCounts) ∧
  ∀ k, (y.item? k = none → z.item? k = none) ∧
    ∀ m, y.item? k = some m → m.balanced → z.item? k = some (m.gaveBack (o.unitsOn k true) (o.unitsOn k false))

/-- The orders that a departure settles: of the orders in the table, each with its slot, those that the car's list names, in
list order, but for the TAKEN ones, which stay with their runners; an order that is settled is gone from the table (R131,
R155). -/
def settledAtDeparture : List (Nat × Order) → List Nat → List Order
  | _, [] => []
  | table, k :: ks =>
    match table.find? fun e => e.2.number == k with
    | some (j, o) =>
      if o.state = .taken then settledAtDeparture table ks
      else o :: settledAtDeparture (table.filter fun e => e.1 != j) ks
    | none => settledAtDeparture table ks

/-- The law of one visit of the slot test (R197, R198), for one table: a slot in use is passed over, a free or
quarantined slot is judged by its memory, the cursor moves on, and past the last slot the test ends and is reported. -/
def visitLaw {ρ : Type} (tb : TableId) (slot : Yard → Nat → Slot ρ) (put : Yard → Nat → Slot ρ → Yard) : Prop :=
  ∀ (s : State) (tr tr' : TestRun) (sl sl' : Slot ρ), s.settled → s.yard.store.test = some tr → tr.table = tb →
    slot s.yard tr.cursor = sl →
    ((∃ r, sl.state = .inUse r) ∧ sl' = sl ∧ tr' = { tr with cursor := tr.cursor + 1, passed := tr.passed + 1 } ∨
      sl.state = .free ∧ sl.failing = false ∧ sl' = { sl with badFirst := false, badSecond := false } ∧
        tr' = { tr with cursor := tr.cursor + 1, visited := tr.visited + 1 } ∨
      sl.state = .free ∧ sl.failing = true ∧ sl' = { sl with state := .quarantined } ∧
        tr' = { tr with cursor := tr.cursor + 1, visited := tr.visited + 1, quarantined := tr.quarantined + 1 } ∨
      sl.state = .quarantined ∧ sl.failing = false ∧ sl' = { sl with state := .free, badFirst := false, badSecond := false } ∧
        tr' = { tr with cursor := tr.cursor + 1, visited := tr.visited + 1, returned := tr.returned + 1 } ∨
      sl.state = .quarantined ∧ sl.failing = true ∧ sl' = sl ∧
        tr' = { tr with cursor := tr.cursor + 1, visited := tr.visited + 1 }) →
    exec .storeTestVisit s = .next (({ s with
      yard := (put s.yard tr.cursor sl').setTest (if tr'.cursor < tb.size then some tr' else none) } : State).reported
      (if tr'.cursor < tb.size then []
       else [.storeTestDone tb tr'.visited tr'.passed tr'.returned tr'.quarantined]))

/-- What the completion of a changeover leaves of a screen, before the frame-0 cues of the new reel fire (R11, R14): the
outgoing head's douser closed, its motor on with the stop-at-runout marker set if it is RUNNING and off otherwise; the
incoming head's douser open and its marker clear; the reel raised, the staged set active where it is the new reel's, with
every fired marker clear, the staged slot empty and the lead-fired marker clear; the frame in reel at 0 and F as it stood.
-/
def Screen.completed (r : Screen) : Screen :=
  let out := r.head r.outgoing
  let inc := r.head r.incoming
  let runs := decide (out.state = .running)
  { (r.setHead r.outgoing { out with
        douser := false, motor := runs, speedLost := false, stopAtRunout := runs || out.stopAtRunout }).setHead r.incoming
      { inc with douser := true, stopAtRunout := false } with
    phase := .playing, reel := r.reel + 1, frame := 0, countdown := none, heldHead := none, staged := none
    leadFired := false, orderingOpen := true, breakWindow := false
    active := r.staged.bind fun cs =>
      if cs.reel = r.reel + 1 then some { cs with cues := cs.cues.map fun c => (c.1, false) } else none }

/-- A screen after the cues due at a frame have fired in list order, none of them a CHANGEOVER, each marked as it fires
(R5, R7, R8); what each does is stated by CueEffects. -/
def Screen.cuesFired (r : Screen) (sc : ScreenId) (frame : Nat) : Screen :=
  ((r.due frame).foldl (fun w e => (w.mod fun x => x.markFired e.1).cueEffect e.2)
    ({ id := sc, sc := r, out := [] } : ShowRun)).sc

/-- Whether a list of due cues holds no CHANGEOVER. -/
def noChangeover (due : List (Nat × Cue)) : Prop :=
  ∀ e ∈ due, e.2.kind ≠ .changeover

/-- A screen in the BREAK that a CHANGEOVER with a break length starts, on a given reel (R17). -/
def Screen.inBreak (u : Screen) (reel len : Nat) : Prop :=
  u.phase = .onBreak ∧ u.reel = reel ∧ u.countdown = some (len * 1000)

/-- A sound path whose source has just changed from one source to another (R49, R56): a break ring that is left is
emptied with its cursor unset; a servo that is left keeps its values with its timers stopped and no gap open, and one
that is picked up goes on by its state, with its timers. -/
def Sound.sourceChangedTo (r : Sound) (src : Source) (u : Sound) : Prop :=
  u.source = src ∧ u.ramp = none ∧
    (r.source = .onBreak → u.brk = [] ∧ u.cursor = none) ∧
    (r.source ≠ .onBreak → u.brk = r.brk ∧ u.cursor = r.cursor) ∧
    (r.source = .programme → u.servo.state = r.servo.state ∧ u.servo.gap = none ∧ u.servo.coastGap = none ∧
      u.servo.coastLimit = none) ∧
    (src = .programme →
      u.servo.state = (if r.servo.state = .silent then .capture else r.servo.state) ∧
      u.servo.coastGap = (if r.servo.state ∈ [ServoState.track, .locked] then some 250 else r.servo.coastGap) ∧
      u.servo.coastLimit = (if r.servo.state ≠ .coast then r.servo.coastLimit
        else if r.servo.settings.coastLimit = 0 then none else some r.servo.settings.coastLimit))

/-! ## Host requests (spec/10, Catalogue of requests) -/

/-- The KIND and TAG of a command that is a request of the catalogue; none for an event of the equipment. -/
def requestOf : Instr → Option (Nat × Nat)
  | .loadCues tag _ _ _ _ => some (0x01, tag)
  | .start tag _ => some (0x02, tag)
  | .resume tag _ => some (0x03, tag)
  | .stopShow tag _ => some (0x04, tag)
  | .clearShow tag _ => some (0x05, tag)
  | .flagSet tag _ _ _ => some (0x06, tag)
  | .lights tag _ _ => some (0x07, tag)
  | .timelineSet tag _ _ _ => some (0x08, tag)
  | .showStatus tag _ => some (0x09, tag)
  | .resetScreen tag _ => some (0x0A, tag)
  | .source tag _ _ => some (0x0B, tag)
  | .servoSet tag _ _ _ _ _ _ _ => some (0x0C, tag)
  | .levelSet tag _ _ => some (0x0D, tag)
  | .soundStatus tag _ => some (0x0E, tag)
  | .postMap tag _ _ => some (0x0F, tag)
  | .send tag _ _ _ _ _ _ _ _ => some (0x10, tag)
  | .sendAbort tag _ _ => some (0x11, tag)
  | .fieldSummary tag _ => some (0x12, tag)
  | .loopSet tag _ _ _ _ => some (0x13, tag)
  | .loopStatus tag _ => some (0x14, tag)
  | .postStatus tag _ _ => some (0x15, tag)
  | .loopReset tag _ => some (0x16, tag)
  | .laneOpen tag _ => some (0x17, tag)
  | .laneClose tag _ => some (0x18, tag)
  | .laneSet tag _ _ _ _ => some (0x19, tag)
  | .laneStatus tag _ => some (0x1A, tag)
  | .ticketQuery tag _ => some (0x1B, tag)
  | .sitePlan tag _ _ => some (0x1C, tag)
  | .capacitySet tag _ _ => some (0x1D, tag)
  | .ctSet tag _ => some (0x1E, tag)
  | .carRemove tag _ => some (0x1F, tag)
  | .carQuery tag _ => some (0x20, tag)
  | .bayQuery tag _ => some (0x21, tag)
  | .fieldStatus tag _ => some (0x22, tag)
  | .menuSet tag _ _ _ _ _ => some (0x23, tag)
  | .restock tag _ _ => some (0x24, tag)
  | .stockWaste tag _ _ => some (0x25, tag)
  | .orderEnter tag _ _ _ => some (0x26, tag)
  | .orderRelease tag _ => some (0x27, tag)
  | .forceCancel tag _ => some (0x28, tag)
  | .menuQuery tag _ => some (0x29, tag)
  | .orderQuery tag _ => some (0x2A, tag)
  | .oeStatus tag => some (0x2B, tag)
  | .stationNext tag _ => some (0x2C, tag)
  | .stationDone tag _ _ _ => some (0x2D, tag)
  | .stationStatus tag _ => some (0x2E, tag)
  | .readyStatus tag => some (0x2F, tag)
  | .take tag _ _ _ => some (0x30, tag)
  | .delivered tag _ _ => some (0x31, tag)
  | .returnOrder tag _ _ => some (0x32, tag)
  | .runnerSet tag _ => some (0x33, tag)
  | .runnerStatus tag _ => some (0x34, tag)
  | .runnersStatus tag => some (0x35, tag)
  | .storeTest tag _ => some (0x36, tag)
  | .storeStatus tag => some (0x37, tag)
  | .storeClear tag => some (0x38, tag)
  | .openNight tag => some (0x39, tag)
  | .closeNight tag => some (0x3A, tag)
  | .resetDevice tag => some (0x3B, tag)
  | .linkStatus tag => some (0x3C, tag)
  | .atSpeedChange _ _ _ => none
  | .runoutChange _ _ _ => none
  | .lampOkChange _ _ _ => none
  | .framePulse _ _ => none
  | .startTimerExpiry _ => none
  | .motorLeadReached _ => none
  | .breakCountdownExpiry _ => none
  | .soundLinkByte _ _ => none
  | .soundBlockGap _ => none
  | .outputTick _ => none
  | .coastGapExpiry _ => none
  | .coastLimitExpiry _ => none
  | .transactionStart _ => none
  | .headerSent _ => none
  | .loopResponse _ _ => none
  | .responseWindowExpiry _ => none
  | .loopStrayBytes _ _ => none
  | .recoveryTimerExpiry _ _ => none
  | .lendRequestRise _ => none
  | .lendRequestFall _ => none
  | .lendTimerExpiry _ => none
  | .lentResponseHeard _ _ => none
  | .armingLoopChange _ _ => none
  | .barrierLoopChange _ _ => none
  | .barrierFeedbackChange _ _ => none
  | .barrierTravelExpiry _ => none
  | .credential _ _ => none
  | .dwellExpiry _ => none
  | .stallTimerExpiry _ => none
  | .exitReadExpiry _ => none
  | .checkinLimitExpiry _ => none
  | .takeTimerExpiry _ => none
  | .storeTestVisit => none
  | .hostFrameDiscard => none
  | .hostFrameGap => none
  | .unknownKind _ _ => none
  | .requestBusy _ _ => none
  | .linkFrameSent => none
  | .deviceReset => none
  | .powerOn => none

/-! ## The laws of the blocks -/

/-- The link's lists within their sizes (R204, R206), its counts within two bytes (R201, R206), and nothing raised that
has not joined the queue. -/
def State.linkLaw (s : State) : Prop :=
  s.settled ∧ s.link.replies.length ≤ 16 ∧ s.link.requests ≤ 8 ∧ s.link.reports.length ≤ 128 ∧
    s.link.linkErrors ≤ 65535 ∧ s.link.lostCount ≤ 65535

/-- A head with its motor off and its douser closed by command: the speed-lost marker goes with the motor (R1), and the
stop-at-runout marker is cleared (R24, R26, R33). -/
def HeadRec.stopped (h : HeadRec) : HeadRec :=
  { h with motor := false, douser := false, speedLost := false, stopAtRunout := false }

/-- A screen with both heads stopped, no held head and no break countdown (R24, R26). -/
def Screen.stopped (sc : Screen) : Screen :=
  { sc with headA := sc.headA.stopped, headB := sc.headB.stopped, heldHead := none, countdown := none }

/-- The source a sound path has been asked for last: the pending one of a ramp-down, else the current one (R55). -/
def Sound.asked (sd : Sound) : Source :=
  (sd.ramp.map Prod.fst).getD sd.source

/-- Whether a head's motor and douser are both commanded off. -/
def HeadRec.off (h : HeadRec) : Bool :=
  !h.motor && !h.douser

/-- The douser law of R3: an open douser is that of the head of the current reel. With it, the dousers are closed before
a show has started, both heads are off in DARK, ENDED and HALTED (R24, R26, R33), and a start is a start of reel 1. -/
def Screen.lawful (sc : Screen) : Prop :=
  (∀ h, (sc.head h).douser = true → sc.isOnScreen h = true) ∧
  (sc.phase ∈ [ShowState.loaded, .starting] →
    sc.headA.douser = false ∧ sc.headB.douser = false ∧ sc.reel = 1) ∧
  (sc.phase ∈ [ShowState.dark, .ended, .halted] → sc.headA.off = true ∧ sc.headB.off = true) ∧
  (sc.phase = .held → sc.heldHead.isSome = true) ∧
  (sc.startTimer.isSome = true → sc.phase = .starting) ∧
  (sc.countdown.isSome = true → sc.phase = .onBreak)

/-- A stereo sample within 16 bits. -/
def in16 (x : Stereo) : Prop :=
  (-32768 ≤ x.1 ∧ x.1 ≤ 32767) ∧ (-32768 ≤ x.2 ∧ x.2 ≤ 32767)

/-- The ranges of the servo's settings (R41). -/
def ServoSettings.inRange (v : ServoSettings) : Prop :=
  (-4000 ≤ v.offset ∧ v.offset ≤ 4000) ∧ (480 ≤ v.window ∧ v.window ≤ 16000) ∧ v.deadband ≤ 32 ∧
    (1 ≤ v.gain ∧ v.gain ≤ 64) ∧ v.rmax ≤ 1310 ∧ (v.coastLimit = 0 ∨ 500 ≤ v.coastLimit ∧ v.coastLimit ≤ 10000)

/-- The servo's laws: settings in range (R41), the rate within Rmax (R45, R60), the accumulator short of a threshold
(R50), the lock run at most 24 (R46). -/
def Servo.lawful (v : Servo) : Prop :=
  v.settings.inRange ∧ v.r.natAbs ≤ v.settings.rmax ∧ v.a.natAbs < 65536 ∧ v.lockRun ≤ 24

/-- A sound path's laws: those of its servo, the level record within its ranges (R54), and both outputs within 16 bits
(R53). -/
def Sound.lawful (sd : Sound) : Prop :=
  sd.servo.lawful ∧ sd.level ≤ 320 ∧ sd.target ≤ 320 ∧ sd.stepCount ≤ 47 ∧ in16 sd.feed ∧ in16 sd.bus

/-- A lane's laws: the barrier is never commanded DOWN over an occupied loop (R93), it is commanded UP while a vehicle
is let through, a pending admission or exit stands only then, and each timer runs only in its state (R99 to R108). -/
def Lane.lawful (l : Lane) : Prop :=
  (Detector.isOccupied l.barrierLoop = true → l.command = .up) ∧
  (l.state ∈ [LaneState.opening, .passing, .stalled] → l.command = .up) ∧
  (l.pending ≠ .absent → l.state ∈ [LaneState.opening, .passing, .stalled]) ∧
  (l.dwell.isSome = true → l.state = .opening) ∧
  (l.stall.isSome = true → l.state = .passing) ∧
  (l.exitRead.isSome = true → l.state = .present)

/-- Every item in service has balanced tallies. -/
def State.menuLaw (s : State) : Prop :=
  ∀ e ∈ s.yard.store.menu, ∀ m, e.2.record? = some m → m.balanced

/-- The canonical form of one loop's tables. -/
def LoopRec.canonical (l : LoopRec) : Bool :=
  Tab.wf Post.reset l.posts && Tab.wf false l.rows

/-- The canonical form of the five tables of the store. -/
def Store.canonical (st : Store) : Bool :=
  Tab.wf Slot.blank st.cars && Tab.wf Slot.blank st.bays && Tab.wf Slot.blank st.orders &&
    Tab.wf Slot.blank st.menu && Tab.wf Slot.blank st.tickets

/-- The canonical form of every sparse table: equal contents are equal data. -/
def State.canonical (s : State) : Bool :=
  (s.sound.toList.all fun sd => Tab.wf none sd.prog && Tab.wf none sd.brk) &&
    (s.yard.loops.toList.all LoopRec.canonical) && s.yard.store.canonical && Tab.wf none s.yard.limits &&
    Tab.wf false s.yard.spkMarks && Tab.wf 0 s.yard.rowCounts && Tab.wf false s.yard.lampMarks

end Sys2Proof.Machine
end

