-- ==== Sys2Proof/Certificates/Slice0/Obligations.lean ====
section
/-! DEFINITION. The statements for the provers, family by family. Unless a statement says otherwise it speaks of every
state, reached by a run or not. A request is stated in a part that is ready for it (State.ready), an event of the equipment
in a settled state; what stands for the link afterwards (State.answered, State.reported) is spelled out by the statements
of the link. -/

open Sys2Proof Sys2Proof.Machine

/-! ## The machine as a whole -/

/-- A step takes the command at the front of the queue: it is exec of that command on the state with the queue's rest.
-/
def Obligations.StepTakesFrontCommand : Prop :=
  ∀ (c : Instr) (rest : List Instr) (s : State),
    step { s with pending := c :: rest } = exec c { s with pending := rest }

/-- With no command waiting, one millisecond passes (the model's choice, log entry 1, as are the order and the place in
the queue of what falls due): the night clock counts in RUN and stands in SETUP (R208), every running countdown runs
down by one millisecond, no block changes otherwise its state, and the commands then waiting are the expiries of the
countdowns that have come to their end. -/
def Obligations.IdleStepPassesAMillisecond : Prop :=
  ∀ s : State, s.pending = [] → ∃ t, step s = .next t ∧
    (s.link.part = .run → s.link.clock < 4294967295 → t.link = { s.link with clock := s.link.clock + 1 }) ∧
    (s.link.part = .setup → t.link = s.link) ∧
    (∀ sc : ScreenId, t.screens[sc] = { s.screens[sc] with
      countdown := s.screens[sc].countdown.map (· - 1), startTimer := s.screens[sc].startTimer.map (· - 1) }) ∧
    (∀ ln : LaneId, t.lanes[ln] = { s.lanes[ln] with
      dwell := s.lanes[ln].dwell.map (· - 1), stall := s.lanes[ln].stall.map (· - 1),
      travel := s.lanes[ln].travel.map (· - 1), exitRead := s.lanes[ln].exitRead.map (· - 1) }) ∧
    (∀ r : RunnerId, t.yard.runners[r] = { s.yard.runners[r] with timer := s.yard.runners[r].timer.map (· - 1) }) ∧
    t.yard.store = s.yard.store ∧ t.pending = s.due1ms ∧ t.hostLine = s.hostLine ∧
    (∀ sc : ScreenId, t.sound[sc] = { s.sound[sc] with servo := { s.sound[sc].servo with
      coastGap := s.sound[sc].servo.coastGap.map (· - 1), coastLimit := s.sound[sc].servo.coastLimit.map (· - 1) } }) ∧
    (∀ lp : ScreenId, ∃ posts current, t.yard.loops[lp] = { s.yard.loops[lp] with
        posts := posts, current := current, lendTimer := (s.yard.loops[lp]).lendTimer.map (· - 1) } ∧
      ((s.yard.loops[lp]).canonical = true → ∀ p, (t.yard.loops[lp]).post p =
        { (s.yard.loops[lp]).post p with recovery := ((s.yard.loops[lp]).post p).recovery.map (· - 1) }) ∧
      ((s.yard.loops[lp]).current = none → current = none) ∧
      ∀ tr, (s.yard.loops[lp]).current = some tr →
        (tr.window = .sending → current = some tr) ∧
        ∀ n left, tr.window = .listening n left → current = some { tr with window := .listening n (left.map (· - 10)) }) ∧
    (Tab.wf none s.yard.limits = true →
      ∀ n, Tab.get none t.yard.limits n = (Tab.get none s.yard.limits n).map (· - 1)) ∧
    t.yard = { s.yard with
      loops := t.yard.loops, limits := t.yard.limits, runners := t.yard.runners, freeIndex := s.yard.freeIndex + 1 } ∧
    (∀ sc : ScreenId,
      (Instr.startTimerExpiry sc ∈ t.pending ↔ s.screens[sc].startTimer = some 1) ∧
      (Instr.breakCountdownExpiry sc ∈ t.pending ↔ s.screens[sc].countdown = some 1) ∧
      (Instr.motorLeadReached sc ∈ t.pending ↔ s.screens[sc].phase = .onBreak ∧ s.screens[sc].leadSetting ≠ 0 ∧
        s.screens[sc].countdown = some (s.screens[sc].leadSetting * 1000 + 1)) ∧
      (Instr.coastGapExpiry sc ∈ t.pending ↔ s.sound[sc].servo.coastGap = some 1) ∧
      (Instr.coastLimitExpiry sc ∈ t.pending ↔ s.sound[sc].servo.coastLimit = some 1) ∧
      (Instr.lendTimerExpiry sc ∈ t.pending ↔ (s.yard.loops[sc]).lendTimer = some 1)) ∧
    (∀ ln : LaneId,
      (Instr.dwellExpiry ln ∈ t.pending ↔ s.lanes[ln].dwell = some 1) ∧
      (Instr.stallTimerExpiry ln ∈ t.pending ↔ s.lanes[ln].stall = some 1) ∧
      (Instr.barrierTravelExpiry ln ∈ t.pending ↔ s.lanes[ln].travel = some 1) ∧
      (Instr.exitReadExpiry ln ∈ t.pending ↔ s.lanes[ln].exitRead = some 1)) ∧
    (∀ r : RunnerId, Instr.takeTimerExpiry r ∈ t.pending ↔ s.yard.runners[r].timer = some 1) ∧
    (Tab.wf none s.yard.limits = true →
      ∀ n, Instr.checkinLimitExpiry n ∈ t.pending ↔ Tab.get none s.yard.limits n = some 1)

/-- Every command has its effect in every state: exec never faults and never refuses, it leaves the commands still
waiting as they are, and every report raised has joined the queue (R206). -/
def Obligations.EveryCommandAnswersNext : Prop :=
  ∀ (c : Instr) (s : State), ∃ t, exec c s = .next t ∧ t.pending = s.pending ∧ t.settled

/-- A good frame with a request's KIND (R204, R210), which leaves the receiver hunting: dropped while a RESET DEVICE
waits; discarded and counted on a reply list of 16 places; given a BUSY place where 8 places belong to requests; and
otherwise taken, its reply at the tail of the list with the request's KIND and TAG. -/
def Obligations.RequestFindsItsPlace : Prop :=
  ∀ (c : Instr) (kind tag : Nat) (s : State), requestOf c = some (kind, tag) → s.settled →
    (s.link.resetPending = true →
      exec c s = .next (({ s with link := { s.link with rx := none } } : State).reported [])) ∧
    (s.link.resetPending = false → 16 ≤ s.link.replies.length → exec c s =
      .next (({ s with link := { s.link with rx := none, linkErrors := satInc s.link.linkErrors } } : State).reported
        [])) ∧
    (s.link.resetPending = false → s.link.replies.length < 16 → 8 ≤ s.link.requests → exec c s =
      .next (({ s with link := { s.link with rx := none, replies := s.link.replies ++ [.busy kind tag] } } : State).reported
        [])) ∧
    (s.link.roomy → ∃ t r, exec c s = .next t ∧ t.link.replies = s.link.replies ++ [.request kind tag r] ∧
      t.link.linkErrors = s.link.linkErrors ∧ t.link.rx = none)

/-- The link law is kept by every step: at most 16 reply places, 8 of them requests' (R204), at most 128 reports in the
queue (R206), the link error and reports-lost counts within two bytes (R201, R206). -/
def Obligations.LinkLawKept : Prop :=
  ∀ s t : State, s.linkLaw → step s = .next t → t.linkLaw

/-- The timeline's laws are kept by every step on every screen: the douser law of R3, dousers closed before a show has
started, both heads off in DARK, ENDED and HALTED (R24, R26, R33), a held head in HELD (R23), and the start timer and
the break countdown running only in STARTING and BREAK. -/
def Obligations.DouserLawKept : Prop :=
  ∀ s t : State, (∀ sc : ScreenId, s.screens[sc].lawful) → step s = .next t → ∀ sc : ScreenId, t.screens[sc].lawful

/-- The sound path's laws are kept by every step on every screen: every sample sent within 16 bits (R53), the level
record in its ranges (R54), the settings in theirs (R41), the rate within Rmax (R45, R60), the accumulator short of a
threshold (R50). -/
def Obligations.SoundLawKept : Prop :=
  ∀ s t : State, (∀ sc : ScreenId, s.sound[sc].lawful) → step s = .next t → ∀ sc : ScreenId, t.sound[sc].lawful

/-- The lane's laws are kept by every step on every lane: no barrier commanded DOWN over an occupied loop (R93), the
barrier UP while a vehicle is let through, an admission or exit pending only then, each timer in its own state. That the
exit read timer runs only in PRESENT is the model's choice: it is stopped as a vehicle reaches the barrier loop there
(log entry 27). -/
def Obligations.BarrierLawKept : Prop :=
  ∀ s t : State, (∀ ln : LaneId, s.lanes[ln].lawful) → step s = .next t → ∀ ln : LaneId, t.lanes[ln].lawful

/-- The stock law is kept by every step: the tallies of every FINITE item in service add up to its loaded total, and an
UNLIMITED item has loaded and remaining at 0 (R137). -/
def Obligations.StockLawKept : Prop :=
  ∀ s t : State, s.menuLaw → step s = .next t → t.menuLaw

/-- Every sparse table of the state keeps its one canonical form at every step. -/
def Obligations.TablesStayCanonical : Prop :=
  ∀ s t : State, s.canonical = true → step s = .next t → t.canonical = true

/-- The state right after power-on meets the laws, and is what POWER ON leaves (R34, R64, R90, R115, R210): SETUP, the
clock at 0, every screen DARK, every source MUTE, every lane CLOSED, and READY with the cause POWER on its way. -/
def Obligations.ResetMeetsTheLaws : Prop :=
  State.reset.linkLaw ∧ (∀ sc : ScreenId, State.reset.screens[sc].lawful) ∧ (∀ sc : ScreenId, State.reset.sound[sc].lawful) ∧
    (∀ ln : LaneId, State.reset.lanes[ln].lawful) ∧ State.reset.menuLaw ∧ State.reset.canonical = true ∧
    State.reset.link.part = .setup ∧ State.reset.link.clock = 0 ∧
    (∀ sc : ScreenId, State.reset.screens[sc].phase = .dark ∧ State.reset.sound[sc].source = .mute) ∧
    (∀ ln : LaneId, State.reset.lanes[ln].state = .closed) ∧
    State.reset.link.tx = .report { time := 0, report := .ready .power 0 } false ∧
    exec .powerOn State.reset = .next State.reset

/-- The part state changes only by the night and the resets (R208 to R210): a command that moves the part between SETUP
and RUN is OPEN NIGHT, CLOSE NIGHT, or one that resets the part, or bytes on the host link in which such a frame can
stand. -/
def Obligations.PartStateChangesOnlyAtNight : Prop :=
  ∀ (c : Instr) (s t : State), exec c s = .next t → t.link.part ≠ s.link.part →
    (∃ tag, c = .openNight tag) ∨ (∃ tag, c = .closeNight tag) ∨ c = .linkFrameSent ∨ c = .deviceReset ∨ c = .powerOn ∨
      c = .hostFrameDiscard ∧ s.hostLine ≠ []

/-- A halted screen stays halted until it is reset (R25): a command that moves a screen out of HALTED is RESET SCREEN
for that screen, or one that resets the part, or bytes on the host link in which such a frame can stand. -/
def Obligations.HaltedScreenNeedsReset : Prop :=
  ∀ (c : Instr) (s t : State) (sc : ScreenId), exec c s = .next t → s.screens[sc].phase = .halted →
    t.screens[sc].phase ≠ .halted →
    (∃ tag, c = .resetScreen tag sc.val) ∨ c = .linkFrameSent ∨ c = .deviceReset ∨ c = .powerOn ∨
      c = .hostFrameDiscard ∧ s.hostLine ≠ []

/-! ## The Show Timeline -/

/-- A change of a head line is taken in every state (R1, R31): the head's line reads as it changed to, its other lines
and all three lines of the other head keep their values, and no other screen, no other sound path and no lane is
touched. -/
def Obligations.HeadLinesFollowed : Prop :=
  ∀ (s : State) (sc : ScreenId) (h : Head) (on : Bool) (others : State → Prop),
    (∀ t, others t ↔ s.apartFromScreen sc t ∧ ∀ x, x ≠ h →
      (t.screens[sc].head x).atSpeed = (s.screens[sc].head x).atSpeed ∧
      (t.screens[sc].head x).runout = (s.screens[sc].head x).runout ∧
      (t.screens[sc].head x).lampOk = (s.screens[sc].head x).lampOk) →
    (∃ t, exec (.atSpeedChange sc h on) s = .next t ∧
      (t.screens[sc].head h).atSpeed = on ∧
      (t.screens[sc].head h).runout = (s.screens[sc].head h).runout ∧
      (t.screens[sc].head h).lampOk = (s.screens[sc].head h).lampOk ∧ others t) ∧
    (∃ t, exec (.runoutChange sc h on) s = .next t ∧
      (t.screens[sc].head h).runout = on ∧
      (t.screens[sc].head h).atSpeed = (s.screens[sc].head h).atSpeed ∧
      (t.screens[sc].head h).lampOk = (s.screens[sc].head h).lampOk ∧ others t) ∧
    (∃ t, exec (.lampOkChange sc h on) s = .next t ∧
      (t.screens[sc].head h).lampOk = on ∧
      (t.screens[sc].head h).atSpeed = (s.screens[sc].head h).atSpeed ∧
      (t.screens[sc].head h).runout = (s.screens[sc].head h).runout ∧ others t)

/-- The two fault events (R2, R3, R22). A speed loss of the on-screen head in PLAYING is a stall: the douser is closed,
the motor stays on, the screen is HELD for that head, and HEAD_FAULT, STALL and SHOW_STATE are reported. A lamp fault on
a screen that is not HELD is reported and changes nothing more: the douser stays open and the show goes on. A head whose
stop-at-runout marker is set stops at its fault event, and the marker is cleared (R15): at a lamp fault it stays in
FAULT, and at a speed loss its motor's going off clears the speed-lost marker (R1), so that it is IDLE again, with
HEAD_OK. -/
def Obligations.HeadFaultsTaken : Prop :=
  ∀ (s : State) (sc : ScreenId) (h : Head) (r : Screen), s.settled → s.screens[sc] = r →
    ((r.head h).stopAtRunout = true → r.phase ≠ .held →
      ((r.head h).lampOk = true → exec (.lampOkChange sc h false) s = .next ((s.withScreen sc (r.setHead h { r.head h with
        lampOk := false, motor := false, speedLost := false, stopAtRunout := false })).reported
        [.headFault sc h .lamp r.phase])) ∧
      ((r.head h).atSpeed = true → (r.head h).motor = true → (r.head h).lampOk = true → r.isOnScreen h = false →
        exec (.atSpeedChange sc h false) s = .next ((s.withScreen sc (r.setHead h { r.head h with
          atSpeed := false, motor := false, douser := false, speedLost := false, stopAtRunout := false })).reported
          [.headFault sc h .speed r.phase, .headOk sc h .idle]))) ∧
    ((r.head h).stopAtRunout = false → r.phase = .playing → r.isOnScreen h = true → (r.head h).atSpeed = true →
      (r.head h).motor = true →
      exec (.atSpeedChange sc h false) s = .next ((s.withScreen sc
        { r.setHead h { r.head h with atSpeed := false, speedLost := true, douser := false } with
          phase := .held, heldHead := some h }).reported
        [.headFault sc h .speed .playing, .stall sc h r.reel r.frame, .showState sc .playing .held r.reel .stall])) ∧
    ((r.head h).stopAtRunout = false → r.phase ≠ .held → (r.head h).lampOk = true →
      exec (.lampOkChange sc h false) s =
        .next ((s.withScreen sc (r.setHead h { r.head h with lampOk := false })).reported [.headFault sc h .lamp r.phase]))

/-- What becomes of a held screen. The second-fault rule (R24): a lamp fault or a speed loss of the held head in HELD
halts the screen, with both heads stopped, no held head and no break countdown, and asks for the source MUTE. The
recovery of a stall (R23): the on-screen head held for its stall comes back to RUNNING, its douser opens and the screen
is PLAYING at the frame at which it stopped, the source PROGRAMME asked for. -/
def Obligations.SecondFaultHaltsTheScreen : Prop :=
  ∀ (s : State) (sc : ScreenId) (h : Head) (r : Screen), s.screens[sc] = r → r.phase = .held → r.heldHead = some h →
    ((r.head h).lampOk = true → ∃ t, exec (.lampOkChange sc h false) s = .next t ∧
      t.screens[sc] = { (r.setHead h { r.head h with lampOk := false }).stopped with phase := .halted } ∧
      t.sound[sc].asked = .mute) ∧
    ((r.head h).atSpeed = true → (r.head h).motor = true → ∃ t, exec (.atSpeedChange sc h false) s = .next t ∧
      t.screens[sc] = { (r.setHead h { r.head h with atSpeed := false }).stopped with phase := .halted } ∧
      t.sound[sc].asked = .mute) ∧
    (r.isOnScreen h = true → (r.head h).atSpeed = false → (r.head h).motor = true → (r.head h).lampOk = true →
      (r.head h).runout = false → ∃ t, exec (.atSpeedChange sc h true) s = .next t ∧
      t.screens[sc] = { r.setHead h { r.head h with atSpeed := true, speedLost := false, douser := true } with
        phase := .playing, heldHead := none } ∧
      t.sound[sc].asked = .programme)

/-- RUNOUT at a head whose motor is on. Of the on-screen head in PLAYING, with no CHANGEOVER cue left to fire, it ends
the show (R20, R26): both heads stopped, the ordering-open flag cleared, the screen's held orders released, the source
MUTE asked for. With a CHANGEOVER cue left, that cue fires early, with CHANGEOVER_EARLY (R20): a break length above 0
takes the screen to BREAK, and one of 0 with the incoming head not RUNNING to HELD in the dark, the incoming motor on.
In HELD for the incoming head, the on-screen head's RUNOUT darkens the screen (R21). A head with its stop-at-runout
marker set stops, and the marker is cleared (R15). -/
def Obligations.RunoutEndsTheShow : Prop :=
  ∀ (s : State) (sc : ScreenId) (h : Head) (r : Screen), s.screens[sc] = r → (r.head h).motor = true →
    (r.head h).runout = false →
    (r.phase = .playing → r.isOnScreen h = true → r.unfiredChangeover = none →
      ∃ t, exec (.runoutChange sc h true) s = .next t ∧
      t.screens[sc] = { (r.setHead h { r.head h with runout := true }).stopped with
        phase := .ended, orderingOpen := false } ∧
      t.yard.held[sc] = [] ∧ t.sound[sc].asked = .mute) ∧
    (r.phase = .playing → r.isOnScreen h = true → (r.head h).stopAtRunout = false →
      ∀ i frame len, r.unfiredChangeover = some (i, ⟨.changeover, frame, len⟩) →
      (0 < len → ∃ t, exec (.runoutChange sc h true) s = .next t ∧ t.screens[sc].phase = .onBreak ∧
        t.screens[sc].reel = r.reel ∧ t.screens[sc].countdown = some (len * 1000) ∧
        t.screens[sc].active = (r.markFired i).active ∧ (t.screens[sc].head h).motor = false ∧
        (t.screens[sc].head h).douser = false ∧ t.sound[sc].asked = .onBreak ∧
        (s.settled → s.yard.held[sc] = [] →
          ∃ reports, t.link = s.link.after (.changeoverEarly sc r.reel r.frame :: reports))) ∧
      (len = 0 → s.settled → (r.head h).speedLost = false → ∀ m, m = { r.head r.incoming with
          motor := true, stopAtRunout := false } → (r.head r.incoming).state ≠ .running → m.state ≠ .running →
        exec (.runoutChange sc h true) s = .next ((s.withScreen sc
          { ((r.markFired i).setHead r.incoming m).setHead h { r.head h with
              runout := true, motor := false, douser := false } with
            phase := .held, heldHead := some r.incoming, countdown := none }).reported
          [.changeoverEarly sc r.reel r.frame, .changeoverLate sc r.reel m.state,
            .showState sc .playing .held r.reel .changeover]))) ∧
    (s.settled → r.phase = .held → r.isOnScreen h = true → r.heldHead ≠ some h → (r.head h).speedLost = false →
      exec (.runoutChange sc h true) s = .next ((s.withScreen sc (r.setHead h { r.head h with
        runout := true, motor := false, douser := false, stopAtRunout := false })).reported [])) ∧
    (s.settled → r.isOnScreen h = false → (r.head h).stopAtRunout = true → (r.head h).speedLost = false →
      exec (.runoutChange sc h true) s = .next ((s.withScreen sc (r.setHead h { r.head h with
        runout := true, motor := false, stopAtRunout := false })).reported []))

/-- A frame pulse (R5, R6): one that is not of the on-screen head in PLAYING is not counted. A counted pulse raises the
frame in reel (staying at 65,535) and F (wrapping) and sends a frame event carrying the new F; with no cue due at the
new frame that is all it does. The cues due there fire in list order, each marked as it fires (R5, R8). A CHANGEOVER due
there with a break length of 0 completes the changeover if the incoming head is RUNNING (R14, R16), and the frame-0 cues
of the new reel then fire (R7), a CHANGEOVER with a break length among them starting the break; otherwise it takes the
screen to HELD for it, its motor on, with CHANGEOVER_LATE; with a break length above 0 it takes the screen to BREAK
(R17): the outgoing head dark and stopped, the countdown loaded, the incoming motor on at once where the break is no
longer than the motor lead, the held orders released if the break lead has not done so, the source BREAK asked for. -/
def Obligations.FramePulseCounts : Prop :=
  ∀ (s : State) (sc : ScreenId) (h : Head) (r : Screen) (n : Nat), s.settled → s.screens[sc] = r →
    n = (if r.frame < 65535 then r.frame + 1 else r.frame) →
    (¬(r.phase = .playing ∧ r.isOnScreen h = true) → exec (.framePulse sc h) s = .next (s.reported [])) ∧
    (r.phase = .playing → r.isOnScreen h = true → r.due n = [] →
      ∀ w, w = SoundRun.frameEvent { id := sc, sd := s.sound[sc], out := [] } (r.f + 1) →
      exec (.framePulse sc h) s =
        .next (((s.withScreen sc { r with frame := n, f := r.f + 1 }).withSound sc w.sd).reported w.out)) ∧
    (r.phase = .playing → r.isOnScreen h = true → ∀ m : Screen, m = { r with frame := n, f := r.f + 1 } →
      (noChangeover (r.due n) → ∃ t, exec (.framePulse sc h) s = .next t ∧ t.screens[sc] = m.cuesFired sc n) ∧
      ∀ i len, r.due n = [(i, ⟨.changeover, n, len⟩)] →
        (len = 0 → (r.head r.incoming).state = .running →
          (noChangeover (m.completed.due 0) →
            ∃ t, exec (.framePulse sc h) s = .next t ∧ t.screens[sc] = m.completed.cuesFired sc 0) ∧
          ∀ pre k long, m.completed.due 0 = pre ++ [(k, ⟨.changeover, 0, long⟩)] → noChangeover pre → 0 < long →
            ∃ t, exec (.framePulse sc h) s = .next t ∧ (t.screens[sc]).inBreak (r.reel + 1) long) ∧
        (len = 0 → ∀ x : HeadRec, x = { r.head r.incoming with motor := true, stopAtRunout := false } →
          (r.head r.incoming).state ≠ .running → x.state ≠ .running →
          ∀ w, w = SoundRun.frameEvent { id := sc, sd := s.sound[sc], out := [] } (r.f + 1) →
          exec (.framePulse sc h) s = .next (((s.withScreen sc { (m.markFired i).setHead r.incoming x with
            phase := .held, heldHead := some r.incoming, countdown := none }).withSound sc w.sd).reported
            (w.out ++ [.changeoverLate sc r.reel x.state, .showState sc .playing .held r.reel .changeover]))) ∧
        (0 < len → ∃ t, exec (.framePulse sc h) s = .next t ∧ t.screens[sc].phase = .onBreak ∧
          t.screens[sc].countdown = some (len * 1000) ∧ t.screens[sc].f = r.f + 1 ∧ t.screens[sc].reel = r.reel ∧
          t.screens[sc].active = (r.markFired i).active ∧
          (t.screens[sc].head h).motor = false ∧ (t.screens[sc].head h).douser = false ∧
          (t.screens[sc].head r.incoming).motor =
            (if len ≤ r.leadSetting then true else (r.head r.incoming).motor) ∧
          (r.leadFired = false → t.yard.held[sc] = []) ∧ t.sound[sc].asked = .onBreak))

/-- The effect of a firing cue (R8), as it stands on the screen record and in what the timeline tells the other blocks;
the frame pulse that fires it, and the CHANGEOVER, are stated under FramePulseCounts. -/
def Obligations.CueEffects : Prop :=
  ∀ (w : ShowRun) (frame arg : Nat),
    w.cueEffect ⟨.lights, frame, arg⟩ = { w with sc := { w.sc with lights := arg } } ∧
    w.cueEffect ⟨.gateClose, frame, arg⟩ = { w with sc := { w.sc with gateOpen := false } } ∧
    w.cueEffect ⟨.lastCall, frame, arg⟩ = { w with sc := { w.sc with orderingOpen := false } } ∧
    w.cueEffect ⟨.breakLead, frame, arg⟩ =
      { w with sc := { w.sc with breakWindow := true, leadFired := true }, out := w.out ++ [.release] } ∧
    w.cueEffect ⟨.mark, frame, arg⟩ =
      { w with out := w.out ++ [.report (.cueMark w.id w.sc.reel w.sc.frame arg)] } ∧
    (w.cueEffect ⟨.motor, frame, arg⟩).sc = w.sc.setHead w.sc.incoming
      { w.sc.head w.sc.incoming with motor := true, stopAtRunout := false }

/-- A show starts (R7, R12, R13). START in LOADED with head A not yet RUNNING commands head A's motor on and loads the
start timer: the screen is STARTING. In any other show state START is refused STATE. When head A comes to RUNNING in
STARTING, its douser opens, the start timer stops, the frame in reel and F are 0, the screen is PLAYING, the source
PROGRAMME asked for, and the reel's frame-0 cues fire in list order (R7), a CHANGEOVER with a break length after them
starting the break; a START that finds head A RUNNING passes through STARTING to PLAYING at once. The start timer's
expiry in STARTING takes the screen back to LOADED with head A's motor off; with no start timer running it changes
nothing. That START_FAILED is reported before SHOW_STATE is the model's choice (log entry 18). -/
def Obligations.ShowStarts : Prop :=
  ∀ (s : State) (tag : Nat) (sc : ScreenId) (r : Screen) (a : HeadRec), s.ready → s.link.part = .run →
    s.screens[sc] = r → a = { r.headA with motor := true } →
    (r.phase = .loaded → a.state ≠ .running → exec (.start tag sc.val) s =
      .next ((s.withScreen sc { r with headA := a, startTimer := loadSeconds r.startSetting, phase := .starting }).answered
        0x02 tag Reply.ok [.showState sc .loaded .starting r.reel .start])) ∧
    (r.phase = .loaded → a.state = .running → noChangeover (r.due 0) → ∃ t, exec (.start tag sc.val) s = .next t ∧
      t.screens[sc] = ({ r with
        headA := { a with douser := true }, startTimer := none, frame := 0, f := 0, phase := .playing } : Screen).cuesFired
          sc 0 ∧
      t.sound[sc].asked = .programme ∧ t.link.replies = s.link.replies ++ [.request 0x02 tag Reply.ok]) ∧
    (r.phase ≠ .loaded → exec (.start tag sc.val) s = .next (s.answered 0x02 tag (Reply.refuse .state) [])) ∧
    (r.phase = .starting → r.headA.atSpeed = false → r.headA.motor = true → r.headA.lampOk = true →
      r.headA.runout = false →
      (noChangeover (r.due 0) → ∃ t, exec (.atSpeedChange sc .a true) s = .next t ∧
        t.screens[sc] = ({ r with
          headA := { r.headA with atSpeed := true, speedLost := false, douser := true }, startTimer := none, frame := 0,
          f := 0, phase := .playing } : Screen).cuesFired sc 0 ∧
        t.sound[sc].asked = .programme) ∧
      ∀ pre i len, r.due 0 = pre ++ [(i, ⟨.changeover, 0, len⟩)] → noChangeover pre → 0 < len →
        ∃ t, exec (.atSpeedChange sc .a true) s = .next t ∧ (t.screens[sc]).inBreak r.reel len ∧
          t.sound[sc].asked = .onBreak) ∧
    (r.phase = .starting → r.startTimer.isSome = true → ∃ reports, exec (.startTimerExpiry sc) s =
      .next ((s.withScreen sc { r with
        headA := { r.headA with motor := false, speedLost := false }, startTimer := none, phase := .loaded }).reported
        (reports ++ [.startFailed sc r.headA.state, .showState sc .starting .loaded r.reel .startTimer])) ∧
      ∀ q ∈ reports, ∃ st, q = .headOk sc .a st) ∧
    ((r.phase ≠ .starting ∨ r.startTimer = none) → exec (.startTimerExpiry sc) s = .next (s.reported []))

/-- The break runs down (R18, R19): at the motor lead the incoming motor is commanded on; at the countdown's end, or at
a RESUME, a screen whose incoming head is still not RUNNING is HELD for it with CHANGEOVER_LATE. -/
def Obligations.BreakRunsDown : Prop :=
  ∀ (s : State) (sc : ScreenId) (r m : Screen), s.settled → s.screens[sc] = r → r.phase = .onBreak →
    r.countdown.isSome = true →
    m = r.setHead r.incoming { r.head r.incoming with motor := true, stopAtRunout := false } →
    (r.leadSetting ≠ 0 → exec (.motorLeadReached sc) s = .next ((s.withScreen sc m).reported [])) ∧
    (r.leadSetting = 0 → exec (.motorLeadReached sc) s = .next (s.reported [])) ∧
    ((r.head r.incoming).state ≠ .running → (m.head r.incoming).state ≠ .running →
      exec (.breakCountdownExpiry sc) s = .next ((s.withScreen sc { m with
        phase := .held, heldHead := some r.incoming, countdown := none }).reported
        [.changeoverLate sc r.reel (m.head r.incoming).state, .showState sc .onBreak .held r.reel .changeover]) ∧
      (s.link.part = .run → s.link.roomy → ∀ tag, exec (.resume tag sc.val) s = .next ((s.withScreen sc { m with
        phase := .held, heldHead := some r.incoming, countdown := none }).answered 0x03 tag Reply.ok
        [.changeoverLate sc r.reel (m.head r.incoming).state, .showState sc .onBreak .held r.reel .changeover])))

/-- The completion of a changeover at the end of a break (R11, R14, R19): with the incoming head RUNNING, the picture
passes to it, the outgoing head running on to its runout or stopping, the reel number rises, the staged slot is emptied
(its set becomes the active one where it is the new reel's), the lead-fired marker is cleared, frames count from 0, F
stands, ordering is open, the screen is PLAYING, and the new reel's frame-0 cues fire (R7), a CHANGEOVER with a break
length among them starting the next break. An empty staged slot is reported CUESET_MISSING, a set for another reel
CUESET_MISMATCH (R11). A screen HELD for its incoming head completes the changeover in the same way when that head comes
to RUNNING (R23). -/
def Obligations.BreakEndsInChangeover : Prop :=
  ∀ (s : State) (sc : ScreenId) (r : Screen) (tag : Nat), s.ready → s.link.part = .run → s.screens[sc] = r →
    (r.phase = .onBreak → r.countdown.isSome = true → (r.head r.incoming).state = .running →
      ∀ c ∈ [Instr.breakCountdownExpiry sc, .resume tag sc.val],
        (noChangeover (r.completed.due 0) →
          ∃ t, exec c s = .next t ∧ t.screens[sc] = r.completed.cuesFired sc 0 ∧ t.sound[sc].asked = .programme) ∧
        (∀ pre i len, r.completed.due 0 = pre ++ [(i, ⟨.changeover, 0, len⟩)] → noChangeover pre → 0 < len →
          ∃ t, exec c s = .next t ∧ (t.screens[sc]).inBreak (r.reel + 1) len) ∧
        ∃ t l, exec c s = .next t ∧
          (l = s.link ∨ l = s.link.addPlace (.request 0x03 tag Reply.ok)) ∧
          (r.staged = none → ∃ pre post, t.link = l.after (pre ++ .cuesetMissing sc (r.reel + 1) :: post)) ∧
          ∀ cs, r.staged = some cs → cs.reel ≠ r.reel + 1 →
            ∃ pre post, t.link = l.after (pre ++ .cuesetMismatch sc (r.reel + 1) cs.reel :: post)) ∧
    (∀ m : Screen, r.phase = .held → r.heldHead = some r.incoming → r.isOnScreen r.incoming = false →
      (r.head r.incoming).atSpeed = false → (r.head r.incoming).motor = true → (r.head r.incoming).lampOk = true →
      (r.head r.incoming).runout = false →
      m = r.setHead r.incoming { r.head r.incoming with atSpeed := true, speedLost := false } →
      noChangeover (m.completed.due 0) → ∃ t, exec (.atSpeedChange sc r.incoming true) s = .next t ∧
        t.screens[sc] = m.completed.cuesFired sc 0)

/-- LOAD CUES (R9, R10). A set passes its checks when its reel is 1 to 15 and its length above 0, it holds at most 32
cues in order of their frames, each below the length and with an argument in its kind's range, no cue follows a
CHANGEOVER, and none is a CHANGEOVER on reel 15. A set that passes them becomes the active set of a DARK screen where it
is for reel 1, and goes to the staged slot otherwise; one that fails them is refused RANGE, and in ENDED and HALTED one
that passes them is refused STATE. That one that fails them is refused RANGE there too is the model's choice (log entry
11). -/
def Obligations.LoadCuesPlacesTheSet : Prop :=
  ∀ (s : State) (tag : Nat) (sc : ScreenId) (reel len : Nat) (wire : List WireCue) (cues : List Cue) (r : Screen)
    (ok : Prop), s.ready → s.link.part = .run → s.screens[sc] = r → cuesOf wire = some cues → len ≤ 65535 →
    (ok ↔ 1 ≤ reel ∧ reel ≤ 15 ∧ 0 < len ∧ cues.length ≤ 32 ∧ cues.Pairwise (fun x y => x.frame ≤ y.frame) ∧
      (∀ c ∈ cues, c.frame < len ∧ c.arg ≤ (match c.kind with
        | .changeover => 3600
        | .lights => 3
        | .mark => 255
        | .motor => 0
        | .gateClose => 0
        | .lastCall => 0
        | .breakLead => 0)) ∧
      (∀ i c, cues[i]? = some c → c.kind = .changeover → i + 1 = cues.length ∧ reel ≠ 15)) →
    (¬ok →
      exec (.loadCues tag sc.val reel len wire) s = .next (s.answered 0x01 tag (Reply.refuse .range) [])) ∧
    (ok → (r.phase = .ended ∨ r.phase = .halted) →
      exec (.loadCues tag sc.val reel len wire) s = .next (s.answered 0x01 tag (Reply.refuse .state) [])) ∧
    (ok → r.phase = .dark → reel = 1 → exec (.loadCues tag sc.val reel len wire) s =
      .next ((s.withScreen sc { r with
        active := some (freshSet reel len cues), reel := 1, frame := 0, f := 0, phase := .loaded }).answered
        0x01 tag Reply.ok [.showState sc .dark .loaded 1 .loadCues])) ∧
    (ok → r.phase ≠ .ended → r.phase ≠ .halted → ¬(r.phase = .dark ∧ reel = 1) →
      exec (.loadCues tag sc.val reel len wire) s =
        .next ((s.withScreen sc { r with staged := some (freshSet reel len cues) }).answered 0x01 tag Reply.ok []))

/-- STOP SHOW in PLAYING, BREAK and HELD ends the show (R26), in STARTING it goes back to LOADED (R13), and elsewhere it
is refused STATE. CLEAR SHOW in ENDED empties the screen's sets and goes to DARK (R27), and elsewhere is refused STATE;
it is taken in SETUP as in RUN (R31). -/
def Obligations.StopAndClearShow : Prop :=
  ∀ (s : State) (tag : Nat) (sc : ScreenId) (r : Screen), s.ready → s.screens[sc] = r →
    (s.link.part = .run → r.phase ∈ [ShowState.playing, .onBreak, .held] → ∃ t, exec (.stopShow tag sc.val) s = .next t ∧
      t.screens[sc] = { r.stopped with phase := .ended, orderingOpen := false } ∧ t.yard.held[sc] = [] ∧
      t.sound[sc].asked = .mute ∧ t.link.replies = s.link.replies ++ [.request 0x04 tag Reply.ok]) ∧
    (s.link.part = .run → r.phase = .starting → ∃ t, exec (.stopShow tag sc.val) s = .next t ∧
      t.screens[sc] = { r with
        headA := { r.headA with motor := false, speedLost := false }, startTimer := none, phase := .loaded } ∧
      t.link.replies = s.link.replies ++ [.request 0x04 tag Reply.ok]) ∧
    ((s.link.part = .setup ∨ r.phase ∈ [ShowState.dark, .loaded, .ended, .halted]) →
      exec (.stopShow tag sc.val) s = .next (s.answered 0x04 tag (Reply.refuse .state) [])) ∧
    (r.phase = .ended → ∃ t, exec (.clearShow tag sc.val) s = .next t ∧
      t.screens[sc] = { r with
        active := none, staged := none, reel := 0, frame := 0, f := 0, leadFired := false, breakWindow := false,
        orderingOpen := true, phase := .dark } ∧
      t.sound[sc].asked = .mute ∧ t.link.replies = s.link.replies ++ [.request 0x05 tag Reply.ok]) ∧
    (r.phase ≠ .ended → exec (.clearShow tag sc.val) s = .next (s.answered 0x05 tag (Reply.refuse .state) []))

/-- FLAG SET sets one of the two flags (R28), LIGHTS the lot-light level, clamped to 3 (R28), TIMELINE SET the two timer
settings, clamped to their ranges, with 0 disabling one (R30); nothing else changes, unless a running break countdown
has come to the new motor lead, when the incoming motor is commanded on at once. The codes GATE 0, ORDERING 1, open 0
and closed 1 are read from the order in which the spec lists them (the model's choice, log entry 9), and that a CLAMPED
reply carries all the settings of its request is log entry 14. -/
def Obligations.TimelineSettings : Prop :=
  ∀ (s : State) (tag : Nat) (sc : ScreenId) (r : Screen), s.ready → s.screens[sc] = r →
    (s.link.part = .run →
      exec (.flagSet tag sc.val 0 0) s = .next ((s.withScreen sc { r with gateOpen := true }).answered 0x06 tag Reply.ok []) ∧
      exec (.flagSet tag sc.val 0 1) s = .next ((s.withScreen sc { r with gateOpen := false }).answered 0x06 tag Reply.ok []) ∧
      exec (.flagSet tag sc.val 1 0) s =
        .next ((s.withScreen sc { r with orderingOpen := true }).answered 0x06 tag Reply.ok []) ∧
      exec (.flagSet tag sc.val 1 1) s =
        .next ((s.withScreen sc { r with orderingOpen := false }).answered 0x06 tag Reply.ok []) ∧
      ∀ level, exec (.lights tag sc.val level) s = .next ((s.withScreen sc { r with lights := min level 3 }).answered 0x07 tag
        (if 3 < level then { result := .clamped, indication := .none, fields := [.raw [3#8]] } else Reply.ok) [])) ∧
    (∀ start lead a b m n, a = (if start = 0 then 0 else max 2 (min start 60)) →
      b = (if lead = 0 then 0 else max 2 (min lead 30)) → m = { r with startSetting := a, leadSetting := b } →
      ((r.countdown = none ∨ r.phase ≠ .onBreak) ∧ n = m ∨
        (∃ ms, r.phase = .onBreak ∧ r.countdown = some ms ∧ (b = 0 ∨ b * 1000 < ms) ∧ n = m) ∨
        (∃ ms, r.phase = .onBreak ∧ r.countdown = some ms ∧ b ≠ 0 ∧ ms ≤ b * 1000 ∧
          n = m.setHead r.incoming { r.head r.incoming with motor := true, stopAtRunout := false })) →
      exec (.timelineSet tag sc.val start lead) s = .next ((s.withScreen sc n).answered 0x08 tag
        (if a = start ∧ b = lead then Reply.ok
         else { result := .clamped, indication := .none, fields := [.raw [BitVec.ofNat 8 a, BitVec.ofNat 8 b]] }) []))

/-- RESET SCREEN, in every state (R33, R63): the screen's timeline is as after power-on but for its two settings and the
lines, which are read as they stand; its sound path is as after power-on but for its settings and its target level; its
held orders are released. That both outputs then stand at 0, which R63 does not name, is read from R59, the source being
MUTE (log entry 34). -/
def Obligations.ResetScreenClears : Prop :=
  ∀ (s : State) (tag : Nat) (sc : ScreenId) (r : Screen), s.ready → s.screens[sc] = r →
    ∃ t, exec (.resetScreen tag sc.val) s = .next t ∧
      t.screens[sc] = { Screen.reset with
        headA := r.headA.stopped, headB := r.headB.stopped, startSetting := r.startSetting, leadSetting := r.leadSetting } ∧
      t.sound[sc] = { Sound.reset with
        target := s.sound[sc].target, servo := { Servo.reset with settings := s.sound[sc].servo.settings } } ∧
      t.yard.held[sc] = [] ∧ t.link.replies = s.link.replies ++ [.request 0x0A tag Reply.ok] ∧ s.apartFromScreen sc t

/-! ## Programme sound and the sync servo -/

/-- The link receiver (R35): hunting, it drops every byte but 0x5A, which opens a block; in a block that the byte does
not complete, it keeps the byte; the byte that completes a block of 1,032 bytes leaves it hunting and hands the block to
its checks, which SoundBlocksJudged states; a gap in a block discards it with a count, and a gap while hunting changes
nothing. That the command of a gap tells the gap alone, the byte that ends it coming as a command of its own, is the
model's choice (log entry 33). -/
def Obligations.SoundReceiverHuntsForBlocks : Prop :=
  ∀ (s : State) (sc : ScreenId) (b : Byte) (r : Sound), s.settled → s.sound[sc] = r →
    (r.rx = none → b ≠ 0x5A#8 → exec (.soundLinkByte sc b) s = .next (s.reported [])) ∧
    (r.rx = none → exec (.soundLinkByte sc 0x5A#8) s =
      .next ((s.withSound sc { r with rx := some [0x5A#8] }).reported [])) ∧
    (∀ got, r.rx = some got → got.length < 1031 → exec (.soundLinkByte sc b) s =
      .next ((s.withSound sc { r with rx := some (got ++ [b]) }).reported [])) ∧
    (∀ got, r.rx = some got → got.length = 1031 → exec (.soundLinkByte sc b) s =
      .next ((s.withSound sc (({ r with rx := none } : Sound).takeBlock (got ++ [b]))).reported [])) ∧
    (∀ got, r.rx = some got → exec (.soundBlockGap sc) s =
      .next ((s.withSound sc { r with rx := none, linkErrors := satInc r.linkErrors }).reported [])) ∧
    (r.rx = none → exec (.soundBlockGap sc) s = .next (s.reported []))

/-- A complete sound block (R36): KIND, the start position, 1,024 bytes of samples, and a CRC over all of them. One
whose CRC matches is a PROGRAMME block where its KIND is 0x01 and its start position a multiple of 256, a BREAK block
where its KIND is 0x02 and the upper half of its start position 0; any other is discarded with a count. A PROGRAMME
block (R37): behind playout it is LATE; ahead of a block in its slot that is still to be played it is EARLY; in every
other case it is stored, and the positions it covers then play its frames (R38). A BREAK block (R39) is stored and sets
the cursor where the cursor is unset, and is otherwise judged in the same way against the cursor's sequence number. -/
def Obligations.SoundBlocksJudged : Prop :=
  (∀ (sd : Sound) (sync kind s3 s2 s1 s0 c1 c0 : Byte) (samples block : List Byte) (start : Nat) (good : Bool),
    samples.length = 1024 → block = sync :: kind :: s3 :: s2 :: s1 :: s0 :: (samples ++ [c1, c0]) →
    start = s3.toNat * 16777216 + s2.toNat * 65536 + s1.toNat * 256 + s0.toNat →
    good = decide (crc16 (kind :: s3 :: s2 :: s1 :: s0 :: samples) = c1 ++ c0) →
    (good = true → kind = 0x01#8 → start % 256 = 0 →
      sd.takeBlock block = sd.takeProgramme { tag := start / 256, frames := framesOf samples }) ∧
    (good = true → kind = 0x02#8 → start < 65536 →
      sd.takeBlock block = sd.takeBreak { tag := start, frames := framesOf samples }) ∧
    (¬(good = true ∧ (kind = 0x01#8 ∧ start % 256 = 0 ∨ kind = 0x02#8 ∧ start < 65536)) →
      sd.takeBlock block = { sd with linkErrors := satInc sd.linkErrors }) ∧
    ∀ k, k < 256 → (framesOf samples)[k]? = some
      ((samples.getD (4 * k) 0 ++ samples.getD (4 * k + 1) 0).toInt,
        (samples.getD (4 * k + 2) 0 ++ samples.getD (4 * k + 3) 0).toInt)) ∧
  ∀ (sd : Sound) (b : Block), b.tag < 16777216 →
    (dist24 b.tag sd.servo.block < 0 → sd.takeProgramme b = { sd with late := satInc sd.late }) ∧
    (0 ≤ dist24 b.tag sd.servo.block → ∀ held, sd.progSlot (b.tag % 64) = some held →
      0 ≤ dist24 held.tag sd.servo.block → dist24 held.tag sd.servo.block < dist24 b.tag sd.servo.block →
      sd.takeProgramme b = { sd with early := satInc sd.early }) ∧
    (0 ≤ dist24 b.tag sd.servo.block →
      (∀ held, sd.progSlot (b.tag % 64) = some held → dist24 held.tag sd.servo.block < 0 ∨
        dist24 b.tag sd.servo.block ≤ dist24 held.tag sd.servo.block) →
      ∀ k, k < 256 → (sd.takeProgramme b).sampleAt? (BitVec.ofNat 32 (b.tag * 256 + k)) =
        some (b.frames.getD k (0, 0))) ∧
    (sd.cursor = none →
      (sd.takeBreak b).brkSlot (b.tag % 16) = some b ∧ (sd.takeBreak b).cursor = some (b.tag, 0)) ∧
    (∀ k off, sd.cursor = some (k, off) →
      (dist16 b.tag k < 0 → sd.takeBreak b = { sd with late := satInc sd.late }) ∧
      (0 ≤ dist16 b.tag k → ∀ held, sd.brkSlot (b.tag % 16) = some held → 0 ≤ dist16 held.tag k →
        dist16 held.tag k < dist16 b.tag k → sd.takeBreak b = { sd with early := satInc sd.early }) ∧
      (0 ≤ dist16 b.tag k →
        (∀ held, sd.brkSlot (b.tag % 16) = some held →
          dist16 held.tag k < 0 ∨ dist16 b.tag k ≤ dist16 held.tag k) →
        (sd.takeBreak b).brkSlot (b.tag % 16) = some b ∧ (sd.takeBreak b).cursor = sd.cursor ∧
        ∀ i, i ≠ b.tag % 16 → (sd.takeBreak b).brkSlot i = sd.brkSlot i))

/-- A frame event acted on (R42 to R46), with the source PROGRAMME: from SILENT or CAPTURE, P moves to the target, an
open underrun gap being closed before, with SYNC_CAPTURE; from the other states it does so with an error beyond the
window, with SYNC_JUMP and, from LOCKED, LOCK_LOST, and otherwise only the rate is set, 0 within the deadband and E × K
brought into −Rmax to +Rmax beyond it, COAST ending with SYNC_TRACK, and the lock run decides between TRACK and LOCKED.
The coast-gap timer is reloaded and the coast-limit timer stopped. With another source it is discarded. -/
def Obligations.FrameEventMovesTheServo : Prop :=
  ∀ (w : SoundRun) (f t : BitVec 32) (e : Int) (v : Servo), v = w.sd.servo →
    t = f * 2000#32 + BitVec.ofInt 32 v.settings.offset → e = (t - v.p).toInt →
    (w.sd.source ≠ .programme → w.frameEvent f = w) ∧
    (w.sd.source = .programme → v.state ∈ [ServoState.silent, .capture] → ∀ u, u = (w.frameEvent f).sd.servo →
      u.state = .track ∧ u.p = t ∧ u.a = 0 ∧ u.r = 0 ∧ u.lockRun = 0 ∧ u.error = none ∧ u.gap = none ∧
      u.coastGap = some 250 ∧ u.coastLimit = none ∧
      (v.gap = none → (w.frameEvent f).out = w.out ++ [.syncCapture w.id v.state t]) ∧
      (∀ start n, v.gap = some (start, n) → (w.frameEvent f).sd.underruns = satInc w.sd.underruns ∧
        (w.frameEvent f).out = w.out ++ [.underrun w.id start n, .syncCapture w.id v.state t])) ∧
    (w.sd.source = .programme → v.state ∈ [ServoState.track, .locked, .coast] → v.settings.window < e.natAbs →
      ∀ u, u = (w.frameEvent f).sd.servo →
      u.state = .track ∧ u.p = t ∧ u.a = 0 ∧ u.r = 0 ∧ u.lockRun = 0 ∧ u.error = some e ∧ u.gap = none ∧
      u.coastGap = some 250 ∧ u.coastLimit = none ∧ (w.frameEvent f).sd.jumps = satInc w.sd.jumps ∧
      ∀ gap, (v.gap = none ∧ gap = [] ∧ (w.frameEvent f).sd.underruns = w.sd.underruns ∨
          ∃ start n, v.gap = some (start, n) ∧ gap = [Report.underrun w.id start n]) →
        (w.frameEvent f).out = w.out ++ gap ++ .syncJump w.id e v.state ::
          (if v.state = .locked then [.lockLost w.id e] else []) ∧
        (v.gap.isSome = true → (w.frameEvent f).sd.underruns = satInc w.sd.underruns)) ∧
    (w.sd.source = .programme → v.state ∈ [ServoState.track, .locked, .coast] → e.natAbs ≤ v.settings.window →
      ∀ u, u = (w.frameEvent f).sd.servo →
      u.p = v.p ∧ u.a = v.a ∧ u.error = some e ∧ u.coastGap = some 250 ∧ u.coastLimit = none ∧
      u.r = (if e.natAbs ≤ v.settings.deadband then 0
             else max (-(v.settings.rmax : Int)) (min (e * v.settings.gain) v.settings.rmax)) ∧
      u.lockRun = (if e.natAbs ≤ 48 then min (v.lockRun + 1) 24 else 0) ∧
      u.state = (if e.natAbs ≤ 48 ∧ (v.state = .locked ∨ 23 ≤ v.lockRun) then .locked else .track) ∧
      (w.frameEvent f).out = w.out ++ (if v.state = .coast then [.syncTrack w.id e] else []) ++
        (if e.natAbs ≤ 48 then (if v.state ≠ .locked ∧ 23 ≤ v.lockRun then [.syncLocked w.id] else [])
         else if v.state = .locked then [.lockLost w.id e] else []))

/-- An output tick moves the servo (R50, R51): with the source PROGRAMME and the servo in TRACK, LOCKED or COAST, R is
added to A and P advances by 2, holds or advances by 1 by the new A; in SILENT and CAPTURE and with any other source P
and A hold, and both outputs are 0, as with the source MUTE and at level 0 (R51, R53, R59). A position with no sample
plays 0 and opens an underrun gap or makes it longer, and the next sample closes it with UNDERRUN (R52). Both outputs
carry one and the same sample (R59). The level moves one step toward its aim on every 48th tick and never otherwise
(R54); the aim is 0 in a ramp-down and with the source MUTE, and the target level otherwise. A ramp-down that comes to 0
is at its switch point: the pending source is the current one, a break ring that is left is emptied and an open gap
closed, and the servo is frozen or picks up by its state (R49, R56). That the sample is scaled by the level as the tick
found it, before the level moves, is the model's choice (log entry 13). With the source BREAK, in a ramp-down too, the
break cursor plays its frame, or 0 with a gap counted once for each run of absent frames, which a held frame ends, and
moves on (R40). The sample that the servo supplies is its previous output from then on (R50); what the spec does not
move on a tick stands. -/
def Obligations.OutputTickMovesTheServo : Prop :=
  ∀ (s : State) (sc : ScreenId) (r : Sound) (a : Int) (aim : Nat), s.settled → s.sound[sc] = r →
    a = r.servo.a + r.servo.r → aim = (if r.ramp.isSome ∨ r.source = .mute then 0 else r.target) →
    ∀ stays : Prop, (stays ↔ r.ramp = none ∨ r.stepCount < 47 ∨ 1 < r.level) →
    ∃ t, exec (.outputTick sc) s = .next t ∧ t.sound[sc].bus = t.sound[sc].feed ∧
      t.sound[sc].servo.r = r.servo.r ∧ t.screens = s.screens ∧ t.lanes = s.lanes ∧ t.yard = s.yard ∧
      (∀ k : ScreenId, k ≠ sc → t.sound[k] = s.sound[k]) ∧
      ((r.source ≠ .programme ∨ r.servo.state ∈ [ServoState.silent, .capture]) →
        t.sound[sc].servo.p = r.servo.p ∧ t.sound[sc].servo.a = r.servo.a) ∧
      (r.source = .programme → r.servo.state ∈ [ServoState.track, .locked, .coast] →
        (65536 ≤ a → t.sound[sc].servo.p = r.servo.p + 2 ∧ t.sound[sc].servo.a = a - 65536 ∧
          t.sound[sc].feed = scale r.level (average (r.sampleAt r.servo.p) (r.sampleAt (r.servo.p + 1)))) ∧
        (a ≤ -65536 → t.sound[sc].servo.p = r.servo.p ∧ t.sound[sc].servo.a = a + 65536 ∧
          t.sound[sc].feed = scale r.level (average r.servo.prev (r.sampleAt r.servo.p))) ∧
        (-65536 < a → a < 65536 → t.sound[sc].servo.p = r.servo.p + 1 ∧ t.sound[sc].servo.a = a ∧
          t.sound[sc].feed = scale r.level (r.sampleAt r.servo.p)) ∧
        ∀ x, x = (if 65536 ≤ a then average (r.sampleAt r.servo.p) (r.sampleAt (r.servo.p + 1))
            else if a ≤ -65536 then average r.servo.prev (r.sampleAt r.servo.p) else r.sampleAt r.servo.p) →
          t.sound[sc].servo.prev = x ∧
          (stays → t.sound[sc].servo = { r.servo with
            p := t.sound[sc].servo.p, a := t.sound[sc].servo.a, prev := x, gap := t.sound[sc].servo.gap })) ∧
      ((r.source = .mute ∨ r.level = 0 ∨ r.source = .programme ∧ r.servo.state ∈ [ServoState.silent, .capture]) →
        t.sound[sc].feed = (0, 0)) ∧
      (stays → r.source = .programme → r.servo.state ∈ [ServoState.silent, .capture] →
        t.sound[sc].servo = { r.servo with prev := (0, 0) } ∧ t.link = s.link.after []) ∧
      (stays → r.source ≠ .programme → t.sound[sc].servo = r.servo ∧ t.link = s.link.after []) ∧
      (stays → r.source = .programme → r.servo.state ∈ [ServoState.track, .locked, .coast] →
        (r.sampleAt? r.servo.p = none → t.sound[sc].underruns = r.underruns ∧ t.link = s.link.after [] ∧
          (r.servo.gap = none → t.sound[sc].servo.gap = some (r.servo.p, 1)) ∧
          ∀ start n, r.servo.gap = some (start, n) → t.sound[sc].servo.gap = some (start, n + 1)) ∧
        (∀ x, r.sampleAt? r.servo.p = some x → t.sound[sc].servo.gap = none ∧
          (r.servo.gap = none → t.sound[sc].underruns = r.underruns ∧ t.link = s.link.after []) ∧
          ∀ start n, r.servo.gap = some (start, n) → t.sound[sc].underruns = satInc r.underruns ∧
            t.link = s.link.after [.underrun sc start n])) ∧
      (∀ src cause, r.ramp = some (src, cause) → 47 ≤ r.stepCount → r.level ≤ 1 →
        ∃ pre post, t.link = s.link.after (pre ++ .sourceChanged sc r.source src cause :: post) ∧
          ∀ q ∈ pre ++ post, ∃ start n, q = .underrun sc start n) ∧
      t.sound[sc].target = r.target ∧ t.sound[sc].prog = r.prog ∧ t.sound[sc].rx = r.rx ∧
      t.sound[sc].linkErrors = r.linkErrors ∧ t.sound[sc].late = r.late ∧ t.sound[sc].early = r.early ∧
      t.sound[sc].jumps = r.jumps ∧ t.sound[sc].servo.settings = r.servo.settings ∧
      (stays → t.sound[sc].brk = r.brk) ∧
      (r.stepCount < 47 → t.sound[sc].stepCount = r.stepCount + 1 ∧ t.sound[sc].level = r.level ∧
        t.sound[sc].source = r.source ∧ t.sound[sc].ramp = r.ramp) ∧
      (47 ≤ r.stepCount → t.sound[sc].stepCount = 0 ∧
        t.sound[sc].level = (if r.level < aim then r.level + 1 else if aim < r.level then r.level - 1 else r.level) ∧
        (r.ramp = none → t.sound[sc].source = r.source ∧ t.sound[sc].ramp = none) ∧
        ∀ src cause, r.ramp = some (src, cause) →
          (1 < r.level → t.sound[sc].source = r.source ∧ t.sound[sc].ramp = r.ramp) ∧
          (r.level ≤ 1 → t.sound[sc].source = src ∧ t.sound[sc].ramp = none ∧
            (r.source = .onBreak → src ≠ .onBreak →
              t.sound[sc].brk = [] ∧ t.sound[sc].cursor = none ∧ t.sound[sc].breakGapOpen = false) ∧
            (r.source = .programme → src ≠ .programme → t.sound[sc].servo.state = r.servo.state ∧
              t.sound[sc].servo.lockRun = r.servo.lockRun ∧ t.sound[sc].servo.gap = none ∧
              t.sound[sc].servo.coastGap = none ∧ t.sound[sc].servo.coastLimit = none) ∧
            (r.source ≠ .programme → src = .programme →
              t.sound[sc].servo.state = (if r.servo.state = .silent then .capture else r.servo.state) ∧
              t.sound[sc].servo.coastGap =
                (if r.servo.state ∈ [ServoState.track, .locked] then some 250 else r.servo.coastGap) ∧
              t.sound[sc].servo.coastLimit = (if r.servo.state ≠ .coast then r.servo.coastLimit
                else if r.servo.settings.coastLimit = 0 then none else some r.servo.settings.coastLimit)) ∧
            (r.source = src → t.sound[sc].prog = r.prog ∧ t.sound[sc].brk = r.brk))) ∧
      (r.source ≠ .onBreak → t.sound[sc].cursor = r.cursor ∧ t.sound[sc].brk = r.brk ∧
        t.sound[sc].breakGapOpen = r.breakGapOpen ∧ t.sound[sc].breakGaps = r.breakGaps) ∧
      (r.source = .onBreak →
        (r.cursor = none → t.sound[sc].cursor = none ∧ t.sound[sc].feed = (0, 0) ∧
          t.sound[sc].breakGapOpen = false ∧ t.sound[sc].breakGaps = r.breakGaps) ∧
        ∀ k off, r.cursor = some (k, off) →
          (stays → t.sound[sc].cursor = some (if off = 255 then ((k + 1) % 65536, 0) else (k, off + 1))) ∧
          (∀ b, r.brkSlot (k % 16) = some b → b.tag = k →
            t.sound[sc].feed = scale r.level (b.frames.getD off (0, 0)) ∧ t.sound[sc].breakGaps = r.breakGaps ∧
            t.sound[sc].breakGapOpen = false) ∧
          ((∀ b, r.brkSlot (k % 16) = some b → b.tag ≠ k) →
            t.sound[sc].feed = (0, 0) ∧ (stays → t.sound[sc].breakGapOpen = true) ∧
            t.sound[sc].breakGaps = (if r.breakGapOpen = true then r.breakGaps else satInc r.breakGaps)))

/-- The servo's timers (R47, R48): the coast-gap timer's expiry takes the servo to COAST at the nominal rate and loads
the coast-limit timer; that one's expiry silences it, closing an open underrun gap. With no such timer running neither
changes anything. -/
def Obligations.ServoTimersExpire : Prop :=
  ∀ (s : State) (sc : ScreenId) (r : Sound), s.settled → s.sound[sc] = r →
    (r.servo.coastGap.isSome = true → exec (.coastGapExpiry sc) s = .next ((s.withSound sc { r with
      servo := { r.servo with
        state := .coast, r := 0, lockRun := 0, coastGap := none,
        coastLimit := if r.servo.settings.coastLimit = 0 then none else some r.servo.settings.coastLimit } }).reported
      [.syncCoast sc r.servo.p])) ∧
    (r.servo.coastGap = none → exec (.coastGapExpiry sc) s = .next (s.reported [])) ∧
    (r.servo.coastLimit.isSome = true → r.servo.gap = none → exec (.coastLimitExpiry sc) s =
      .next ((s.withSound sc { r with servo := { r.servo with state := .silent, coastLimit := none } }).reported
        [.syncLost sc r.servo.p])) ∧
    (r.servo.coastLimit.isSome = true → ∀ start n, r.servo.gap = some (start, n) → exec (.coastLimitExpiry sc) s =
      .next ((s.withSound sc { r with
        underruns := satInc r.underruns, servo := { r.servo with state := .silent, coastLimit := none, gap := none } }).reported
        [.underrun sc start n, .syncLost sc r.servo.p])) ∧
    (r.servo.coastLimit = none → exec (.coastLimitExpiry sc) s = .next (s.reported []))

/-- SOURCE in RUN (R55, R58): during a ramp-down the source asked for replaces the pending one; asking for the current
source otherwise changes nothing; another source starts a ramp-down, or, at level 0, becomes the current one at once
with SOURCE_CHANGED, the old and the new source having their parts done: the break ring emptied, an open underrun gap
closed and reported, the servo frozen or picked up by its state (R49, R52, R56). In SETUP it is refused STATE. That
SOURCE_CHANGED stands ahead of the UNDERRUN of the gap it closes is the model's choice (log entry 18). -/
def Obligations.SourceRequestTaken : Prop :=
  ∀ (s : State) (tag : Nat) (sc : ScreenId) (src : Source) (r : Sound), s.ready → s.sound[sc] = r →
    (s.link.part = .setup →
      exec (.source tag sc.val src.ctorIdx) s = .next (s.answered 0x0B tag (Reply.refuse .state) [])) ∧
    (s.link.part = .run → r.ramp = none → r.source = src →
      exec (.source tag sc.val src.ctorIdx) s = .next (s.answered 0x0B tag Reply.ok [])) ∧
    (s.link.part = .run → (r.ramp.isSome = true ∨ (r.source ≠ src ∧ r.level ≠ 0)) →
      exec (.source tag sc.val src.ctorIdx) s =
        .next ((s.withSound sc { r with ramp := some (src, .host) }).answered 0x0B tag Reply.ok [])) ∧
    (s.link.part = .run → r.ramp = none → r.source = .mute → r.level = 0 → src = .onBreak →
      exec (.source tag sc.val src.ctorIdx) s =
        .next ((s.withSound sc { r with source := .onBreak }).answered 0x0B tag Reply.ok
          [.sourceChanged sc .mute .onBreak .host])) ∧
    (s.link.part = .run → r.ramp = none → r.source ≠ src → r.level = 0 → ∃ (t : State) (reports : List Report),
      exec (.source tag sc.val src.ctorIdx) s =
        .next (t.answered 0x0B tag Reply.ok (.sourceChanged sc r.source src .host :: reports)) ∧
      t.sound[sc].source = src ∧ t.sound[sc].ramp = none ∧ t.sound[sc].servo.p = r.servo.p ∧
      r.sourceChangedTo src t.sound[sc] ∧
      ((r.source ≠ .programme ∨ r.servo.gap = none) → reports = [] ∧ t.sound[sc].underruns = r.underruns) ∧
      ∀ start n, r.source = .programme → r.servo.gap = some (start, n) →
        reports = [.underrun sc start n] ∧ t.sound[sc].underruns = satInc r.underruns)

/-- SERVO SET with settings in their ranges is answered OK and takes effect, the rate being brought within the new Rmax
at once; with settings outside them it is answered CLAMPED with the values used (R41, R60). LEVEL SET sets the target
level, clamped to 320 (R61). That a CLAMPED reply carries every setting of its request, changed or not, is the model's
choice (log entry 14). -/
def Obligations.SoundSettings : Prop :=
  ∀ (s : State) (tag : Nat) (sc : ScreenId) (r : Sound), s.ready → s.sound[sc] = r →
    (∀ (o : Int) (w d k m l : Nat) (st : ServoSettings),
      st = { offset := max (-4000) (min o 4000), window := max 480 (min w 16000), deadband := min d 32,
             gain := max 1 (min k 64), rmax := min m 1310, coastLimit := if l = 0 then 0 else max 500 (min l 10000) } →
      exec (.servoSet tag sc.val o w d k m l) s = .next ((s.withSound sc { r with servo := { r.servo with
          settings := st, r := max (-(st.rmax : Int)) (min r.servo.r st.rmax) } }).answered 0x0C tag
        (if st = { offset := o, window := w, deadband := d, gain := k, rmax := m, coastLimit := l } then Reply.ok
         else { result := .clamped, indication := .none,
                fields := [.raw (i16 st.offset ++ u16 st.window ++ u8 st.deadband ++ u8 st.gain ++ u16 st.rmax ++
                  u32 st.coastLimit)] }) [])) ∧
    (∀ level, exec (.levelSet tag sc.val level) s = .next ((s.withSound sc { r with target := min level 320 }).answered 0x0D
      tag (if 320 < level then { result := .clamped, indication := .none, fields := [.raw [1#8, 64#8]] } else Reply.ok) []))

/-! ## Post loops -/

/-- Starting a transaction (R65, R66, R73): nothing starts outside POLLING or over a transaction in flight. At a choice
point the repeat an AGAIN asked for comes first, then the probe of the lowest-numbered post due, then, within a run of
4, the SEND of the PENDING slot of highest priority and greatest age, then the POLL of the next post of the round (R74):
the first HEARD one from the cursor, past posts ABSENT or DROPPED, a DOUBTFUL one being polled at every fourth turn that
reaches it. Where no post can be polled a PENDING slot is sent although the run is at 4, and with none nothing starts.
The header's last byte opens the response window with the length set. That the length is the setting as it stands at
that moment, and that a repeat sends the header of its first sending, are the model's choice (log entry 29). -/
def Obligations.LoopTransactionsStart : Prop :=
  ∀ (s : State) (lp : ScreenId) (l : LoopRec), s.settled → s.yard.loops[lp] = l → l.canonical = true →
    ((l.owner ≠ .polling ∨ l.current.isSome = true) → exec (.transactionStart lp) s = .next (s.reported [])) ∧
    (l.owner = .polling → l.current = none → ∀ r, l.repeatDue = some r → exec (.transactionStart lp) s =
      .next ((s.withLoop lp { l with
        repeatDue := none
        current := some { post := r.post, fn := r.fn, slot := r.slot, waits := 0, agains := r.agains, header := r.header,
                          window := .sending } }).reported [])) ∧
    (l.owner = .polling → l.current = none → l.repeatDue = none → ∀ p, p < 128 → (l.post p).probeDue = true →
      (∀ q, q < p → (l.post q).probeDue = false) → exec (.transactionStart lp) s = .next ((s.withLoop lp { l with
        posts := Tab.put Post.reset l.posts p { l.post p with probeDue := false }
        current := some { post := p, fn := .probe, slot := none, waits := 0, agains := 0,
                          header := headerBytes p .probe (l.post p).ack [], window := .sending }
        sendRun := 0 }).reported [])) ∧
    (l.owner = .polling → l.current = none → l.repeatDue = none → (∀ q, q < 128 → (l.post q).probeDue = false) →
      (l.sendRun < 4 ∨ l.cursor < 128 ∧ ∀ q, q < 128 → (l.post q).present = false ∨ (l.post q).conf = .dropped) →
      ∀ i : Fin 16, (l.slots[i]).use = .pending →
      (∀ j : Fin 16, j ≠ i → (l.slots[j]).use = .pending → (l.slots[j]).prio < (l.slots[i]).prio ∨
        (l.slots[j]).prio = (l.slots[i]).prio ∧ (l.slots[i]).age < (l.slots[j]).age) →
      exec (.transactionStart lp) s = .next ((s.withLoop lp { l with
        slots := l.slots.set i { l.slots[i] with use := .inFlight }
        current := some { post := (l.slots[i]).post, fn := .send, slot := some i, waits := 0, agains := 0,
                          header := headerBytes (l.slots[i]).post .send (l.post (l.slots[i]).post).ack (l.slots[i]).payload,
                          window := .sending }
        sendRun := l.sendRun + 1 }).reported [])) ∧
    (l.owner = .polling → l.current = none → l.repeatDue = none → (∀ q, q < 128 → (l.post q).probeDue = false) →
      ((∀ i : Fin 16, (l.slots[i]).use ≠ .pending) ∨ 4 ≤ l.sendRun) → (l.post l.cursor).present = true →
      (l.post l.cursor).conf = .heard → exec (.transactionStart lp) s = .next ((s.withLoop lp { l with
        cursor := (l.cursor + 1) % 128
        current := some { post := l.cursor, fn := .poll, slot := none, waits := 0, agains := 0,
                          header := headerBytes l.cursor .poll (l.post l.cursor).ack [], window := .sending }
        sendRun := 0 }).reported [])) ∧
    (l.owner = .polling → l.current = none → l.repeatDue = none → (∀ q, q < 128 → (l.post q).probeDue = false) →
      ((∀ i : Fin 16, (l.slots[i]).use ≠ .pending) ∨ 4 ≤ l.sendRun) → l.cursor < 128 →
      (∀ d p, d < 128 → p = (l.cursor + d) % 128 → (l.post p).present = true → (l.post p).conf = .heard →
        (∀ k, k < d → (l.post ((l.cursor + k) % 128)).present = false ∨
          (l.post ((l.cursor + k) % 128)).conf = .dropped) →
        exec (.transactionStart lp) s = .next ((s.withLoop lp { l with
          cursor := (p + 1) % 128
          current := some { post := p, fn := .poll, slot := none, waits := 0, agains := 0,
                            header := headerBytes p .poll (l.post p).ack [], window := .sending }
          sendRun := 0 }).reported [])) ∧
      ((l.post l.cursor).present = true → (l.post l.cursor).conf = .doubtful → (l.post l.cursor).turn = 3 →
        exec (.transactionStart lp) s = .next ((s.withLoop lp { l with
          posts := Tab.put Post.reset l.posts l.cursor { l.post l.cursor with turn := 0 }
          cursor := (l.cursor + 1) % 128
          current := some { post := l.cursor, fn := .poll, slot := none, waits := 0, agains := 0,
                            header := headerBytes l.cursor .poll (l.post l.cursor).ack [], window := .sending }
          sendRun := 0 }).reported [])) ∧
      ((l.post l.cursor).present = true → (l.post l.cursor).conf = .doubtful → (l.post l.cursor).turn ≠ 3 →
        ∀ p, p = (l.cursor + 1) % 128 → (l.post p).present = true → (l.post p).conf = .heard →
        exec (.transactionStart lp) s = .next ((s.withLoop lp { l with
          posts := Tab.put Post.reset l.posts l.cursor
            { l.post l.cursor with turn := (l.post l.cursor).turn + 1 }
          cursor := (p + 1) % 128
          current := some { post := p, fn := .poll, slot := none, waits := 0, agains := 0,
                            header := headerBytes p .poll (l.post p).ack [], window := .sending }
          sendRun := 0 }).reported [])) ∧
      ((∀ i : Fin 16, (l.slots[i]).use ≠ .pending) →
        (∀ q, q < 128 → (l.post q).present = false ∨ (l.post q).conf = .dropped) →
        exec (.transactionStart lp) s = .next (s.reported []))) ∧
    (∀ t left, l.current = some t → t.window = .sending →
      left = (if l.windowSetting = 0 then none else some l.windowSetting) → exec (.headerSent lp) s =
      .next ((s.withLoop lp { l with current := some { t with window := .listening l.windowSetting left } }).reported
        [])) ∧
    (l.current = none → exec (.headerSent lp) s = .next (s.reported []))

/-- The outcomes of a POLL of a PRESENT post that is not DROPPED (R66, R67, R69, R70): a DONE without a record lowers
its error count by 1, and one with a record hands the record on as well; an invalid response, a FAULT, the fifth AGAIN
in a run, the third WAIT or the window's expiry raises it by 8, with the loop's error count; its confinement follows the
count, between HEARD and DOUBTFUL, and at 192 it is DROPPED with its recovery timer loaded. An AGAIN short of the fifth
asks for a repeat, a WAIT short of the third opens the window afresh, with the length it first had (the model's choice,
log entry 29) and the run of AGAINs as it stands (the model's choice, log entry 46). The outcomes of a PROBE of a
DROPPED post (R71): a good one brings it back to HEARD with a count of 0 and has its values sent again, a bad one
reloads its recovery timer. The outcomes of a SEND (R77): a good one frees its slot, writes the post's entry and reports
SEND_DONE for the host; a bad one sets it to be sent again, and at the third completes it UNDELIVERED. The end of a
transaction in YIELDING, with its grant, is stated by LoopsAreLent. Bytes with no transaction in flight, and stray
bytes, change nothing (R68). A post's recovery timer makes its probe due (R71). -/
def Obligations.LoopTransactionsEnd : Prop :=
  ∀ (s : State) (lp : ScreenId) (l : LoopRec) (t : Transaction) (n : Nat) (left : Option Nat) (p : Post)
    (failed : Instr → Prop),
    s.settled → s.yard.loops[lp] = l → p = l.post t.post →
    (∀ c, failed c ↔ (c = .responseWindowExpiry lp ∧ left.isSome = true ∨ ∃ bytes r, c = .loopResponse lp bytes ∧
      responseOf bytes = some r ∧ (r.valid t.post = none ∨ r.valid t.post = some .fault ∨
        r.valid t.post = some .again ∧ 4 ≤ t.agains ∨ r.valid t.post = some .wait ∧ 2 ≤ t.waits))) →
    (∀ bytes, exec (.loopStrayBytes lp bytes) s = .next (s.reported [])) ∧
    (l.current = none → ∀ bytes, exec (.loopResponse lp bytes) s = .next (s.reported [])) ∧
    (∀ q, (l.post q).recovery.isSome = true → exec (.recoveryTimerExpiry lp q) s = .next ((s.withLoop lp { l with
      posts := Tab.put Post.reset l.posts q { l.post q with recovery := none, probeDue := true } }).reported [])) ∧
    (∀ q, (l.post q).recovery = none → exec (.recoveryTimerExpiry lp q) s = .next (s.reported [])) ∧
    (l.current = some t → t.fn = .poll → t.slot = none → t.window = .listening n left → l.owner = .polling →
      p.present = true → p.conf ≠ .dropped →
      (∀ bytes r, responseOf bytes = some r → r.valid t.post = some .done → r.record = [] → p.errors - 1 < 192 →
        ∀ conf, conf = (if 96 ≤ p.errors - 1 then .doubtful else .heard) →
        exec (.loopResponse lp bytes) s = .next ((s.withLoop lp { l with
          current := none
          posts := Tab.put Post.reset l.posts t.post { p with errors := p.errors - 1, conf := conf } }).reported
          (if p.conf = conf then [] else [.postState lp t.post p.conf conf (p.errors - 1)]))) ∧
      (∀ bytes r u, responseOf bytes = some r → r.valid t.post = some .done → p.conf = .heard → p.errors < 96 →
        u = s.withLoop lp { l with
          current := none, posts := Tab.put Post.reset l.posts t.post { p with errors := p.errors - 1 } } →
        exec (.loopResponse lp bytes) s = .next ({ u with
          yard := (u.yard.takeRecord s.site lp t.post r.record).grantLoan lp } : State).finish) ∧
      (192 ≤ p.errors + 8 → (∀ i : Fin 16, ¬((l.slots[i]).use = .pending ∧ (l.slots[i]).post = t.post)) → ∀ c, failed c →
        exec c s = .next ((s.withLoop lp { l with
          current := none, errors := satInc l.errors
          posts := Tab.put Post.reset l.posts t.post
            { p with errors := min (p.errors + 8) 255, conf := .dropped, recovery := some 10000 } }).reported
          [.postState lp t.post p.conf .dropped (min (p.errors + 8) 255)])) ∧
      (p.errors + 8 < 192 → ∀ conf, conf = (if 96 ≤ p.errors + 8 then .doubtful else .heard) → ∀ c, failed c →
        exec c s = .next ((s.withLoop lp { l with
          current := none, errors := satInc l.errors
          posts := Tab.put Post.reset l.posts t.post { p with errors := p.errors + 8, conf := conf } }).reported
          (if p.conf = conf then [] else [.postState lp t.post p.conf conf (p.errors + 8)]))) ∧
      (∀ bytes r, responseOf bytes = some r → r.valid t.post = some .again → t.agains < 4 →
        exec (.loopResponse lp bytes) s = .next ((s.withLoop lp { l with
          current := none
          repeatDue := some { post := t.post, fn := .poll, slot := none, agains := t.agains + 1,
                              header := t.header } }).reported [])) ∧
      (∀ bytes r again, responseOf bytes = some r → r.valid t.post = some .wait → t.waits < 2 →
        again = (if n = 0 then none else some n) → exec (.loopResponse lp bytes) s = .next ((s.withLoop lp { l with
          current := some { t with waits := t.waits + 1, window := .listening n again } }).reported []))) ∧
    (l.current = some t → t.fn = .probe → t.slot = none → t.window = .listening n left → l.owner = .polling →
      p.present = true → p.conf = .dropped →
      (∀ bytes r, responseOf bytes = some r → r.valid t.post = some .done → r.record = [] →
        s.yard.store.undamaged = true → ∃ v, exec (.loopResponse lp bytes) s = .next v ∧
        (v.yard.loops[lp]).current = none ∧
        (v.yard.loops[lp]).post t.post = { p with
          errors := 0, conf := .heard, lamp0 := 0, lamp1 := 0, spk0 := false, spk1 := false } ∧
        v.link = s.link.after [.postState lp t.post .dropped .heard 0] ∧
        ((∃ i : Fin 16, (l.slots[i]).use = .free) → ∃ i : Fin 16, ((v.yard.loops[lp]).slots[i]).use = .pending ∧
          ((v.yard.loops[lp]).slots[i]).post = t.post ∧ ((v.yard.loops[lp]).slots[i]).kind = .speakers ∧
          ((v.yard.loops[lp]).slots[i]).v0.isSome = true ∧ ((v.yard.loops[lp]).slots[i]).v1.isSome = true)) ∧
      ∀ c, failed c → exec c s = .next ((s.withLoop lp { l with
        current := none, errors := satInc l.errors
        posts := Tab.put Post.reset l.posts t.post
          { p with errors := min (p.errors + 8) 255, recovery := some 10000 } }).reported [])) ∧
    (∀ (i : Fin 16) (sl : OutSlot), l.current = some t → t.fn = .send → t.slot = some i →
      t.window = .listening n left → l.owner = .polling → l.overflow = false → l.slots[i] = sl → sl.post = t.post →
      p.present = true → p.conf = .heard →
      (∀ bytes r, responseOf bytes = some r → r.valid t.post = some .done → r.record = [] → p.errors < 96 →
        ∃ v, exec (.loopResponse lp bytes) s = .next v ∧ (v.yard.loops[lp]).current = none ∧
        (v.yard.loops[lp]).slots = l.slots.set i OutSlot.empty ∧
        (v.yard.loops[lp]).post t.post = (match sl.kind with
          | .lamps => { p with
              errors := p.errors - 1, lamp0 := sl.v0.getD p.lamp0, lamp1 := sl.v1.getD p.lamp1 }
          | .speakers => { p with
              errors := p.errors - 1, spk0 := (sl.v0.map (· == 1)).getD p.spk0,
              spk1 := (sl.v1.map (· == 1)).getD p.spk1 }) ∧
        v.link = s.link.after (if sl.origin = .host then [.sendDone lp i] else [])) ∧
      (p.errors + 8 < 96 → ∀ c, failed c →
        (sl.fails < 2 → exec c s = .next ((s.withLoop lp { l with
          current := none, errors := satInc l.errors
          slots := l.slots.set i { sl with use := .pending, fails := sl.fails + 1 }
          posts := Tab.put Post.reset l.posts t.post { p with errors := p.errors + 8 } }).reported [])) ∧
        (2 ≤ sl.fails → exec c s = .next ((s.withLoop lp { l with
          current := none, errors := satInc l.errors, undelivered := satInc l.undelivered
          slots := l.slots.set i OutSlot.empty
          posts := Tab.put Post.reset l.posts t.post { p with errors := p.errors + 8 } }).reported
          [.sendUndelivered lp t.post sl.kind sl.v0 sl.v1 sl.origin]))))

/-- A keypad record heard in a loan (R80 to R83, R85) is taken as one that answers a POLL is (LoopTransactionsEnd): a
sequence byte above 1 counts a bad record; the last accepted sequence counts a repeat; a new one is accepted, and a
record out of form then counts as bad, while one in form marks its row and is delivered: a HELP is reported with its
bay, a CHECKIN and a CANCEL go to the rules that CheckinBinds and OrdersReleasedAndCancelled state, and an ORDER to the
intake that OrderEnterTaken states, its answer shown on the bay's lamp and a refusal reported (R148). That the lamp of a
refused ORDER is placed, with the SEND_UNDELIVERED it may cause, before ORDER_REFUSED is raised, and that of an
accepted one after ORDER_IN, is the model's choice (log entry 18). Outside a loan the line is not listened to. -/
def Obligations.HeardRecordsTaken : Prop :=
  ∀ (s : State) (lp : ScreenId) (l : LoopRec) (bytes : List Byte) (r : Response) (seq : Byte) (rest : List Byte),
    s.settled → s.yard.loops[lp] = l →
    ((l.owner = .polling ∨ l.owner = .yielding) → exec (.lentResponseHeard lp bytes) s = .next (s.reported [])) ∧
    ((l.owner = .lent ∨ l.owner = .reclaiming) → responseOf bytes = some r → r.address ≤ 127 →
      r.valid r.address = some .done → r.record = seq :: rest →
      (1 < seq.toNat → exec (.lentResponseHeard lp bytes) s =
        .next ((s.withLoop lp { l with badRecords := satInc l.badRecords }).reported [])) ∧
      (seq.toNat ≤ 1 → (l.post r.address).lastSeq = some seq.toNat → exec (.lentResponseHeard lp bytes) s =
        .next ((s.withLoop lp { l with repeats := satInc l.repeats }).reported [])) ∧
      (seq.toNat ≤ 1 → (l.post r.address).lastSeq ≠ some seq.toNat → formOf rest = none →
        exec (.lentResponseHeard lp bytes) s = .next ((s.withLoop lp { l with
          posts := Tab.put Post.reset l.posts r.address { l.post r.address with lastSeq := some seq.toNat }
          badRecords := satInc l.badRecords }).reported [])) ∧
      (seq.toNat ≤ 1 → (l.post r.address).lastSeq ≠ some seq.toNat → ∀ side, side ≤ 1 →
        rest = [0x04#8, BitVec.ofNat 8 side] → exec (.lentResponseHeard lp bytes) s = .next ((s.withLoop lp { l with
          posts := Tab.put Post.reset l.posts r.address { l.post r.address with lastSeq := some seq.toNat }
          rows := Tab.put false l.rows (lp.val * 16 + r.address / 8) true }).reported
          [.helpCall lp r.address side (lp.val * 256 + 2 * r.address + side)])) ∧
      exec (.lentResponseHeard lp bytes) s =
        .next ({ s with yard := s.yard.takeRecord s.site lp r.address r.record } : State).finish ∧
      (seq.toNat ≤ 1 → (l.post r.address).lastSeq ≠ some seq.toNat → ∀ (side : Byte) (bay : Nat) (u : State),
        side.toNat ≤ 1 → bay = lp.val * 256 + 2 * r.address + side.toNat → u = s.withLoop lp { l with
          posts := Tab.put Post.reset l.posts r.address { l.post r.address with lastSeq := some seq.toNat }
          rows := Tab.put false l.rows (lp.val * 16 + r.address / 8) true } →
        (∀ c2 c1 c0 wish code, rest = [0x01#8, side, c2, c1, c0, if wish then 1#8 else 0#8] →
          code = c2.toNat * 65536 + c1.toNat * 256 + c0.toNat → code ≤ 999999 →
          exec (.lentResponseHeard lp bytes) s =
            .next ({ u with yard := u.yard.checkin s.site bay code wish } : State).finish) ∧
        (∀ hi lo order, rest = [0x03#8, side, hi, lo] → order = hi.toNat * 256 + lo.toNat → 1 ≤ order → order ≤ 9999 →
          exec (.lentResponseHeard lp bytes) s =
            .next ({ u with yard := u.yard.postCancel s.site bay order } : State).finish) ∧
        (∀ (md : OrderMode) (lines : List WireLine) (v : Yard),
          rest = 0x02#8 :: side :: BitVec.ofNat 8 md.ctorIdx :: BitVec.ofNat 8 lines.length ::
            (lines.map fun x => [BitVec.ofNat 8 x.item, BitVec.ofNat 8 x.qty]).flatten →
          1 ≤ lines.length → lines.length ≤ 8 → (∀ x ∈ lines, x.item ≤ 63 ∧ 1 ≤ x.qty ∧ x.qty ≤ 9) →
          (∀ n total first, u.yard.intake s.site bay md lines .post = (.accepted n total first, v) →
            exec (.lentResponseHeard lp bytes) s =
              .next ({ u with yard := v.placePassing bay 0x01 } : State).finish) ∧
          (∀ reason item, u.yard.intake s.site bay md lines .post = (.refused reason item, v) →
            exec (.lentResponseHeard lp bytes) s = .next ({ u with
              yard := (v.placePassing bay reason.lamp).raise (.orderRefused bay .post reason item) } : State).finish))))

/-- Lending a loop (R84, R86): a request that rises with LEND_ALLOWED off is refused once; with it on, an idle loop is
lent at once and a busy one yields; a repeat that is due is abandoned, its slot PENDING again. A request that falls ends
the yielding, or the loan, with LEND_END, and the values of the loop's posts are sent again, as LoopMapAndReset states.
The lend timer's expiry takes the grant back. In YIELDING a transaction runs to its outcome, WAITs included, and does
what it does in POLLING; the grant is then raised with LEND_START, the last report of its step, after a record's too
(the model's choice, log entry 18), and an AGAIN short of the fifth abandons the repeat, a SEND's slot PENDING again
with its failures unchanged. That a PROBE's abandoned repeat leaves its post as it is, with no probe due, is the model's
choice (log entry 28). -/
def Obligations.LoopsAreLent : Prop :=
  ∀ (s : State) (lp : ScreenId) (l : LoopRec), s.settled → s.yard.loops[lp] = l →
    (l.request = true → exec (.lendRequestRise lp) s = .next (s.reported [])) ∧
    (l.request = false → l.lendAllowed = false →
      exec (.lendRequestRise lp) s = .next ((s.withLoop lp { l with request := true }).reported [.lendRefused lp])) ∧
    (l.request = false → l.lendAllowed = true → l.owner = .polling → l.repeatDue = none → l.current = none →
      exec (.lendRequestRise lp) s = .next ((s.withLoop lp { l with
        request := true, owner := .lent, grant := true, lendTimer := loadSeconds l.lendSetting }).reported
        [.lendStart lp])) ∧
    (l.request = false → l.lendAllowed = true → l.owner = .polling → l.repeatDue = none → l.current.isSome = true →
      exec (.lendRequestRise lp) s =
        .next ((s.withLoop lp { l with request := true, owner := .yielding }).reported [])) ∧
    (l.request = false → l.lendAllowed = true → l.owner ≠ .polling →
      exec (.lendRequestRise lp) s = .next ((s.withLoop lp { l with request := true }).reported [])) ∧
    (l.request = true → l.owner = .yielding → exec (.lendRequestFall lp) s =
      .next ((s.withLoop lp { l with request := false, owner := .polling }).reported [])) ∧
    (l.request = true → l.owner = .polling → exec (.lendRequestFall lp) s =
      .next ((s.withLoop lp { l with request := false }).reported [])) ∧
    (l.request = true → (l.owner = .lent ∨ l.owner = .reclaiming) → (∃ t, exec (.lendRequestFall lp) s = .next t ∧
      (t.yard.loops[lp]).owner = .polling ∧ (t.yard.loops[lp]).grant = false ∧
      (t.yard.loops[lp]).lendTimer = none ∧ (t.yard.loops[lp]).request = false ∧
      (s.yard.store.undamaged = true → ∃ reports, t.link = s.link.after (.lendEnd lp :: reports))) ∧
      ∀ u y, u = (s.withLoop lp { l with request := false, owner := .polling, grant := false, lendTimer := none }).yard →
        y = ({ u with raised := [.lendEnd lp] } : Yard).resendLoop Yard.drain lp →
        exec (.lendRequestFall lp) s = .next (({ s with yard := { y with raised := [] } } : State).reported y.raised)) ∧
    (l.request = false → l.lendAllowed = true → l.owner = .polling → l.current = none → ∀ rd, l.repeatDue = some rd →
      exec (.lendRequestRise lp) s = .next ((s.withLoop lp { l with
        request := true, owner := .lent, grant := true, lendTimer := loadSeconds l.lendSetting, repeatDue := none
        slots := (match rd.slot with
          | some i => l.slots.set i { l.slots[i] with use := .pending }
          | none => l.slots) }).reported [.lendStart lp])) ∧
    (l.owner = .lent → l.lendTimer.isSome = true → exec (.lendTimerExpiry lp) s = .next ((s.withLoop lp { l with
      owner := .reclaiming, grant := false, lendTimer := none }).reported [.lendOverrun lp])) ∧
    ((l.owner ≠ .lent ∨ l.lendTimer = none) → exec (.lendTimerExpiry lp) s = .next (s.reported [])) ∧
    (l.owner = .yielding → ∀ t n left, l.current = some t → t.window = .listening n left →
      (∀ c, (c = .responseWindowExpiry lp ∧ left.isSome = true ∨ ∃ bytes q, c = .loopResponse lp bytes ∧
          responseOf bytes = some q ∧ (q.valid t.post ∈ [none, some .done, some .fault] ∨
            q.valid t.post = some .again ∧ 4 ≤ t.agains ∨ q.valid t.post = some .wait ∧ 2 ≤ t.waits)) →
        ∃ w reports, exec c (s.withLoop lp { l with owner := .polling }) = .next w ∧ w.link = s.link.after reports ∧
          (w.yard.loops[lp]).current = none ∧ exec c s = .next { w with
            yard := { w.yard with loops := w.yard.loops.set lp { w.yard.loops[lp] with
              owner := .lent, grant := true, lendTimer := loadSeconds l.lendSetting } }
            link := s.link.after (reports ++ [.lendStart lp]) }) ∧
      (∀ bytes q, responseOf bytes = some q → q.valid t.post = some .again → t.agains < 4 →
        exec (.loopResponse lp bytes) s = .next ((s.withLoop lp { l with
          owner := .lent, grant := true, lendTimer := loadSeconds l.lendSetting, current := none, repeatDue := none
          slots := (match t.slot with
            | some i => l.slots.set i { l.slots[i] with use := .pending }
            | none => l.slots) }).reported [.lendStart lp])) ∧
      (∀ bytes q again, responseOf bytes = some q → q.valid t.post = some .wait → t.waits < 2 →
        again = (if n = 0 then none else some n) → exec (.loopResponse lp bytes) s = .next ((s.withLoop lp { l with
          current := some { t with waits := t.waits + 1, window := .listening n again } }).reported [])))

/-- The requests of a loop: SEND takes the lowest FREE slot for a reachable post, or is refused FULL (R75, R78); SEND
ABORT frees a PENDING slot, and answers TOO_LATE or NO_SUCH for another (R79), and with the overflow flag set the flag
is cleared and a resend request goes out (R76); FIELD SUMMARY lists the rows marked and empties the set (R83); LOOP SET
clamps its settings (R87). An item of the Car Table or the Order Engine (R75, R76) takes the lowest FREE slot, and is
completed UNDELIVERED at once for a post that is not reachable; with no FREE slot each of its sides is merged into the
newest PENDING slot of its post and kind with that side enabled, which takes its value, the higher priority and its
origin, or is dropped with the overflow flag set. That the kinds of SEND are coded LAMPS 0 and SPEAKERS 1, by the order
in which they are listed, is log entry 9, and that a CLAMPED LOOP SET carries LEND_ALLOWED too is log entry 14: both are
the model's choice. -/
def Obligations.LoopRequestsTaken : Prop :=
  (∀ (y : Yard) (lp : ScreenId) (l : LoopRec) (it : Item) (sl : OutSlot) (withLoop : LoopRec → Yard),
    y.loops[lp] = l → (∀ l', withLoop l' = { y with loops := y.loops.set lp l' }) →
    sl = { use := .pending, post := it.post, kind := it.kind, v0 := it.v0, v1 := it.v1, prio := it.prio,
           origin := it.origin, age := l.nextAge, fails := 0 } →
    (∀ i : Fin 16, (l.slots[i]).use = .free → (∀ j : Fin 16, j < i → (l.slots[j]).use ≠ .free) →
      ((l.post it.post).present = true → (l.post it.post).conf ≠ .dropped → y.putItem lp it = ((true, true),
        withLoop { l with slots := l.slots.set i sl, nextAge := l.nextAge + 1 })) ∧
      (((l.post it.post).present = false ∨ (l.post it.post).conf = .dropped) → y.putItem lp it = ((true, true),
        { withLoop { l with
            slots := l.slots.set i OutSlot.empty, nextAge := l.nextAge + 1, undelivered := satInc l.undelivered } with
          raised := y.raised ++ [.sendUndelivered lp it.post it.kind it.v0 it.v1 it.origin] }))) ∧
    ((∀ j : Fin 16, (l.slots[j]).use ≠ .free) →
      (∀ v, it.v0 = some v → it.v1 = none → ∀ same : Fin 16 → Prop,
        (∀ i, same i ↔ (l.slots[i]).use = .pending ∧ (l.slots[i]).post = it.post ∧ (l.slots[i]).kind = it.kind ∧
          (l.slots[i]).v0.isSome = true) →
        (∀ i, same i → (∀ j, same j → j ≠ i → (l.slots[j]).age < (l.slots[i]).age) → y.putItem lp it = ((true, true),
          withLoop { l with slots := l.slots.set i { l.slots[i] with
            v0 := some v, prio := max (l.slots[i]).prio it.prio, origin := it.origin } })) ∧
        ((∀ i, ¬same i) → y.putItem lp it = ((false, true), withLoop { l with overflow := true }))) ∧
      (∀ v, it.v0 = none → it.v1 = some v → ∀ same : Fin 16 → Prop,
        (∀ i, same i ↔ (l.slots[i]).use = .pending ∧ (l.slots[i]).post = it.post ∧ (l.slots[i]).kind = it.kind ∧
          (l.slots[i]).v1.isSome = true) →
        (∀ i, same i → (∀ j, same j → j ≠ i → (l.slots[j]).age < (l.slots[i]).age) → y.putItem lp it = ((true, true),
          withLoop { l with slots := l.slots.set i { l.slots[i] with
            v1 := some v, prio := max (l.slots[i]).prio it.prio, origin := it.origin } })) ∧
        ((∀ i, ¬same i) → y.putItem lp it = ((true, false), withLoop { l with overflow := true }))) ∧
      (∀ a b, it.v0.isSome = true → it.v1.isSome = true → a = y.putItem lp { it with v1 := none } →
        b = a.2.putItem lp { it with v0 := none } → y.putItem lp it = ((a.1.1, b.1.2), b.2)))) ∧
  ∀ (s : State) (tag : Nat) (lp : ScreenId) (l : LoopRec), s.ready → s.yard.loops[lp] = l →
    (∀ (i : Fin 16) (y : Yard), (l.slots[i]).use = .pending → l.overflow = true →
      y = ((s.withLoop lp { l with slots := l.slots.set i OutSlot.empty, overflow := false }).yard).resendOverflow
        Yard.drain lp →
      exec (.sendAbort tag lp.val i.val) s =
        .next (({ s with yard := { y with raised := [] } } : State).answered 0x11 tag Reply.ok y.raised)) ∧
    (∀ (k : SlotKind) (e0 e1 : Bool) (post v0 v1 prio : Nat) (sl : OutSlot), post ≤ 127 → (e0 || e1) = true →
      k.admits v0 = true → k.admits v1 = true →
      sl = { use := .pending, post := post, kind := k, v0 := if e0 then some v0 else none,
             v1 := if e1 then some v1 else none, prio := min prio 3, origin := .host, age := l.nextAge, fails := 0 } →
      ((∀ j : Fin 16, (l.slots[j]).use ≠ .free) →
        exec (.send tag lp.val post k.ctorIdx (if e0 then 1 else 0) v0 (if e1 then 1 else 0) v1 prio) s =
          .next (s.answered 0x10 tag (Reply.refuse .full) [])) ∧
      (∀ (i : Fin 16) (r : Reply), (l.slots[i]).use = .free → (∀ j : Fin 16, j < i → (l.slots[j]).use ≠ .free) →
        r = { result := if 3 < prio then .clamped else .ok, indication := .none,
              fields := [.raw [BitVec.ofNat 8 i.val]] } →
        ((l.post post).present = true → (l.post post).conf ≠ .dropped →
          exec (.send tag lp.val post k.ctorIdx (if e0 then 1 else 0) v0 (if e1 then 1 else 0) v1 prio) s =
            .next ((s.withLoop lp { l with slots := l.slots.set i sl, nextAge := l.nextAge + 1 }).answered 0x10 tag r [])) ∧
        (((l.post post).present = false ∨ (l.post post).conf = .dropped) →
          exec (.send tag lp.val post k.ctorIdx (if e0 then 1 else 0) v0 (if e1 then 1 else 0) v1 prio) s =
            .next ((s.withLoop lp { l with
              slots := l.slots.set i OutSlot.empty, nextAge := l.nextAge + 1, undelivered := satInc l.undelivered }).answered
              0x10 tag r [.sendUndelivered lp post k sl.v0 sl.v1 .host])))) ∧
    (∀ i : Fin 16, (l.slots[i]).use = .pending → l.overflow = false → exec (.sendAbort tag lp.val i.val) s =
      .next ((s.withLoop lp { l with slots := l.slots.set i OutSlot.empty }).answered 0x11 tag Reply.ok [])) ∧
    (∀ i : Fin 16, (l.slots[i]).use = .inFlight →
      exec (.sendAbort tag lp.val i.val) s = .next (s.answered 0x11 tag (Reply.refuse .tooLate) [])) ∧
    (∀ i : Fin 16, (l.slots[i]).use = .free →
      exec (.sendAbort tag lp.val i.val) s = .next (s.answered 0x11 tag (Reply.refuse .noSuch) [])) ∧
    (exec (.fieldSummary tag lp.val) s = .next ((s.withLoop lp { l with rows := [] }).answered 0x12 tag
      { result := .ok, indication := .none, fields := [.list 1 (l.rows.map fun e => [BitVec.ofNat 8 e.1])] } [])) ∧
    (∀ window lend (allow : Bool) w t, w = (if window = 0 then 0 else max 5 (min window 100)) →
      t = (if lend = 0 then 0 else max 60 (min lend 3600)) →
      exec (.loopSet tag lp.val window (if allow then 1 else 0) lend) s = .next ((s.withLoop lp { l with
        windowSetting := w, lendAllowed := allow, lendSetting := t }).answered 0x13 tag
        (if w = window ∧ t = lend then Reply.ok
         else { result := .clamped, indication := .none, fields := [.raw (u8 w ++ flag allow ++ u16 t)] }) []))

/-- POST MAP sets the presence of every post of a loop, a post newly PRESENT starting afresh and one newly ABSENT losing
its count and its probe and having its PENDING slots completed UNDELIVERED, one that stays as it was keeping its entry
(R72). That the posts are taken in rising order, and the slots of one in rising order too, is the model's choice (log
entry 18). LOOP RESET abandons the transaction and the loan, frees every slot, clears the overflow flag, sets the
polling round and the loop's counts back, clears each PRESENT post's count, confinement and sequence, and asks for every
value again (R89). Such a request marks every bay of the loop's field and has the marked values placed post by post, the
speakers first (R129, R156). What a post's marks place, with no record damaged: one SPEAKERS item at priority 2 with the
state of each marked side, 1 ON and 0 OFF or closed (R128), and one LAMPS item at priority 1 with the resting lamp of
each marked side, READY where the bay's occupant has an order READY or TAKEN and NONE elsewhere (R156); a side placed or
merged has its mark cleared. A value shown in passing that is dropped leaves its bay marked (R156). -/
def Obligations.LoopMapAndReset : Prop :=
  (∀ (y : Yard) (lp : ScreenId) (p b0 b1 : Nat) (on ready : Nat → Bool), y.store.undamaged = true → p < 128 →
    b0 = lp.val * 256 + 2 * p → b1 = b0 + 1 →
    (∀ b, on b = true ↔ ∃ br, y.bay? b = some br ∧ br.speaker = true) →
    (∀ b, ready b = true ↔ ∃ br n, y.bay? b = some br ∧ br.occupant = some n ∧ ((∃ e ∈ y.readyList, e.car = n) ∨
      ∃ (r : RunnerId) (k : Nat) (o : Order), (y.runners[r]).held = some k ∧ y.order? k = some o ∧ o.car = n)) →
    (Tab.wf false y.spkMarks = true →
      (y.spkMarked b0 = false → y.spkMarked b1 = false → y.placeSpeakersAt Yard.drain lp p = y) ∧
      ((y.spkMarked b0 = true ∨ y.spkMarked b1 = true) → ∀ it r z, it =
          { post := p, kind := .speakers, prio := 2, origin := .ct,
            v0 := if y.spkMarked b0 then some (if on b0 then 1 else 0) else none,
            v1 := if y.spkMarked b1 then some (if on b1 then 1 else 0) else none } → r = y.putItem lp it →
        z = y.placeSpeakersAt Yard.drain lp p → { z with spkMarks := y.spkMarks } = r.2 ∧ ∀ b, z.spkMarked b =
          (y.spkMarked b && !(b == b0 && r.1.1) && !(b == b1 && r.1.2)))) ∧
    (Tab.wf false y.lampMarks = true →
      (y.lampMarked b0 = false → y.lampMarked b1 = false → y.placeLampsAt Yard.drain lp p = y) ∧
      ((y.lampMarked b0 = true ∨ y.lampMarked b1 = true) → ∀ it r z, it =
          { post := p, kind := .lamps, prio := 1, origin := .oe,
            v0 := if y.lampMarked b0 then some (if ready b0 then 0x02 else 0x00) else none,
            v1 := if y.lampMarked b1 then some (if ready b1 then 0x02 else 0x00) else none } → r = y.putItem lp it →
        z = y.placeLampsAt Yard.drain lp p → { z with lampMarks := y.lampMarks } = r.2 ∧ ∀ b, z.lampMarked b =
          (y.lampMarked b && !(b == b0 && r.1.1) && !(b == b1 && r.1.2)))) ∧
    (Tab.wf false y.lampMarks = true → ∀ side v it r z, side ≤ 1 →
      it = { post := p, kind := .lamps, prio := 1, origin := .oe,
             v0 := if side = 0 then some v else none, v1 := if side = 0 then none else some v } → r = y.putItem lp it →
      z = y.placePassing (b0 + side) v → { z with lampMarks := y.lampMarks } = r.2 ∧ ∀ b, z.lampMarked b =
        (y.lampMarked b || (b == b0 + side && !(r.1.1 && r.1.2))))) ∧
  (∀ (y : Yard) (lp : ScreenId), Tab.wf false y.spkMarks = true → Tab.wf false y.lampMarks = true →
    ∃ m, { m with spkMarks := y.spkMarks, lampMarks := y.lampMarks } = y ∧
      (∀ b, m.spkMarked b = (y.spkMarked b || b / 256 == lp.val)) ∧
      (∀ b, m.lampMarked b = (y.lampMarked b || b / 256 == lp.val)) ∧
      y.resendLoop Yard.drain lp = (List.range 128).foldl (fun z p => z.placeLampsAt Yard.drain lp p)
        ((List.range 128).foldl (fun z p => z.placeSpeakersAt Yard.drain lp p) m)) ∧
  ∀ (s : State) (tag : Nat) (lp : ScreenId) (l : LoopRec), s.ready → s.yard.loops[lp] = l → l.canonical = true →
    (∀ presence : List Bool, presence.length = 128 →
      ∃ t, exec (.postMap tag lp.val (presence.map fun b => if b then 1 else 0)) s = .next t ∧
        t.link.replies = s.link.replies ++ [.request 0x0F tag Reply.ok] ∧
        (∀ p, p < 128 → (t.yard.loops[lp]).post p =
          (if (l.post p).present = presence.getD p false then l.post p
           else if presence.getD p false then
             { l.post p with present := true, errors := 0, conf := .heard, turn := 0, lamp0 := 0, lamp1 := 0,
                             spk0 := false, spk1 := false, lastSeq := none }
           else { l.post p with present := false, errors := 0, conf := .heard, recovery := none, probeDue := false })) ∧
        (l.overflow = false → ∀ gone : Nat → Fin 16 → Bool, (∀ p i, gone p i = true ↔ (l.slots[i]).use = .pending ∧
            (l.slots[i]).post = p ∧ p < 128 ∧ (l.post p).present = true ∧ presence.getD p false = false) →
          (∀ i : Fin 16, ((t.yard.loops[lp]).slots[i]) =
            (if gone (l.slots[i]).post i then OutSlot.empty else l.slots[i])) ∧
          t.link = (s.link.addPlace (.request 0x0F tag Reply.ok)).after ((List.range 128).map fun p =>
            ((List.finRange 16).filter (gone p)).map fun i => Report.sendUndelivered lp p (l.slots[i]).kind (l.slots[i]).v0
              (l.slots[i]).v1 (l.slots[i]).origin).flatten)) ∧
    ∃ posts, (∀ p, Tab.get Post.reset posts p =
        (if (l.post p).present then
           { l.post p with errors := 0, conf := .heard, turn := 0, lastSeq := none, recovery := none, probeDue := false }
         else { l.post p with probeDue := false })) ∧
      ∀ y, y = ((s.withLoop lp { l with
          posts := posts, slots := Vector.replicate 16 OutSlot.empty, overflow := false, current := none, repeatDue := none
          owner := .polling, grant := false, lendTimer := none, cursor := 0, sendRun := 0, rows := [], errors := 0
          repeats := 0, badRecords := 0, undelivered := 0 }).yard).resendLoop Yard.drain lp →
        exec (.loopReset tag lp.val) s =
          .next (({ s with yard := { y with raised := [] } } : State).answered 0x16 tag Reply.ok y.raised)

/-! ## Gate lanes and admission -/

/-- Detectors and feedback are followed in every state (R91, R92): the lane's record reads as the line changed to, the
other lanes, the screens and the sound paths are untouched, and a barrier loop that becomes occupied leaves its barrier
commanded UP (R93). -/
def Obligations.DetectorsFollowed : Prop :=
  ∀ (s : State) (ln : LaneId) (d : Detector) (f : Feedback),
    (∃ t, exec (.armingLoopChange ln d) s = .next t ∧ (t.lanes[ln]).arming = d ∧
      (t.lanes[ln]).barrierLoop = (s.lanes[ln]).barrierLoop ∧ (t.lanes[ln]).feedback = (s.lanes[ln]).feedback ∧
      s.apartFromLane ln t) ∧
    (∃ t, exec (.barrierLoopChange ln d) s = .next t ∧ (t.lanes[ln]).barrierLoop = d ∧
      (t.lanes[ln]).arming = (s.lanes[ln]).arming ∧ (t.lanes[ln]).feedback = (s.lanes[ln]).feedback ∧
      (Detector.isOccupied (s.lanes[ln]).barrierLoop = false → Detector.isOccupied d = true →
        (t.lanes[ln]).command = .up) ∧ s.apartFromLane ln t) ∧
    (∃ t, exec (.barrierFeedbackChange ln f) s = .next t ∧ (t.lanes[ln]).feedback = f ∧
      (t.lanes[ln]).arming = (s.lanes[ln]).arming ∧ (t.lanes[ln]).barrierLoop = (s.lanes[ln]).barrierLoop ∧
      (t.lanes[ln]).command = (s.lanes[ln]).command ∧ s.apartFromLane ln t)

/-- What a credential finds outside an admission (R94, R97 to R100, R106, R107). A bad one is answered RE-READ and
counted, in CLOSED as in every state (the model's choice, log entry 24); a good one is answered LANE CLOSED in CLOSED
and RE-READ in any state but PRESENT. In PRESENT at an entry lane, with no record of the store damaged, the first
failing check refuses it: a ticket already admitted USED; no open screen for ANY, or a named screen whose gate is
closed, LATE; a full field, or no free slot for the car or the ticket, FULL; a deferred close CLOSED. A used-ticket
entry lost at the read gives STORE_ERROR. Each refusal is counted, answered and reported, with nothing else changed. In
PRESENT at an exit lane it is answered LANE CLOSED over a deferred close, and NOT FOUND for a ticket of no car or of a
car ENTERING or LEAVING. -/
def Obligations.CredentialTurnedAway : Prop :=
  ∀ (s : State) (ln : LaneId) (l : Lane) (c : Credential) (cls : TicketClass), s.settled → s.lanes[ln] = l →
    (goodCredential c = false → exec (.credential ln c) s = .next ((s.withLane ln { l with
      answer := some .reRead, counts := { l.counts with readerErrors := satInc l.counts.readerErrors } }).reported [])) ∧
    (goodCredential c = true → l.state = .closed →
      exec (.credential ln c) s = .next ((s.withLane ln { l with answer := some .laneClosed }).reported [])) ∧
    (goodCredential c = true → l.state ∈ [LaneState.empty, .opening, .passing, .closing, .stalled] →
      exec (.credential ln c) s = .next ((s.withLane ln { l with answer := some .reRead }).reported [])) ∧
    (goodCredential c = true → l.state = .present → ln.val < 4 → TicketClass.of c.cls = some cls →
      ∀ chosen : Option ScreenId, s.chosen c.choice chosen →
      (s.yard.store.undamaged = true →
        (s.yard.ticketKnown c.ticket = true → s.yard.store.canonical = true →
          exec (.credential ln c) s = .next ((s.withLane ln { l with
            answer := some (.refusedFor .used), counts := { l.counts with used := satInc l.counts.used } }).reported
            [.refuse ln c.ticket cls c.choice chosen .used])) ∧
        (s.yard.ticketKnown c.ticket = false → (∀ sc : ScreenId, chosen = some sc → s.screens[sc].gateOpen = false) →
          exec (.credential ln c) s = .next ((s.withLane ln { l with
            answer := some (.refusedFor .late), counts := { l.counts with late := satInc l.counts.late } }).reported
            [.refuse ln c.ticket cls c.choice chosen .late])) ∧
        (∀ sc : ScreenId, chosen = some sc → s.yard.ticketKnown c.ticket = false → s.screens[sc].gateOpen = true →
          ((s.yard.capacity[sc] ≤ s.yard.admittedCount[sc] ∨ lowestFree s.yard.store.cars 1024 = none ∨
              lowestFree s.yard.store.tickets 4096 = none) →
            exec (.credential ln c) s = .next ((s.withLane ln { l with
              answer := some (.refusedFor .full), counts := { l.counts with full := satInc l.counts.full } }).reported
              [.refuse ln c.ticket cls c.choice chosen .full])) ∧
          (s.yard.admittedCount[sc] < s.yard.capacity[sc] → (lowestFree s.yard.store.cars 1024).isSome = true →
            (lowestFree s.yard.store.tickets 4096).isSome = true → l.closeDeferred = true →
            exec (.credential ln c) s = .next ((s.withLane ln { l with
              answer := some (.refusedFor .closed), counts := { l.counts with closed := satInc l.counts.closed } }).reported
              [.refuse ln c.ticket cls c.choice chosen .closed])))) ∧
      (∀ (sc : ScreenId) (j : Nat) (entry : Ticket) (sl : Slot Ticket) (h : Halves), chosen = some sc →
        s.yard.store.canonical = true → s.yard.store.waiting = [] → s.yard.findTicket c.ticket = some (j, entry) →
        s.yard.ticketSlot j = sl → (sl.badFirst || sl.badSecond) = true →
        h = (if sl.badFirst && sl.badSecond then .both else if sl.badFirst then .first else .second) →
        tableUndamaged s.yard.store.cars = true → ((inUse s.yard.store.cars).any fun e => e.2.ticket == c.ticket) = false →
        s.screens[sc].gateOpen = true → s.yard.admittedCount[sc] < s.yard.capacity[sc] →
        (lowestFree s.yard.store.cars 1024).isSome = true → (lowestFree s.yard.store.tickets 4096).isSome = true →
        ∃ raw, exec (.credential ln c) s = .next (({ s with
          lanes := s.lanes.set ln { l with
            answer := some (.refusedFor .storeError)
            counts := { l.counts with storeError := satInc l.counts.storeError } }
          yard := { s.yard with
            freeIndex := s.yard.freeIndex + 1
            store := { s.yard.store with
              tickets := Tab.put Slot.blank s.yard.store.tickets j { sl with state := .quarantined }
              latch := some (.ticket, j, h), faultCount := min (s.yard.store.faultCount + 1) 255 } } } : State).reported
          [.storeFault .ticket j { number := c.ticket, car := none } h raw,
            .refuse ln c.ticket cls c.choice chosen .storeError]))) ∧
    (goodCredential c = true → l.state = .present → 4 ≤ ln.val →
      (l.closeDeferred = true →
        exec (.credential ln c) s = .next ((s.withLane ln { l with answer := some .laneClosed }).reported [])) ∧
      (l.closeDeferred = false → s.yard.store.undamaged = true → s.yard.store.canonical = true →
        (∀ e, (inUse s.yard.store.cars).find? (fun e => e.2.ticket == c.ticket) = some e →
          e.2.state ∈ [CarState.entering, .leaving]) →
        exec (.credential ln c) s = .next ((s.withLane ln { l with answer := some .notFound }).reported [])))

/-- An admission (R97, R99, R101, R118, R123): an unused ticket presented in PRESENT at an entry lane for a screen with
its gate open and room on its field, named or chosen for ANY, is admitted. A car record in state ENTERING takes the
lowest free slot under the next car number, the ticket joins the used-ticket set, the screen's admitted count rises by
1, the barrier is commanded UP, the dwell timer is loaded, the lane is OPENING, and ADMIT is reported. The next car
number (R118) is the first after the last one issued, from 9,999 on to 1, that no car record carries and no order names.
An exit read (R107, R124): the ticket of a car ON_FIELD or PARKED, presented in PRESENT at an exit lane, makes that car
LEAVING, out of its bay and with its limit stopped, and opens the barrier for it. That CAR_STATE is the last report there,
the released bay's speaker being placed before it, is the model's choice (log entry 54). -/
def Obligations.AdmissionCreatesTheCar : Prop :=
  (∀ (y : Yard) (used : Nat → Prop) (after : Nat → Nat) (d : Nat), y.lastCar ≤ 9999 → d < 9999 →
    (∀ n, used n ↔ (∃ q ∈ inUse y.store.cars, q.2.number = n) ∨ ∃ q ∈ inUse y.store.orders, q.2.car = n) →
    (∀ k, after k = (y.lastCar + k) % 9999 + 1) → ¬used (after d) → (∀ k, k < d → used (after k)) → y.nextCar = after d) ∧
  (∀ (s : State) (ln : LaneId) (l : Lane) (c : Credential) (cls : TicketClass) (sc : ScreenId) (i j n : Nat),
    s.settled → s.lanes[ln] = l → goodCredential c = true → TicketClass.of c.cls = some cls → l.state = .present →
    l.closeDeferred = false → ln.val < 4 → s.chosen c.choice (some sc) → s.yard.store.undamaged = true →
    s.yard.ticketKnown c.ticket = false → s.screens[sc].gateOpen = true →
    s.yard.admittedCount[sc] < s.yard.capacity[sc] → lowestFree s.yard.store.cars 1024 = some i →
    lowestFree s.yard.store.tickets 4096 = some j → n = s.yard.nextCar →
    exec (.credential ln c) s = .next (({ s with
      lanes := s.lanes.set ln { l with
        state := .opening, pending := .admission n c.ticket sc, command := .up,
        travel := if l.command = .up then l.travel else some 10000,
        dwell := if l.dwellSetting = 0 then none else some (l.dwellSetting * 1000), exitRead := none,
        answer := some (.admitted sc) }
      yard := { s.yard with
        lastCar := n
        admittedCount := s.yard.admittedCount.set sc (s.yard.admittedCount[sc] + 1)
        store := { s.yard.store with
          cars := Tab.put Slot.blank s.yard.store.cars i ((s.yard.carSlot i).write
            { number := n, ticket := c.ticket, cls := cls, screen := sc, state := .entering, entryLane := ln,
              entryMinute := s.link.clock / 60000, bay := none, checkin := none, wired := false, orders := [],
              unchecked := false })
          tickets := Tab.put Slot.blank s.yard.store.tickets j ((s.yard.ticketSlot j).write
            { ticket := c.ticket, lane := ln, minute := s.link.clock / 60000 }) } } } : State).reported
      [.admitted ln n c.ticket cls sc])) ∧
  ∀ (s : State) (ln : LaneId) (l o : Lane) (c : Credential) (i : Nat) (car : Car),
    s.settled → s.lanes[ln] = l → goodCredential c = true → l.state = .present → l.closeDeferred = false → 4 ≤ ln.val →
    s.yard.store.undamaged = true → s.canonical = true →
    (inUse s.yard.store.cars).find? (fun e => e.2.ticket == c.ticket) = some (i, car) →
    s.yard.findCar car.number = some (i, car) →
    o = { l with
      state := .opening, pending := .exit car.number, command := .up, exitRead := none, answer := some .go
      travel := if l.command = .up then l.travel else some 10000
      dwell := if l.dwellSetting = 0 then none else some (l.dwellSetting * 1000) } →
    (car.state = .onField → exec (.credential ln c) s = .next (({ s with
      lanes := s.lanes.set ln o
      yard := { s.yard with
        limits := Tab.put none s.yard.limits car.number none
        store := { s.yard.store with
          cars := Tab.put Slot.blank s.yard.store.cars i ((s.yard.carSlot i).write { car with state := .leaving }) } }
      } : State).reported [.carState car.number .onField .leaving .exitRead])) ∧
    (∀ b br, car.state = .parked → car.bay = some b → s.yard.bay? b = some br →
      ∃ (t : State) (reports : List Report), exec (.credential ln c) s = .next t ∧ t.lanes[ln] = o ∧
        t.yard.car? car.number = some { car with bay := none, state := .leaving } ∧
        t.yard.bay? b = some { occupant := none, speaker := false } ∧ Tab.get none t.yard.limits car.number = none ∧
        t.yard.admittedCount = s.yard.admittedCount ∧ t.yard.store.orders = s.yard.store.orders ∧
        t.link = s.link.after (reports ++ [.carState car.number .parked .leaving .exitRead]) ∧ s.apartFromLane ln t)

/-- A vehicle goes through (R96, R101, R103 to R107, R110). The arming loop occupied takes EMPTY to PRESENT, and clear
takes PRESENT back. In OPENING the barrier loop occupied, or its detector in FAULT, takes the lane to PASSING with the
stall timer; in PASSING or STALLED the loop clear lowers the barrier and takes it to CLOSING: the car of an admission is
ON_FIELD with its check-in limit and ENTERED is reported, the car of an exit departs, both counted as crossings, also
where the record has gone; an anonymous exit is counted as such and a vehicle without an admission not at all. STALLED
reports LANE_STALL_CLEAR. The barrier DOWN then takes the lane to EMPTY, or to PRESENT where the arming loop is
occupied; a deferred close takes effect in place of EMPTY. Without an admission, in EMPTY, PRESENT or CLOSING, the
vehicle is a tailgate. In CLOSED the barrier is lowered again when its loop is clear (R93). That the exit read timer is
stopped where a vehicle leaves PRESENT over the barrier loop is the model's choice (log entry 27), and so is that a
detector's DETECTOR_FAULT or DETECTOR_OK stands ahead of the lane's own reports of the same change, and of DEPARTED (log
entry 18), and that a capacity above the open bays stays as it is when a car departs (log entry 57). -/
def Obligations.VehicleGoesThrough : Prop :=
  ∀ (s : State) (ln : LaneId) (l : Lane), s.settled → s.lanes[ln] = l →
    (∀ d ∈ [Detector.occupied, .fault], ∀ fault, fault = (if d = .fault then [Report.detectorFault ln .barrier] else []) →
      (l.state = .opening → l.barrierLoop = .clear → l.command = .up →
        exec (.barrierLoopChange ln d) s = .next ((s.withLane ln { l with
          barrierLoop := d, state := .passing, dwell := none, exitRead := none,
          stall := if l.stallSetting = 0 then none else some (l.stallSetting * 1000) }).reported fault)) ∧
      (l.state ∈ [LaneState.empty, .present, .closing] → l.barrierLoop = .clear →
        exec (.barrierLoopChange ln d) s = .next ((s.withLane ln { l with
          barrierLoop := d, state := .passing, dwell := none, exitRead := none, pending := .absent, command := .up,
          travel := if l.command = .up then l.travel else some 10000,
          stall := if l.stallSetting = 0 then none else some (l.stallSetting * 1000),
          counts := { l.counts with tailgates := satInc l.counts.tailgates } }).reported
          (fault ++ [.tailgate ln l.state]))) ∧
      (l.state = .empty → l.arming = .clear → exec (.armingLoopChange ln d) s = .next ((s.withLane ln { l with
        arming := d, state := .present
        exitRead := if 4 ≤ ln.val ∧ l.closeDeferred = false then
            (if l.exitReadSetting = 0 then none else some (l.exitReadSetting * 1000))
          else l.exitRead }).reported (if d = .fault then [.detectorFault ln .arming] else [])))) ∧
    (l.state = .present → l.arming ≠ .clear → exec (.armingLoopChange ln .clear) s = .next ((s.withLane ln { l with
      arming := .clear, state := if l.closeDeferred then .closed else .empty, closeDeferred := false, exitRead := none
      }).reported ((if l.arming = .fault then [.detectorOk ln .arming .clear] else []) ++
        (if l.closeDeferred then [.laneClosed ln] else [])))) ∧
    (l.state = .closed → l.barrierLoop = .occupied → exec (.barrierLoopChange ln .clear) s = .next ((s.withLane ln { l with
      barrierLoop := .clear, command := .down,
      travel := if l.command = .down then l.travel else some 10000 }).reported [])) ∧
    (l.state ∈ [LaneState.passing, .stalled] → l.barrierLoop ≠ .clear → l.command = .up →
      ∀ (crossed : LaneCounts → Lane) (ok clear : List Report),
      (∀ k, crossed k = { l with
        barrierLoop := .clear, state := .closing, pending := .absent, command := .down, travel := some 10000, stall := none
        counts := k }) →
      ok = (if l.barrierLoop = .fault then [.detectorOk ln .barrier .clear] else []) →
      clear = (if l.state = .stalled then [.laneStallClear ln] else []) →
      (l.pending ∈ [Pending.absent, .anonymous] → exec (.barrierLoopChange ln .clear) s =
        .next ((s.withLane ln (crossed { l.counts with
          anonymous := if l.pending = .anonymous then satInc l.counts.anonymous else l.counts.anonymous })).reported
          (ok ++ clear))) ∧
      (∀ n, ((∃ ticket sc, l.pending = .admission n ticket sc) ∨ l.pending = .exit n) → s.yard.findCar n = none →
        exec (.barrierLoopChange ln .clear) s = .next ((s.withLane ln (crossed { l.counts with
          crossings := satInc l.counts.crossings })).reported (ok ++ clear))) ∧
      (s.yard.store.undamaged = true → s.yard.store.canonical = true → ∀ (n i : Nat) (car : Car),
        s.yard.findCar n = some (i, car) →
        (∀ ticket sc, l.pending = .admission n ticket sc → car.state = .entering →
          exec (.barrierLoopChange ln .clear) s = .next (({ s with
            lanes := s.lanes.set ln (crossed { l.counts with crossings := satInc l.counts.crossings })
            yard := { s.yard with
              limits := Tab.put none s.yard.limits n
                (if s.yard.checkinSetting = 0 then none else some (s.yard.checkinSetting * 60000))
              store := { s.yard.store with
                cars := Tab.put Slot.blank s.yard.store.cars i
                  ((s.yard.carSlot i).write { car with state := .onField }) } } } : State).reported
            (ok ++ [.entered ln n] ++ clear))) ∧
        (l.pending = .exit n → car.state = .leaving → car.orders = [] →
          exec (.barrierLoopChange ln .clear) s = .next (({ s with
            lanes := s.lanes.set ln (crossed { l.counts with crossings := satInc l.counts.crossings })
            yard := { s.yard with
              limits := Tab.put none s.yard.limits n none
              admittedCount := s.yard.admittedCount.set car.screen (s.yard.admittedCount[car.screen] - 1)
              store := { s.yard.store with
                cars := Tab.put Slot.blank s.yard.store.cars i (s.yard.carSlot i).release } } } : State).reported
            (ok ++ [.departed n (some car.ticket) (some car.screen) .exit] ++ clear))))) ∧
    (l.state = .closing → l.command = .down → l.feedback ≠ .down → l.arming = .clear →
      exec (.barrierFeedbackChange ln .down) s = .next ((s.withLane ln { l with
        feedback := .down, travel := none, state := if l.closeDeferred then .closed else .empty, closeDeferred := false
        }).reported (if l.closeDeferred then [.laneClosed ln] else []))) ∧
    (l.state = .closing → l.command = .down → l.feedback ≠ .down → l.arming ≠ .clear →
      exec (.barrierFeedbackChange ln .down) s = .next ((s.withLane ln { l with
        feedback := .down, travel := none, state := .present,
        exitRead := if 4 ≤ ln.val ∧ l.closeDeferred = false then
            (if l.exitReadSetting = 0 then none else some (l.exitReadSetting * 1000))
          else l.exitRead }).reported []))

/-- An admission that is not taken up is withdrawn (R102), when the arming loop clears in OPENING or the dwell timer
expires: the car found ENTERING is removed and its screen's admitted count falls by 1, the ticket leaves the used-ticket
set whether or not the car was found, the barrier is commanded DOWN and WITHDRAWN is reported. So is an exit (R109): a
car still LEAVING goes back ON_FIELD with its check-in limit, and an anonymous exit changes no car. The lane then goes
by its arming loop. The other lane timers (R92, R105, R108): the travel timer's expiry reports a barrier not at its
command, the stall timer's takes PASSING to STALLED with the car of a pending admission reported, the exit read timer's
opens PRESENT for an anonymous exit. A timer that is not running changes nothing. In OPENING each change of the arming
detector that does not clear it, OCCUPIED to FAULT included, loads the dwell timer afresh (R101). That the detector's
report stands ahead of the lane's is the model's choice (log entry 18), as is that a withdrawal leaves a capacity above
the open bays as it is (log entry 57). -/
def Obligations.LaneTimersExpire : Prop :=
  ∀ (s : State) (ln : LaneId) (l : Lane), s.settled → s.lanes[ln] = l →
    (∀ (c : Instr) (cause : WithdrawCause) (y : Yard) (ok moved : List Report) (number ticket : Option Nat),
      l.state = .opening → l.barrierLoop = .clear → s.yard.store.undamaged = true → s.yard.store.canonical = true →
      ((c = .armingLoopChange ln .clear ∧ l.arming ≠ .clear ∧ cause = .backout ∧
          ok = (if l.arming = .fault then [.detectorOk ln .arming .clear] else [])) ∨
        (c = .dwellExpiry ln ∧ l.dwell.isSome = true ∧ cause = .dwell ∧ ok = [])) →
      ((∃ n k i j sc car e, l.pending = .admission n k sc ∧ s.yard.findCar n = some (i, car) ∧ car.state = .entering ∧
          s.yard.findTicket k = some (j, e) ∧ moved = [] ∧ number = some n ∧ ticket = some k ∧ y = { s.yard with
            admittedCount := s.yard.admittedCount.set sc (s.yard.admittedCount[sc] - 1)
            store := { s.yard.store with
              cars := Tab.put Slot.blank s.yard.store.cars i (s.yard.carSlot i).release
              tickets := Tab.put Slot.blank s.yard.store.tickets j (s.yard.ticketSlot j).release } }) ∨
        (∃ n k j sc e, l.pending = .admission n k sc ∧ s.yard.findCar n = none ∧ s.yard.findTicket k = some (j, e) ∧
          moved = [] ∧ number = some n ∧ ticket = some k ∧ y = { s.yard with store := { s.yard.store with
            tickets := Tab.put Slot.blank s.yard.store.tickets j (s.yard.ticketSlot j).release } }) ∨
        (∃ n i car, l.pending = .exit n ∧ s.yard.findCar n = some (i, car) ∧ car.state = .leaving ∧
          moved = [.carState n .leaving .onField .exitWithdrawn] ∧ number = some n ∧ ticket = none ∧ y = { s.yard with
            limits := Tab.put none s.yard.limits n
              (if s.yard.checkinSetting = 0 then none else some (s.yard.checkinSetting * 60000))
            store := { s.yard.store with
              cars := Tab.put Slot.blank s.yard.store.cars i
                ((s.yard.carSlot i).write { car with state := .onField }) } }) ∨
        (∃ n, l.pending = .exit n ∧ s.yard.findCar n = none ∧ moved = [] ∧ number = some n ∧ ticket = none ∧
          y = s.yard) ∨
        (l.pending = .anonymous ∧ moved = [] ∧ number = none ∧ ticket = none ∧ y = s.yard)) →
      ∃ (t : State) (reports : List Report), exec c s = .next t ∧ t.yard = y ∧
        (t.lanes[ln]).state = (if c = .dwellExpiry ln ∧ l.arming ≠ .clear then .present
          else if l.closeDeferred then .closed else .empty) ∧
        (t.lanes[ln]).command = .down ∧ (t.lanes[ln]).pending = .absent ∧ (t.lanes[ln]).dwell = none ∧
        (t.lanes[ln]).counts = { l.counts with withdrawals := satInc l.counts.withdrawals } ∧
        t.link = s.link.after (ok ++ moved ++ .withdrawn ln number ticket cause :: reports) ∧ s.apartFromLane ln t) ∧
    (∀ d ∈ [Detector.occupied, .fault], l.state = .opening → l.arming ≠ d →
      exec (.armingLoopChange ln d) s = .next ((s.withLane ln { l with
        arming := d, dwell := if l.dwellSetting = 0 then none else some (l.dwellSetting * 1000) }).reported
        (if d = .fault then [.detectorFault ln .arming]
         else if l.arming = .fault then [.detectorOk ln .arming d] else []))) ∧
    (l.travel.isSome = true → exec (.barrierTravelExpiry ln) s = .next ((s.withLane ln { l with travel := none }).reported
      (if (l.command = .up ∧ l.feedback = .up) ∨ (l.command = .down ∧ l.feedback = .down) then []
       else [.barrierFault ln l.command l.feedback]))) ∧
    (l.state = .passing → l.stall.isSome = true → exec (.stallTimerExpiry ln) s =
      .next ((s.withLane ln { l with state := .stalled, stall := none }).reported [.laneStall ln (match l.pending with
        | .admission n _ _ => some n
        | .exit _ => none
        | .anonymous => none
        | .absent => none)])) ∧
    (l.state = .present → l.exitRead.isSome = true → exec (.exitReadExpiry ln) s = .next ((s.withLane ln { l with
      state := .opening, pending := .anonymous, exitRead := none, command := .up, answer := some .go,
      travel := if l.command = .up then l.travel else some 10000,
      dwell := if l.dwellSetting = 0 then none else some (l.dwellSetting * 1000) }).reported [])) ∧
    (l.dwell = none → exec (.dwellExpiry ln) s = .next (s.reported [])) ∧
    (l.travel = none → exec (.barrierTravelExpiry ln) s = .next (s.reported [])) ∧
    (l.stall = none → exec (.stallTimerExpiry ln) s = .next (s.reported [])) ∧
    (l.exitRead = none → exec (.exitReadExpiry ln) s = .next (s.reported []))

/-- LANE OPEN in RUN takes a CLOSED lane into service by its loops, an exit lane opened to PRESENT with its exit read
timer (R95, R107), and clears a deferred close elsewhere; LANE CLOSE closes an EMPTY lane at once, leaves a CLOSED one,
and defers in any other state (R106); LANE SET clamps its settings (R113). That an exit read setting sent for an entry
lane is disregarded, that an exit lane's request without one is malformed, and the bytes of a CLAMPED reply, which
carries every setting, are the model's choice (log entries 14 and 15). -/
def Obligations.LaneRequestsTaken : Prop :=
  ∀ (s : State) (tag : Nat) (ln : LaneId) (l : Lane), s.ready → s.lanes[ln] = l →
    (s.link.part = .run → l.state = .closed → l.barrierLoop = .clear → l.arming = .clear → l.closeDeferred = false →
      exec (.laneOpen tag ln.val) s = .next ((s.withLane ln { l with state := .empty }).answered 0x17 tag Reply.ok [])) ∧
    (s.link.part = .run → l.state = .closed → l.barrierLoop = .clear → l.arming ≠ .clear →
      exec (.laneOpen tag ln.val) s = .next ((s.withLane ln { l with
        state := .present
        exitRead := if 4 ≤ ln.val ∧ l.closeDeferred = false then
            (if l.exitReadSetting = 0 then none else some (l.exitReadSetting * 1000))
          else l.exitRead }).answered 0x17 tag Reply.ok [])) ∧
    (s.link.part = .run → l.state = .closed → l.barrierLoop ≠ .clear → exec (.laneOpen tag ln.val) s =
      .next ((s.withLane ln { l with
        state := .passing, dwell := none, exitRead := none,
        stall := if l.stallSetting = 0 then none else some (l.stallSetting * 1000) }).answered 0x17 tag Reply.ok [])) ∧
    (s.link.part = .run → l.state ≠ .closed → exec (.laneOpen tag ln.val) s =
      .next ((s.withLane ln { l with closeDeferred := false }).answered 0x17 tag Reply.ok [])) ∧
    (s.link.part = .setup → exec (.laneOpen tag ln.val) s = .next (s.answered 0x17 tag (Reply.refuse .state) [])) ∧
    (l.state = .closed → exec (.laneClose tag ln.val) s = .next (s.answered 0x18 tag Reply.ok [])) ∧
    (l.state = .empty → exec (.laneClose tag ln.val) s =
      .next ((s.withLane ln { l with state := .closed, closeDeferred := false }).answered 0x18 tag Reply.ok
        [.laneClosed ln])) ∧
    (l.state ∈ [LaneState.opening, .passing, .closing, .stalled] → exec (.laneClose tag ln.val) s =
      .next ((s.withLane ln { l with closeDeferred := true }).answered 0x18 tag
        { result := .ok, indication := .deferred, fields := [] } [])) ∧
    (l.state = .present → exec (.laneClose tag ln.val) s =
      .next ((s.withLane ln { l with closeDeferred := true, exitRead := none }).answered 0x18 tag
        { result := .ok, indication := .deferred, fields := [] } [])) ∧
    (∀ dwell stall e d t x, d = (if dwell = 0 then 0 else max 5 (min dwell 120)) →
      t = (if stall = 0 then 0 else max 30 (min stall 600)) → x = (if e = 0 then 0 else max 2 (min e 60)) →
      (ln.val < 4 → ∀ sent : Option Nat, exec (.laneSet tag ln.val dwell stall sent) s =
        .next ((s.withLane ln { l with dwellSetting := d, stallSetting := t }).answered 0x19 tag
          (if d = dwell ∧ t = stall then Reply.ok
           else { result := .clamped, indication := .none, fields := [.raw (u8 d ++ u16 t ++ [0x00#8])] }) [])) ∧
      (4 ≤ ln.val → exec (.laneSet tag ln.val dwell stall none) s =
        .next (s.answered 0x19 tag (Reply.refuse .unknown) [])) ∧
      (4 ≤ ln.val → exec (.laneSet tag ln.val dwell stall (some e)) s =
        .next ((s.withLane ln { l with dwellSetting := d, stallSetting := t, exitReadSetting := x }).answered 0x19 tag
          (if d = dwell ∧ t = stall ∧ x = e then Reply.ok
           else { result := .clamped, indication := .none, fields := [.raw (u8 d ++ u16 t ++ 0x01#8 :: u8 x)] }) [])))

/-! ## The Car Table and the field -/

/-- The field's settings. SITE PLAN (R121, R122, R127), with no record damaged: every bay of the screen is open exactly
where the plan has it open and its slot is not out of use; a bay that was open and stays open keeps its record, and one
newly open is empty with its speaker OFF. The occupant of a bay that closes is unbound: it is back ON_FIELD with its
check-in limit, reported BAY_CLOSED. The capacity is lowered to the open bays but not below the admitted count, with
CAPACITY_CHANGED where that changes it, and the reply names the bays left closed. CAPACITY SET (R122) sets its value
through three steps and is CLAMPED where any step changes it; CT SET (R130) clamps its value. That a bay is carried open
as 0 and closed as 1 is the model's choice (log entry 9), as is that the bays are set, and those left closed named, in
rising order (log entry 54). -/
def Obligations.FieldSettings : Prop :=
  ∀ (s : State) (tag : Nat) (sc : ScreenId), s.ready →
    (∀ plan : List Bool, plan.length = 256 → s.canonical = true → s.yard.store.undamaged = true →
      ∃ t, exec (.sitePlan tag sc.val (plan.map fun b => if b then 0 else 1)) s = .next t ∧
        (∀ k b, k < 256 → b = sc.val * 256 + k → t.yard.bay? b =
          (if plan.getD k false && !(s.yard.baySlot b).isOut then
             some ((s.yard.bay? b).getD { occupant := none, speaker := false })
           else none)) ∧
        (∀ b, b / 256 ≠ sc.val → t.yard.baySlot b = s.yard.baySlot b) ∧
        t.yard.capacity = s.yard.capacity.set sc
          (min s.yard.capacity[sc] (max (t.yard.openBays sc) s.yard.admittedCount[sc])) ∧
        t.yard.admittedCount = s.yard.admittedCount ∧ t.screens = s.screens ∧ t.lanes = s.lanes ∧
        ∃ pre post : List Report, t.link = (s.link.addPlace (.request 0x1C tag { result := .ok, indication := .none, fields :=
          [.raw (u16 (t.yard.openBays sc) ++ u16 t.yard.capacity[sc]),
            .list 2 (((fieldBays sc).filter fun b =>
              plan.getD (b % 256) false && (s.yard.baySlot b).isOut).map fun b => u16 b)] })).after
          (pre ++ (if t.yard.capacity[sc] < s.yard.capacity[sc] then
            [.capacityChanged sc s.yard.capacity[sc] t.yard.capacity[sc]] else []) ++ post) ∧
          ∀ k b br n car, k < 256 → b = sc.val * 256 + k → plan.getD k false = false → s.yard.bay? b = some br →
            br.occupant = some n → s.yard.car? n = some car →
            t.yard.car? n = some { car with bay := none, state := .onField } ∧
            Tab.get none t.yard.limits n =
              (if s.yard.checkinSetting = 0 then none else some (s.yard.checkinSetting * 60000)) ∧
            .carState n .parked .onField .bayClosed ∈ pre) ∧
    (∀ c n, n = max (min (min c 256) (s.yard.openBays sc)) s.yard.admittedCount[sc] →
      exec (.capacitySet tag sc.val c) s =
        .next (({ s with yard := { s.yard with capacity := s.yard.capacity.set sc n } } : State).answered 0x1D tag
          (if 256 < c ∨ s.yard.openBays sc < min c 256 ∨
              min (min c 256) (s.yard.openBays sc) < s.yard.admittedCount[sc] then
             { result := .clamped, indication := .none, fields := [.raw (u16 n)] }
           else Reply.ok) [])) ∧
    (∀ c n, n = (if c = 0 then 0 else max 5 (min c 120)) →
      exec (.ctSet tag c) s = .next (({ s with yard := { s.yard with checkinSetting := n } } : State).answered 0x1E tag
        (if n = c then Reply.ok else { result := .clamped, indication := .none, fields := [.raw (u8 n)] }) []))

/-- A car whose check-in limit expires on the field is reported UNCHECKED once (R130). CAR REMOVE in RUN takes a car out
of the table (R131, R132): its slot is freed, its screen's admitted count falls by 1, its limit stops and DEPARTED is
reported; a bay it was PARKED in is left empty with its speaker OFF, its lamp put out and a speaker that was ON sent OFF
(R127). Its open orders are settled with it (R131, R155):
one TAKEN keeps its runner and has its CAR_GONE flag set, one no station has started is cancelled, and any other is
voided; of every order cancelled or voided the PENDING units are given back and the others lost, item by item (R152,
R172), ORDER_VOIDED counting the units of the items in service
alone (log entry 22). A car that is not in the table is NO_SUCH, and in SETUP the request is refused STATE. That DEPARTED
is the last report, the speaker of the bay being placed before the orders are handed on, is the model's choice (log entry
54), and so is that a capacity above the open bays stays as it is (log entry 57). -/
def Obligations.CarsLeave : Prop :=
  ∀ (s : State) (tag n : Nat),
    (s.settled → Tab.get none s.yard.limits n = none → exec (.checkinLimitExpiry n) s = .next (s.reported [])) ∧
    (s.ready → s.link.part = .setup → exec (.carRemove tag n) s = .next (s.answered 0x1F tag (Reply.refuse .state) [])) ∧
    (s.ready → s.link.part = .run → s.yard.findCar n = none →
      exec (.carRemove tag n) s = .next (s.answered 0x1F tag (Reply.refuse .noSuch) [])) ∧
    (s.canonical = true → s.yard.store.undamaged = true → ∀ (i : Nat) (c : Car), s.yard.findCar n = some (i, c) →
      (s.settled → (Tab.get none s.yard.limits n).isSome = true → c.state = .onField → c.unchecked = false →
        exec (.checkinLimitExpiry n) s = .next (({ s with yard := { s.yard with
          limits := Tab.put none s.yard.limits n none
          store := { s.yard.store with
            cars := Tab.put Slot.blank s.yard.store.cars i
              ((s.yard.carSlot i).write { c with unchecked := true }) } } } : State).reported
          [.unchecked n c.screen c.entryMinute])) ∧
      (s.settled → (Tab.get none s.yard.limits n).isSome = true → (c.state ≠ .onField ∨ c.unchecked = true) →
        exec (.checkinLimitExpiry n) s = .next (({ s with yard := { s.yard with
          limits := Tab.put none s.yard.limits n none } } : State).reported [])) ∧
      (s.ready → s.link.part = .run → c.state ≠ .parked → c.orders = [] →
        exec (.carRemove tag n) s = .next (({ s with yard := { s.yard with
          limits := Tab.put none s.yard.limits n none
          admittedCount := s.yard.admittedCount.set c.screen (s.yard.admittedCount[c.screen] - 1)
          store := { s.yard.store with
            cars := Tab.put Slot.blank s.yard.store.cars i (s.yard.carSlot i).release } } } : State).answered
          0x1F tag Reply.ok [.departed n (some c.ticket) (some c.screen) .host])) ∧
      (s.ready → s.link.part = .run → c.state = .parked → c.orders = [] → ∀ (b : Nat) (br : Bay), c.bay = some b →
        s.yard.bay? b = some br → ∃ t, exec (.carRemove tag n) s = .next t ∧
          (t.yard.carSlot i).record? = none ∧ t.yard.bay? b = some { occupant := none, speaker := false } ∧
          Tab.get none t.yard.limits n = none ∧
          t.yard.admittedCount = s.yard.admittedCount.set c.screen (s.yard.admittedCount[c.screen] - 1) ∧
          t.link.replies = s.link.replies ++ [.request 0x1F tag Reply.ok] ∧
          t.screens = s.screens ∧ t.sound = s.sound ∧ t.lanes = s.lanes) ∧
      (s.ready → s.link.part = .run → ∃ (t : State) (reports : List Report), exec (.carRemove tag n) s = .next t ∧
        (t.yard.carSlot i).record? = none ∧ Tab.get none t.yard.limits n = none ∧
        t.yard.admittedCount = s.yard.admittedCount.set c.screen (s.yard.admittedCount[c.screen] - 1) ∧
        t.link = (s.link.addPlace (.request 0x1F tag Reply.ok)).after
          (reports ++ [.departed n (some c.ticket) (some c.screen) .host]) ∧
        (∀ k ∈ c.orders, ∀ j o, s.yard.findOrder k = some (j, o) →
          (o.state = .taken → t.yard.order? k = some { o with carGone := true }) ∧
          (o.state ≠ .taken → (t.yard.orderSlot j).record? = none ∧
            (∀ st : StationId, ∀ q ∈ t.yard.queues[st], q.order ≠ k) ∧
            (∀ sc : ScreenId, ∀ e ∈ t.yard.held[sc], e.order ≠ k) ∧ (∀ e ∈ t.yard.readyList, e.order ≠ k) ∧
            (if o.state = .held ∨ o.state = .queued ∧ ∀ l ∈ o.lines, l.state = .pending then
               .orderCancelled k o.car o.state .departed ∈ reports
             else .orderVoided k o.car o.state .departed (s.yard.unitsOf o true) (s.yard.unitsOf o false) ∈ reports))) ∧
        (∀ k j o, s.yard.findOrder k = some (j, o) → k ∉ c.orders → t.yard.order? k = some o) ∧
        (∀ gone, gone = settledAtDeparture (inUse s.yard.store.orders) c.orders →
          ∀ k, (s.yard.item? k = none → t.yard.item? k = none) ∧
            (∀ m, s.yard.item? k = some m → (∀ o ∈ gone, ∀ l ∈ o.lines, l.item ≠ k) → t.yard.item? k = some m) ∧
            ∀ m, s.yard.item? k = some m → m.balanced → t.yard.item? k =
              some (gone.foldl (fun m o => m.gaveBack (o.unitsOn k true) (o.unitsOn k false)) m)) ∧
        (∀ b br, s.yard.bay? b = some br → (c.state = .parked → c.bay ≠ some b) → t.yard.bay? b = some br) ∧
        (∀ b br, c.state = .parked → c.bay = some b → s.yard.bay? b = some br →
          t.yard.bay? b = some { occupant := none, speaker := false } ∧
          ((t.yard.loops[bayLoop b]).overflow = true ∨ t.yard.sends .lamps b 0x00) ∧
          (br.speaker = true → t.yard.spkMarked b = true ∨ t.yard.sends .speakers b 0)) ∧
        t.yard.runners = s.yard.runners ∧ t.screens = s.screens ∧ t.sound = s.sound ∧ t.lanes = s.lanes))

/-- A check-in (R119, R125, R126). In RUN, a car of the field, ON_FIELD or PARKED, that keys a valid code, its admission
code among them, at an open bay of its own screen is bound to it: the bay holds the car with the wished speaker state,
the car is PARKED there with its limit stopped, a car displaced from the bay goes back ON_FIELD, and the bay it left is
empty with its speaker OFF; the bay's lamp is READY for a car with an order on the ready list and ACCEPTED otherwise,
and CHECKIN is reported last, with the bay it left and the car it displaced; that the marked speakers are placed before it,
ahead of the lamp, is the model's choice (log entry 54). The first failing check refuses it: STATE
in SETUP, BAD_CODE for a code that is not valid, NO_SUCH for a car not in the table or not of the field, WRONG_FIELD for
a bay of another screen, and CLOSED. The refusal is then shown on the bay's lamp and reported, in this order of their
reports by the model's choice (log entry 18), and nothing in the store changes. -/
def Obligations.CheckinBinds : Prop :=
  ∀ (y : Yard) (site : Site) (bay : Nat) (wish : Bool), y.store.canonical = true → Tab.wf none y.limits = true →
    y.store.undamaged = true →
    (∀ n, 1 ≤ n → n ≤ 9999 → ∀ code, code = 100 * n + (98 - 100 * n % 97) → code / 100 = n ∧ code % 97 = 1) ∧
    (∀ (n code : Nat) (c : Car) (b : Bay), n = code / 100 → code % 97 = 1 → 1 ≤ n → n ≤ 9999 → site.run = true →
      y.car? n = some c → c.state ∈ [CarState.onField, .parked] → c.screen = bayLoop bay → y.bay? bay = some b →
      ∀ z, z = y.checkin site bay code wish →
      (∃ reports, z.raised = y.raised ++ reports ++ [.checkin n bay
        (if c.state = .parked ∧ c.bay ≠ some bay then c.bay else none)
        (if b.occupant = some n then none else b.occupant) wish]) ∧
      ((z.loops[bayLoop bay]).overflow = true ∨
        z.sends .lamps bay (if y.readyList.any fun e => e.car == n then 0x02 else 0x01)) ∧
      z.bay? bay = some { occupant := some n, speaker := wish } ∧
      z.car? n = some { c with bay := some bay, state := .parked, checkin := some site.minute, wired := wish } ∧
      Tab.get none z.limits n = none ∧
      (∀ o co, b.occupant = some o → o ≠ n → y.car? o = some co →
        z.car? o = some { co with bay := none, state := .onField }) ∧
      (∀ old, c.state = .parked → c.bay = some old → old ≠ bay → (y.bay? old).isSome = true →
        z.bay? old = some { occupant := none, speaker := false }) ∧
      (∀ k, k ≠ bay → (c.state = .parked → c.bay ≠ some k) → z.bay? k = y.bay? k)) ∧
    (∀ (code n : Nat) (refusedWith : Result → Prop), n = code / 100 →
      (∀ why, refusedWith why ↔ ∀ z, z = y.checkin site bay code wish →
        z.store = y.store ∧ z.limits = y.limits ∧ z.spkMarks = y.spkMarks ∧
        ((z.loops[bayLoop bay]).overflow = true ∨ z.sends .lamps bay why.lamp) ∧
        ∃ reports, z.raised = y.raised ++ reports ++ [.checkinRefused bay code why]) →
      (site.run = false → refusedWith .state) ∧
      (site.run = true → (n = 0 ∨ 9999 < n ∨ code % 97 ≠ 1) → refusedWith .badCode) ∧
      (site.run = true → 1 ≤ n → n ≤ 9999 → code % 97 = 1 →
        ((∀ c, y.car? n = some c → c.state ∉ [CarState.onField, .parked]) → refusedWith .noSuch) ∧
        ∀ c, y.car? n = some c → c.state ∈ [CarState.onField, .parked] →
          (c.screen ≠ bayLoop bay → refusedWith .wrongField) ∧
          (c.screen = bayLoop bay → y.bay? bay = none → refusedWith .closed)))

/-! ## Menu, stock and orders -/

/-- The menu and its stock, on an item whose record is not damaged (R137 to R141). MENU SET defines an undefined item
with tallies at 0; in SETUP it redefines one, with its tallies kept where the stock mode stays; in RUN it sets the price
and the available flag, and is refused STATE with another station or stock mode. RESTOCK adds to loaded and remaining of
a FINITE item within 65,535, with MENU_STOCK where remaining rises from 0; STOCK WASTE moves from remaining to waste.
Both are refused STATE for an UNLIMITED item and NO_SUCH for an undefined one. While the item's slot is out of use,
quarantined or under test, MENU SET is refused STORE_ERROR and both others NO_SUCH (R195). -/
def Obligations.MenuAndStock : Prop :=
  ∀ (s : State) (tag i : Nat) (sl : Slot MenuItem), s.ready → i ≤ 63 → s.yard.menuSlot i = sl → sl.badFirst = false →
    sl.badSecond = false → ∀ w : MenuItem → State, (∀ m, w m = { s with yard := { s.yard with
      store := { s.yard.store with menu := Tab.put Slot.blank s.yard.store.menu i { sl with state := .inUse m } } } }) →
    (∀ (st : StationId) (price p : Nat) (a : Bool) (md : StockMode) (c : Instr) (ans : Reply) (new : MenuItem),
      p = min price 9999 →
      c = .menuSet tag i st.val price (if a then 1 else 0) md.ctorIdx →
      ans = (if price ≤ 9999 then Reply.ok else { result := .clamped, indication := .none, fields := [.raw (u16 p)] }) →
      new = { station := st, price := p, available := a, mode := md, loaded := 0, remaining := 0, pending := 0, sold := 0,
              waste := 0 } →
      (sl.state = .free → exec c s = .next ((w new).answered 0x23 tag ans [])) ∧
      (sl.isOut = true → exec c s = .next (s.answered 0x23 tag (Reply.refuse .storeError) [])) ∧
      (∀ m, sl.state = .inUse m → s.link.part = .setup → m.mode = md → exec c s =
        .next ((w { m with station := st, price := p, available := a }).answered 0x23 tag ans [])) ∧
      (∀ m, sl.state = .inUse m → s.link.part = .setup → m.mode ≠ md → exec c s =
        .next ((w new).answered 0x23 tag ans [])) ∧
      (∀ m, sl.state = .inUse m → s.link.part = .run → m.station = st → m.mode = md → exec c s =
        .next ((w { m with price := p, available := a }).answered 0x23 tag ans [])) ∧
      (∀ m, sl.state = .inUse m → s.link.part = .run → ¬(m.station = st ∧ m.mode = md) → exec c s =
        .next (s.answered 0x23 tag (Reply.refuse .state) []))) ∧
    (∀ qty m k m', 1 ≤ qty → qty ≤ 65535 → sl.state = .inUse m → m.mode = .finite → k = min qty (65535 - m.loaded) →
      m' = { m with loaded := m.loaded + k, remaining := m.remaining + k } →
      exec (.restock tag i qty) s = .next ((w m').answered 0x24 tag
        (if qty ≤ k then Reply.ok else { result := .clamped, indication := .none, fields := [.raw (u16 k)] })
        (if m.remaining = 0 ∧ 0 < k then [.menuStock i m'.loaded m'.remaining m.pending m.sold m.waste] else []))) ∧
    (∀ qty m k, 1 ≤ qty → qty ≤ 65535 → sl.state = .inUse m → m.mode = .finite → k = min qty m.remaining →
      exec (.stockWaste tag i qty) s =
        .next ((w { m with remaining := m.remaining - k, waste := m.waste + k }).answered 0x25 tag
          (if qty ≤ k then Reply.ok else { result := .clamped, indication := .none, fields := [.raw (u16 k)] }) [])) ∧
    (∀ qty, 1 ≤ qty → qty ≤ 65535 → ∀ e, ((∃ m, sl.state = .inUse m ∧ m.mode = .unlimited) ∧ e = Result.state ∨
        (sl.state = .free ∨ sl.isOut = true) ∧ e = .noSuch) →
      exec (.restock tag i qty) s = .next (s.answered 0x24 tag (Reply.refuse e) []) ∧
      exec (.stockWaste tag i qty) s = .next (s.answered 0x25 tag (Reply.refuse e) []))

/-- ORDER ENTER for the car PARKED in a bay (R143 to R149). With ordering open, fewer than 4 open orders, every item on
sale with stock and no station loaded past 128, it is accepted whole: the order takes the lowest free slot under the
next order number, its units move from remaining to pending, the car lists it, and it is HELD with its stations
reserved, or QUEUED with one reference per line. Otherwise the first failing check refuses it and nothing changes: STATE
in SETUP, NOT_PARKED for a closed or empty bay and for an occupant not PARKED, CLOSED, LIMIT, NO_SUCH and SOLD_OUT for
the first item in line order that is not on sale or falls short of what all the lines ask of it, and FULL for a station
past 128 or no free slot. An ORDER record from a post (R148) goes through the same intake: it is judged and entered
alike, and differs in the source that ORDER_IN names. The next order number (R143) is the first after the last one
issued, from 9,999 on to 1, that no order in the table carries. -/
def Obligations.OrderEnterTaken : Prop :=
  (∀ (y : Yard) (used : Nat → Prop) (after : Nat → Nat) (d : Nat), y.lastOrder ≤ 9999 → d < 9999 →
    (∀ n, used n ↔ ∃ q ∈ inUse y.store.orders, q.2.number = n) →
    (∀ k, after k = (y.lastOrder + k) % 9999 + 1) → ¬used (after d) → (∀ k, k < d → used (after k)) → y.nextOrder = after d) ∧
  (∀ (y : Yard) (site : Site) (bay : Nat) (md : OrderMode) (lines : List WireLine),
    (y.intake site bay md lines .post).1 = (y.intake site bay md lines .host).1 ∧
    { (y.intake site bay md lines .post).2 with raised := [] } =
      { (y.intake site bay md lines .host).2 with raised := [] }) ∧
  ∀ (s : State) (tag bay : Nat) (md : OrderMode) (lines : List WireLine) (x : Instr), s.ready → s.canonical = true →
    s.yard.store.undamaged = true → bay ≤ 1023 → 1 ≤ lines.length → lines.length ≤ 8 →
    (∀ l ∈ lines, l.item ≤ 63 ∧ 1 ≤ l.qty ∧ l.qty ≤ 9) → x = .orderEnter tag bay md.ctorIdx lines →
    (s.link.part = .setup → exec x s = .next (s.answered 0x26 tag (Reply.refuse .state) [])) ∧
    (s.link.part = .run → s.yard.bay? bay = none →
      exec x s = .next (s.answered 0x26 tag (Reply.refuse .notParked) [])) ∧
    (s.link.part = .run → ∀ b : Bay, s.yard.bay? bay = some b →
      (∀ n c, b.occupant = some n → s.yard.car? n = some c → c.state ≠ .parked) →
      exec x s = .next (s.answered 0x26 tag (Reply.refuse .notParked) [])) ∧
    (s.link.part = .run → ∀ (b : Bay) (n : Nat) (c : Car), s.yard.bay? bay = some b → b.occupant = some n →
      s.yard.car? n = some c → c.state = .parked →
      ((s.screens[bayLoop bay]).orderingOpen = false →
        exec x s = .next (s.answered 0x26 tag (Reply.refuse .closed) [])) ∧
      ((s.screens[bayLoop bay]).orderingOpen = true → 4 ≤ c.orders.length →
        exec x s = .next (s.answered 0x26 tag (Reply.refuse .limit) [])) ∧
      ((s.screens[bayLoop bay]).orderingOpen = true → c.orders.length < 4 →
        (∀ l pre post, lines = pre ++ l :: post → (∀ k ∈ pre, ∃ m, s.yard.item? k.item = some m ∧ m.available = true) →
          (∀ m, s.yard.item? l.item = some m → m.available = false) → exec x s = .next (s.answered 0x26 tag
          { result := .noSuch, indication := .none, fields := [.raw (u8 l.item)] } [])) ∧
        (∀ (ms : List MenuItem) (asked : Nat → Nat), lines.map (fun l => s.yard.item? l.item) = ms.map some →
          (∀ m ∈ ms, m.available = true) →
          (∀ i, asked i = ((lines.filter fun l => l.item == i).map WireLine.qty).sum) →
          (∀ l m pre post, lines = pre ++ l :: post →
            (∀ k ∈ pre, ∀ m, s.yard.item? k.item = some m → m.mode = .finite → asked k.item ≤ m.remaining) →
            s.yard.item? l.item = some m → m.mode = .finite → m.remaining < asked l.item →
            exec x s = .next (s.answered 0x26 tag
              { result := .soldOut, indication := .none, fields := [.raw (u8 l.item)] } [])) ∧
          (∀ sts : List StationId, sts = ms.map MenuItem.station →
            (∀ l ∈ lines, ∀ m, s.yard.item? l.item = some m → m.mode = .finite → asked l.item ≤ m.remaining) →
            ((∃ st : StationId, 128 < s.yard.load st + sts.count st) ∨ lowestFree s.yard.store.orders 256 = none) →
            exec x s = .next (s.answered 0x26 tag (Reply.refuse .full) [])) ∧
          (∀ (slot n' : Nat) (first : OrderState) (fresh : List Line) (sts : List StationId) (total : Nat) (r : Screen),
            (∀ l ∈ lines, ∀ m, s.yard.item? l.item = some m → m.mode = .finite → asked l.item ≤ m.remaining) →
            sts = ms.map MenuItem.station →
            (∀ st : StationId, s.yard.load st + sts.count st ≤ 128) →
            lowestFree s.yard.store.orders 256 = some slot → n' = s.yard.nextOrder →
            r = s.screens[c.screen] →
            first = (if md = .now ∨ r.breakWindow = true ∨ r.phase ∈ [ShowState.onBreak, .ended, .halted] then .queued
                     else .held) →
            fresh = lines.map (fun l => { item := l.item, qty := l.qty, state := .pending }) →
            total = ((lines.zip ms).map fun e => e.2.price * e.1.qty).sum →
            ∃ (t : State) (reports : List Report), exec x s = .next t ∧
              t.link = (s.link.addPlace (.request 0x26 tag
                (Reply.okWith (u16 n' ++ u32 total ++ u8 first.ctorIdx)))).after reports ∧
              .orderIn n' c.number bay c.screen md first total (lines.map fun l => (l.item, l.qty)) .host ∈ reports ∧
              t.yard.lastOrder = n' ∧
              (t.yard.orderSlot slot).record? = some {
                number := n', car := c.number, screen := c.screen, mode := md, state := first, lines := fresh,
                total := total, accepted := s.link.clock / 60000, readyMinute := none, taker := none,
                carGone := false } ∧
              t.yard.car? n = some { c with orders := c.orders ++ [n'] } ∧
              (∀ l ∈ lines, ∀ m, s.yard.item? l.item = some m → t.yard.item? l.item = some (match m.mode with
                | .finite => { m with
                    remaining := m.remaining - asked l.item, pending := m.pending + asked l.item }
                | .unlimited => { m with pending := min (m.pending + asked l.item) 65535 })) ∧
              (∀ i, asked i = 0 → t.yard.item? i = s.yard.item? i) ∧
              t.yard.held = (if first = .held then s.yard.held.set c.screen
                (s.yard.held[c.screen] ++ [{ order := n', stations := sts }]) else s.yard.held) ∧
              (∀ st : StationId, t.yard.queues[st] = (if first = .held then s.yard.queues[st] else s.yard.queues[st] ++
                ((fresh.zipIdx.zip sts).filter fun e => e.2 = st).map fun e =>
                  { order := n', line := e.1.2, item := e.1.1.item, qty := e.1.1.qty, state := .pending })) ∧
              t.screens = s.screens ∧ t.sound = s.sound ∧ t.lanes = s.lanes))))

/-- ORDER RELEASE in RUN empties the screen's held list, makes its orders QUEUED, has their lines join the tails of
their stations' queues, from the head of the list on and in line order, and reports and answers how many (R151). FORCE
CANCEL in RUN (R152, R154): an order that is not TAKEN leaves the table, every list that names it and its car's
open-order list, the units of its PENDING lines going back to stock, those of lines a station has started to waste, and
the resting lamp is shown where its car is PARKED; a TAKEN order is refused STATE and an unknown one NO_SUCH. That
ORDER_CANCELLED is the first report of that step is the model's choice (log entry 18), as is that a refused CANCEL is
reported after what its lamp reports; a held order that is not in the table is passed over in the number of a release
(log entry 19). In SETUP both are refused STATE. A CANCEL record from a post (R152, R153) cancels an order of the car
PARKED in its bay that no station has started, and shows the resting lamp; the first failing check refuses it: STATE in
SETUP, NOT_PARKED, NO_SUCH for an order not in the table or another car's, IN_MAKING. The refusal is then shown on the
lamp and reported, and the store left as it was. -/
def Obligations.OrdersReleasedAndCancelled : Prop :=
  (∀ (y z : Yard) (site : Site) (bay order : Nat), y.store.undamaged = true → y.store.canonical = true →
    Tab.wf 0 y.rowCounts = true → z = y.postCancel site bay order → ∀ turnedAway : Result → Prop,
    (∀ why, turnedAway why ↔ z.store = y.store ∧ z.held = y.held ∧ z.queues = y.queues ∧ z.readyList = y.readyList ∧
      ((z.loops[bayLoop bay]).overflow = true ∨ z.sends .lamps bay why.lamp) ∧
      ∃ reports, z.raised = y.raised ++ reports ++ [.cancelRefused bay order why]) →
    (site.run = false → turnedAway .state) ∧
    (site.run = true → (∀ b n c, y.bay? bay = some b → b.occupant = some n → y.car? n = some c → c.state ≠ .parked) →
      turnedAway .notParked) ∧
    (site.run = true → ∀ b n c, y.bay? bay = some b → b.occupant = some n → y.car? n = some c → c.state = .parked →
      ((∀ o, y.order? order = some o → o.car ≠ n) → turnedAway .noSuch) ∧
      (∀ i o, y.findOrder order = some (i, o) → o.car = n → ∀ early : Prop,
        (early ↔ o.state = .held ∨ o.state = .queued ∧ ∀ l ∈ o.lines, l.state = .pending) →
        (¬early → turnedAway .inMaking) ∧
        (early → y.orderGone i o z ∧ z.bay? bay = some b ∧ z.runners = y.runners ∧
          z.car? n = some { c with orders := c.orders.filter fun k => k != order } ∧
          ((z.loops[bayLoop bay]).overflow = true ∨ z.sends .lamps bay (z.restingLamp (some n))) ∧
          ∃ reports, z.raised = y.raised ++ .orderCancelled order n o.state .post :: reports)))) ∧
  ∀ (s : State) (tag : Nat), s.ready →
    (∀ sc : ScreenId, s.link.part = .setup →
      exec (.orderRelease tag sc.val) s = .next (s.answered 0x27 tag (Reply.refuse .state) [])) ∧
    (∀ n, s.link.part = .setup → exec (.forceCancel tag n) s = .next (s.answered 0x28 tag (Reply.refuse .state) [])) ∧
    (s.link.part = .run →
      (∀ sc : ScreenId, s.yard.held[sc] = [] →
        exec (.orderRelease tag sc.val) s = .next (s.answered 0x27 tag (Reply.okWith [0#8, 0#8]) [])) ∧
      (∀ n, s.yard.findOrder n = none →
        exec (.forceCancel tag n) s = .next (s.answered 0x28 tag (Reply.refuse .noSuch) [])) ∧
      (s.canonical = true → s.yard.store.undamaged = true →
        (∀ (sc : ScreenId) (n : Nat), s.yard.held[sc] ≠ [] →
          n = ((s.yard.held[sc]).countP fun e => (s.yard.order? e.order).isSome) →
          ∃ t, exec (.orderRelease tag sc.val) s = .next t ∧
          t.yard.held[sc] = [] ∧ (∀ e ∈ s.yard.held[sc], ∀ o, s.yard.order? e.order = some o →
            t.yard.order? e.order = some { o with state := .queued }) ∧
          (∀ k, (∀ e ∈ s.yard.held[sc], e.order ≠ k) → t.yard.order? k = s.yard.order? k) ∧
          (∀ k : ScreenId, k ≠ sc → t.yard.held[k] =
            (s.yard.held[k]).filter fun e => !((s.yard.held[sc]).any fun x => x.order == e.order)) ∧
          (∀ st : StationId, t.yard.queues[st] = s.yard.queues[st] ++ ((s.yard.held[sc]).flatMap fun e =>
            match s.yard.order? e.order with
            | some o => ((o.lines.zipIdx.zip e.stations).filter fun x => decide (x.2 = st)).map fun x =>
                { order := e.order, line := x.1.2, item := x.1.1.item, qty := x.1.1.qty, state := x.1.1.state }
            | none => [])) ∧
          t.link = (s.link.addPlace (.request 0x27 tag (Reply.okWith (u16 n)))).after [.heldReleased sc n] ∧
          t.yard.readyList = s.yard.readyList ∧ t.yard.runners = s.yard.runners ∧
          t.yard.store.cars = s.yard.store.cars ∧ t.yard.store.menu = s.yard.store.menu ∧
          t.screens = s.screens ∧ t.sound = s.sound ∧ t.lanes = s.lanes) ∧
        (∀ n i o, s.yard.findOrder n = some (i, o) →
          (o.state = .taken → exec (.forceCancel tag n) s = .next (s.answered 0x28 tag (Reply.refuse .state) [])) ∧
          (o.state ≠ .taken → ∃ (t : State) (reports : List Report), exec (.forceCancel tag n) s = .next t ∧
            t.link = (s.link.addPlace (.request 0x28 tag Reply.ok)).after
              (.orderCancelled n o.car o.state .host :: reports) ∧
            s.yard.orderGone i o t.yard ∧ t.yard.store.bays = s.yard.store.bays ∧ t.yard.runners = s.yard.runners ∧
            (s.yard.car? o.car = none → t.yard.store.cars = s.yard.store.cars) ∧
            (∀ c, s.yard.car? o.car = some c →
              t.yard.car? o.car = some { c with orders := c.orders.filter fun k => k != n } ∧
              ∀ b, c.state = .parked → c.bay = some b → (t.yard.loops[bayLoop b]).overflow = true ∨
                t.yard.sends .lamps b (t.yard.restingLamp (some o.car))) ∧
            t.screens = s.screens ∧ t.sound = s.sound ∧ t.lanes = s.lanes))))

/-! ## Kitchen stations and runners -/

/-- STATION NEXT in RUN (R162) starts the first PENDING line of the station's queue whose order and car stand: the line
is MAKING in its order and its queue and its units move from pending to sold. With no PENDING line it is refused
NO_SUCH. STATION DONE (R165, R166) finishes a MAKING line, which leaves the queue; the last line of an order makes it
READY at the tail of the ready list, counted in the row of its car's bay. It is refused NO_SUCH for a line not in the
queue and STATE for a PENDING one. An order whose car has gone from the table is settled (R164): cancelled if no station
has started it and voided otherwise, its units settled line by line; a STATION NEXT that meets it then answers as in a
queue without the order, and a STATION DONE answers OK with the indication VOIDED. The units of ORDER_VOIDED are log
entry 22's. That ORDER_READY stands ahead of the reports its lamp causes is the model's choice (log entry 18). -/
def Obligations.KitchenWorks : Prop :=
  ∀ (s : State) (tag : Nat) (st : StationId), s.ready → s.link.part = .run →
    ((∀ q ∈ s.yard.queues[st], q.state ≠ .pending) →
      exec (.stationNext tag st.val) s = .next (s.answered 0x2C tag (Reply.refuse .noSuch) [])) ∧
    (∀ n line, 1 ≤ n → n ≤ 9999 → line ≤ 7 →
      ((∀ q ∈ s.yard.queues[st], ¬(q.order = n ∧ q.line = line)) →
        exec (.stationDone tag st.val n line) s = .next (s.answered 0x2D tag (Reply.refuse .noSuch) [])) ∧
      (∀ q pre post, s.yard.queues[st] = pre ++ q :: post → q.order = n → q.line = line → q.state = .pending →
        (∀ k ∈ pre, ¬(k.order = n ∧ k.line = line)) →
        exec (.stationDone tag st.val n line) s = .next (s.answered 0x2D tag (Reply.refuse .state) []))) ∧
    (s.canonical = true → s.yard.store.undamaged = true → ∀ (q : LineRef) (pre post : List LineRef) (o : Order) (c : Car)
      (bay row : Option Nat), s.yard.queues[st] = pre ++ q :: post → s.yard.order? q.order = some o →
      s.yard.car? o.car = some c → bay = (if c.state = .parked then c.bay else none) → row = bay.map (· / 16) →
      (q.state = .pending → (∀ k ∈ pre, k.state ≠ .pending) → ∃ t, exec (.stationNext tag st.val) s = .next t ∧
        t.yard.queues[st] = ((s.yard.queues[st]).map fun k =>
          if k.order = q.order ∧ k.line = q.line then { k with state := .making } else k) ∧
        (∀ k : StationId, k ≠ st → t.yard.queues[k] = s.yard.queues[k]) ∧
        t.yard.order? q.order = some { o with lines := o.lines.modify q.line fun l => { l with state := .making } } ∧
        (∀ m, s.yard.item? q.item = some m → t.yard.item? q.item = some (match m.mode with
          | .finite => { m with pending := m.pending - min q.qty m.pending, sold := m.sold + min q.qty m.pending }
          | .unlimited => { m with pending := m.pending - q.qty, sold := min (m.sold + q.qty) 65535 })) ∧
        t.link.replies = s.link.replies ++ [.request 0x2C tag (Reply.okWith (u16 q.order ++ u8 q.line ++ u8 q.item ++
          u8 q.qty ++ u16 o.car ++ u8 o.screen ++ u8 o.mode.ctorIdx ++ u16 o.accepted ++
          u8 ((t.yard.queues[st]).countP fun k => decide (k.state = .pending))))] ∧
        t.yard.store.cars = s.yard.store.cars ∧ t.screens = s.screens ∧ t.sound = s.sound ∧ t.lanes = s.lanes) ∧
      (q.state = .making → 1 ≤ q.order → q.order ≤ 9999 → q.line ≤ 7 →
        (∀ k ∈ pre, ¬(k.order = q.order ∧ k.line = q.line)) → ∀ lines ready,
        lines = o.lines.modify q.line (fun l => { l with state := .done }) →
        ready = (lines.all fun l => decide (l.state = .done)) →
        ∃ (t : State) (reports : List Report), exec (.stationDone tag st.val q.order q.line) s = .next t ∧
          t.yard.queues[st] = ((s.yard.queues[st]).filter fun k => !(k.order == q.order && k.line == q.line)) ∧
          t.yard.order? q.order = some (if ready then
            { o with lines := lines, state := .ready, readyMinute := some (s.link.clock / 60000) }
            else { o with lines := lines }) ∧
          t.yard.readyList = s.yard.readyList ++
            (if ready then [{ order := q.order, car := o.car, row := row }] else []) ∧
          (ready = true → ∀ r, row = some r → t.yard.rowCount r = s.yard.rowCount r + 1) ∧
          (ready = false → t.yard.rowCounts = s.yard.rowCounts) ∧
          t.link = (s.link.addPlace (.request 0x2D tag
            { result := .ok, indication := if ready then .ready else .queued, fields := [] })).after (if ready then
              .orderReady q.order o.car bay o.screen (s.link.clock / 60000) (s.yard.readyList.length + 1) :: reports
              else []) ∧
          t.yard.store.cars = s.yard.store.cars ∧ t.yard.store.menu = s.yard.store.menu ∧
          t.screens = s.screens ∧ t.sound = s.sound ∧ t.lanes = s.lanes)) ∧
    (s.canonical = true → s.yard.store.undamaged = true → ∀ (q : LineRef) (pre post : List LineRef) (i : Nat)
      (o : Order) (gone : Report), s.yard.queues[st] = pre ++ q :: post → s.yard.findOrder q.order = some (i, o) →
      s.yard.car? o.car = none →
      gone = (if o.state = .held ∨ o.state = .queued ∧ ∀ l ∈ o.lines, l.state = .pending then
          .orderCancelled q.order o.car o.state .departed
        else .orderVoided q.order o.car o.state .carLost (s.yard.unitsOf o true) (s.yard.unitsOf o false)) →
      (q.state = .pending → (∀ k ∈ pre, k.state ≠ .pending) → ∃ (y : Yard) (w : State) (place : Place)
        (reports : List Report), s.yard.orderGone i o y ∧ y.store.cars = s.yard.store.cars ∧
        y.runners = s.yard.runners ∧ y.loops = s.yard.loops ∧ y.raised = [] ∧
        exec (.stationNext tag st.val) { s with yard := y } = .next w ∧
        w.link = (s.link.addPlace place).after reports ∧ exec (.stationNext tag st.val) s =
          .next { w with link := (s.link.addPlace place).after (gone :: reports) }) ∧
      (q.state ≠ .pending → 1 ≤ q.order → q.order ≤ 9999 → q.line ≤ 7 →
        (∀ k ∈ pre, ¬(k.order = q.order ∧ k.line = q.line)) → ∃ t, exec (.stationDone tag st.val q.order q.line) s =
          .next t ∧ s.yard.orderGone i o t.yard ∧ t.yard.store.cars = s.yard.store.cars ∧
          t.yard.runners = s.yard.runners ∧ t.yard.loops = s.yard.loops ∧
          t.link = (s.link.addPlace (.request 0x2D tag
            { result := .ok, indication := .voided, fields := [] })).after [gone] ∧
          t.screens = s.screens ∧ t.sound = s.sound ∧ t.lanes = s.lanes))

/-- A runner's take. TAKE in RUN from a FREE runner (R178, R179, R181) gives the order at the head of the ready list,
the first of a screen, or a named one: it leaves the list, the count of the row it was counted in falling by 1, is TAKEN
by the runner, the take timer is loaded and ORDER_TAKEN is reported. A HOLDING runner is answered PAUSED, an empty list
NO_SUCH. DELIVERED (R183) settles the held order for good, RETURN (R184) puts it back READY at the head of the list, and
so does the take timer's expiry, which is remembered (R185). An order whose car has gone from the table is voided with
its units settled: by DELIVERED, which still reports the delivery, by RETURN and by the expiry (R186), and by a TAKE
that names it; a TAKE of the list's head or of a screen that meets it voids it and answers as with a list without it
(R180). A named order that is not on the ready list is refused STATE with its state and taker, and an unknown one
NO_SUCH (R179). A DELIVERED or RETURN of another order is judged late: refused with the held order of a HOLDING runner,
and from a FREE one by its last release where that is of this order, and STATE otherwise (R182). RUNNER SET sets the
take limit (R188). That ORDER_VOIDED stands ahead of DELIVERED and of TAKE_EXPIRED in one step is the model's choice
(log entry 18), as are the units ORDER_VOIDED counts (log entry 22). -/
def Obligations.RunnersTakeOrders : Prop :=
  ∀ (s : State) (tag : Nat) (r : RunnerId) (k : Runner), s.settled → s.yard.runners[r] = k →
    (k.timer = none → exec (.takeTimerExpiry r) s = .next (s.reported [])) ∧
    (s.link.roomy → ∀ v n, n = (if v = 0 then 0 else max 1 (min v 60)) → exec (.runnerSet tag v) s =
      .next (({ s with yard := { s.yard with takeLimit := n } } : State).answered 0x33 tag
        (if n = v then Reply.ok else { result := .clamped, indication := .none, fields := [.raw (u8 n)] }) [])) ∧
    (s.link.roomy → s.link.part = .run →
      (∀ n, k.held = some n → ∀ arg, exec (.take tag r.val 0 arg) s = .next (s.answered 0x30 tag
        { result := .paused, indication := .none, fields := [.raw (u16 n)] } [])) ∧
      (k.held = none → s.yard.readyList = [] → ∀ arg,
        exec (.take tag r.val 0 arg) s = .next (s.answered 0x30 tag (Reply.refuse .noSuch) [])) ∧
      (∀ n late, 1 ≤ n → n ≤ 9999 → k.held ≠ some n →
        (k.held = none ∧ (∀ cause, k.last ≠ some (n, cause)) ∧ late = Reply.refuse .state ∨
          k.held = none ∧ k.last = some (n, .expired) ∧ late = Reply.refuse .tooLate ∨
          k.held = none ∧ k.last = some (n, .lost) ∧ late = Reply.refuse .storeError ∨
          (∃ m, k.held = some m ∧ late = { result := .state, indication := .none, fields := [.raw (u16 m)] })) →
        exec (.delivered tag r.val n) s = .next (s.answered 0x31 tag late []) ∧
        exec (.returnOrder tag r.val n) s = .next (s.answered 0x32 tag late []))) ∧
    (s.canonical = true → s.yard.store.undamaged = true → ∀ (n i : Nat) (o : Order) (c : Car) (bay row : Option Nat),
      s.yard.findOrder n = some (i, o) → s.yard.car? o.car = some c →
      bay = (if c.state = .parked then c.bay else none) → row = bay.map (· / 16) →
      (s.link.roomy → s.link.part = .run → k.held = none → ∀ kind arg e pre post,
        s.yard.readyList = pre ++ e :: post → e.order = n →
        (kind = 0 ∧ pre = [] ∨ kind = 1 ∧ arg = n ∧ 1 ≤ n ∧ n ≤ 9999 ∨
          kind = 2 ∧ arg = o.screen.val ∧ ∀ p ∈ pre, ∃ op, s.yard.order? p.order = some op ∧ op.screen ≠ o.screen) →
        ∃ t, exec (.take tag r.val kind arg) s = .next t ∧
          t.yard.readyList = (s.yard.readyList.filter fun e => e.order != n) ∧
          ((∀ p ∈ pre, p.order ≠ n) →
            ∀ w, t.yard.rowCount w = s.yard.rowCount w - (if e.row = some w then 1 else 0)) ∧
          t.yard.order? n = some { o with state := .taken, taker := some r } ∧
          t.yard.runners = s.yard.runners.set r
            { held := some n, timer := if s.yard.takeLimit = 0 then none else some (s.yard.takeLimit * 60000),
              last := none } ∧
          t.link = (s.link.addPlace (.request 0x30 tag (Reply.okWith (u16 n ++ u16 o.car ++ opt u16 bay ++ opt u8 row ++
            u8 o.lines.length ++ (o.lines.map fun l => u8 l.item ++ u8 l.qty).flatten ++ u32 o.total ++
            u16 (o.readyMinute.getD 0))))).after [.orderTaken r n o.car bay] ∧
          t.screens = s.screens ∧ t.sound = s.sound ∧ t.lanes = s.lanes) ∧
      (k.held = some n → o.carGone = false →
        (s.link.roomy → s.link.part = .run → 1 ≤ n → n ≤ 9999 →
          (∃ (t : State) (reports : List Report), exec (.delivered tag r.val n) s = .next t ∧
            (t.yard.orderSlot i).record? = none ∧
            t.yard.car? o.car = some { c with orders := c.orders.filter fun j => j != n } ∧
            t.yard.runners = s.yard.runners.set r { k with held := none, timer := none } ∧
            t.yard.readyList = s.yard.readyList ∧
            t.link = (s.link.addPlace (.request 0x31 tag Reply.ok)).after
              (reports ++ [.delivered r n o.car bay o.total false])) ∧
          (∃ t, exec (.returnOrder tag r.val n) s = .next t ∧
            t.yard.order? n = some { o with state := .ready, taker := none } ∧
            t.yard.readyList = { order := n, car := o.car, row := row } :: s.yard.readyList ∧
            (∀ w, row = some w → t.yard.rowCount w = s.yard.rowCount w + 1) ∧
            t.yard.runners = s.yard.runners.set r { k with held := none, timer := none } ∧
            t.link = (s.link.addPlace (.request 0x32 tag Reply.ok)).after [.orderReturned r n])) ∧
        (k.timer.isSome = true → ∃ t, exec (.takeTimerExpiry r) s = .next t ∧
          t.yard.order? n = some { o with state := .ready, taker := none } ∧
          t.yard.readyList = { order := n, car := o.car, row := row } :: s.yard.readyList ∧
          t.yard.runners = s.yard.runners.set r { held := none, timer := none, last := some (n, .expired) } ∧
          t.link = s.link.after [.takeExpired r n o.car bay false])) ∧
      (s.link.roomy → s.link.part = .run → k.held = none → 1 ≤ n → n ≤ 9999 →
        (∀ e ∈ s.yard.readyList, e.order ≠ n) → exec (.take tag r.val 1 n) s = .next (s.answered 0x30 tag
          { result := .state, indication := .none,
            fields := [.raw (u8 o.state.ctorIdx ++ opt (fun j : RunnerId => u8 j) o.taker)] } []))) ∧
    (s.link.roomy → s.link.part = .run → k.held = none → ∀ n, 1 ≤ n → n ≤ 9999 → s.yard.findOrder n = none →
      exec (.take tag r.val 1 n) s = .next (s.answered 0x30 tag (Reply.refuse .noSuch) [])) ∧
    (s.canonical = true → s.yard.store.undamaged = true → ∀ (n i : Nat) (o : Order) (voided : VoidCause → Report),
      s.yard.findOrder n = some (i, o) → s.yard.car? o.car = none →
      (∀ cause, voided cause = .orderVoided n o.car o.state cause (s.yard.unitsOf o true) (s.yard.unitsOf o false)) →
      (s.link.roomy → s.link.part = .run → k.held = none → 1 ≤ n → n ≤ 9999 → (∃ e ∈ s.yard.readyList, e.order = n) →
        ∃ t, exec (.take tag r.val 1 n) s = .next t ∧ s.yard.orderGone i o t.yard ∧
          t.yard.runners = s.yard.runners ∧ t.yard.store.cars = s.yard.store.cars ∧
          t.link = (s.link.addPlace (.request 0x30 tag
            { result := .noSuch, indication := .voided, fields := [] })).after [voided .carLost]) ∧
      (s.link.roomy → s.link.part = .run → k.held = none → ∀ kind arg e pre post,
        s.yard.readyList = pre ++ e :: post → e.order = n →
        (kind = 0 ∧ pre = [] ∨ kind = 2 ∧ arg = o.screen.val ∧
          ∀ p ∈ pre, ∃ op, s.yard.order? p.order = some op ∧ op.screen ≠ o.screen) →
        ∃ (y : Yard) (w : State) (place : Place) (reports : List Report), s.yard.orderGone i o y ∧
          y.store.cars = s.yard.store.cars ∧ y.runners = s.yard.runners ∧ y.loops = s.yard.loops ∧ y.raised = [] ∧
          exec (.take tag r.val kind arg) { s with yard := y } = .next w ∧
          w.link = (s.link.addPlace place).after reports ∧ exec (.take tag r.val kind arg) s =
            .next { w with link := (s.link.addPlace place).after (voided .carLost :: reports) }) ∧
      (k.held = some n → ∀ cause, cause = (if o.carGone then VoidCause.carGone else .carLost) →
        (s.link.roomy → s.link.part = .run → 1 ≤ n → n ≤ 9999 →
          (∃ t, exec (.delivered tag r.val n) s = .next t ∧ s.yard.orderGone i o t.yard ∧
            t.yard.runners = s.yard.runners.set r { k with held := none, timer := none } ∧
            t.yard.store.cars = s.yard.store.cars ∧
            t.link = (s.link.addPlace (.request 0x31 tag
              { result := .ok, indication := .carGone, fields := [] })).after
                [voided cause, .delivered r n o.car none o.total true]) ∧
          (∃ t, exec (.returnOrder tag r.val n) s = .next t ∧ s.yard.orderGone i o t.yard ∧
            t.yard.runners = s.yard.runners.set r { k with held := none, timer := none } ∧
            t.yard.store.cars = s.yard.store.cars ∧
            t.link = (s.link.addPlace (.request 0x32 tag
              { result := .ok, indication := .voided, fields := [] })).after [voided cause])) ∧
        (k.timer.isSome = true → ∃ t, exec (.takeTimerExpiry r) s = .next t ∧ s.yard.orderGone i o t.yard ∧
          t.yard.runners = s.yard.runners.set r { held := none, timer := none, last := some (n, .expired) } ∧
          t.link = s.link.after [voided cause, .takeExpired r n o.car none true])))

/-! ## The Record Store -/

/-- The slot test (R196 to R198): STORE TEST starts one, is refused BUSY over a running one and STATE for the menu in
RUN; a visit judges the slot at the cursor by its memory, and past the last slot the test ends and is reported. STORE
CLEAR clears the fault latch and count (R199). That a visit is whole in one step and judges by the slot's failing memory
is the model's choice (log entries 2 and 17), as is the item number as the key of STORE_FAULT (log entry 16). A read
that meets wrong parity (R191), of a menu item, a car, a bay or an order, quarantines the slot, latches and counts the
fault and reports it, and the request is refused STORE_ERROR. That BAY QUERY and MENU QUERY are among these requests is
read from R134's CAR QUERY (log entry 21). The owner treats the record as gone, with no other record damaged (R133,
R187, R193, R194). A lost car's bays are emptied with their speakers OFF and their lamps put out, its entries on the
ready list leave their rows, its limit stops, and DEPARTED is reported with cause STORE; its orders and the admitted
count stay. A lost bay is closed, its car back ON_FIELD, its speaker sent OFF and the capacity lowered as R122 has it. A
lost order leaves every list and its car's open-order list, the row counts are counted afresh where it stood on the
ready list, its holder is FREE with TAKE_LOST, and no tally moves. A DELIVERED or a RETURN that meets a damaged car
leaves its runner HOLDING. That what a damaged slot's halves hold is free is log entry 3. -/
def Obligations.StoreTestsAndFaults : Prop :=
  visitLaw .car Yard.carSlot Yard.setCarSlot ∧ visitLaw .bay Yard.baySlot Yard.setBaySlot ∧
  visitLaw .order Yard.orderSlot Yard.setOrderSlot ∧ visitLaw .menu Yard.menuSlot Yard.setMenuSlot ∧
  visitLaw .ticket Yard.ticketSlot Yard.setTicketSlot ∧
  ∀ (s : State) (tag : Nat),
    (s.settled → s.yard.store.test = none → exec .storeTestVisit s = .next (s.reported [])) ∧
    (s.ready → ∀ tb : TableId,
      (s.yard.store.test.isSome = true →
        exec (.storeTest tag tb.ctorIdx) s = .next (s.answered 0x36 tag (Reply.refuse .busy) [])) ∧
      (s.yard.store.test = none → tb = .menu → s.link.part = .run →
        exec (.storeTest tag tb.ctorIdx) s = .next (s.answered 0x36 tag (Reply.refuse .state) [])) ∧
      (s.yard.store.test = none → (tb ≠ .menu ∨ s.link.part = .setup) → exec (.storeTest tag tb.ctorIdx) s =
        .next (({ s with yard := { s.yard with store := { s.yard.store with
          test := some { table := tb, cursor := 0, visited := 0, passed := 0, returned := 0, quarantined := 0 } } } }
          : State).answered 0x36 tag Reply.ok []))) ∧
    (s.ready → exec (.storeClear tag) s = .next (({ s with yard := { s.yard with store := { s.yard.store with
      latch := none, faultCount := 0 } } } : State).answered 0x38 tag Reply.ok [])) ∧
    (s.ready → s.yard.store.waiting = [] → ∀ (i : Nat) (sl : Slot MenuItem) (m : MenuItem) (h : Halves), i ≤ 63 →
      s.yard.menuSlot i = sl → sl.state = .inUse m → (sl.badFirst || sl.badSecond) = true →
      h = (if sl.badFirst && sl.badSecond then .both else if sl.badFirst then .first else .second) →
      ∃ raw, exec (.menuQuery tag i) s = .next (({ s with yard := { s.yard with
        freeIndex := s.yard.freeIndex + 1
        store := { s.yard.store with
          menu := Tab.put Slot.blank s.yard.store.menu i { sl with state := .quarantined }
          latch := some (.menu, i, h), faultCount := min (s.yard.store.faultCount + 1) 255 } } } : State).answered
        0x29 tag (Reply.refuse .storeError) [.storeFault .menu i { number := i, car := none } h raw])) ∧
    (s.ready → s.canonical = true → s.yard.store.waiting = [] → ∀ (n m i : Nat) (h : Halves) (r : RunnerId) (c : Instr)
      (kind : Nat) (refusedWith : State → Report → List Report → Prop),
      (∀ t q reports, refusedWith t q reports ↔ exec c s = .next t ∧
        t.link = (s.link.addPlace (.request kind tag (Reply.refuse .storeError))).after (q :: reports)) →
      (∀ (sl : Slot Car) (car : Car), s.yard.findCar n = some (i, car) → s.yard.carSlot i = sl → sl.damaged h →
        ({ s.yard.store with cars := Tab.put Slot.blank s.yard.store.cars i { sl with state := .quarantined } } : Store).sound
          = true →
        (c = .carQuery tag n ∧ kind = 0x20 ∨ s.link.part = .run ∧ (c = .delivered tag r.val m ∧ kind = 0x31 ∨
          c = .returnOrder tag r.val m ∧ kind = 0x32) ∧ 1 ≤ m ∧ m ≤ 9999 ∧ (s.yard.runners[r]).held = some m ∧
          ∃ o, s.yard.order? m = some o ∧ o.car = n ∧ o.carGone = false) →
        ∃ t raw reports, refusedWith t (.storeFault .car i { number := n, car := none } h raw) reports ∧
          t.yard.carSlot i = { sl with state := .quarantined } ∧ t.yard.store.hasLatched s.yard.store .car i h ∧
          Tab.get none t.yard.limits n = none ∧ t.yard.admittedCount = s.yard.admittedCount ∧
          t.yard.store.orders = s.yard.store.orders ∧ t.yard.runners = s.yard.runners ∧
          .departed n none none .store ∈ reports ∧
          (∀ b br, s.yard.bay? b = some br → br.occupant ≠ some n → t.yard.bay? b = some br) ∧
          ∀ b br, b ≤ 1023 → s.yard.bay? b = some br → br.occupant = some n →
            t.yard.bay? b = some { occupant := none, speaker := false } ∧
            (br.speaker = true → t.yard.spkMarked b = true ∨ t.yard.sends .speakers b 0) ∧
            ((t.yard.loops[bayLoop b]).overflow = true ∨ t.yard.sends .lamps b 0x00) ∧
            ∀ e ∈ t.yard.readyList, e.car = n → e.row = none) ∧
      (∀ (sl : Slot Bay) (br : Bay) (sc : ScreenId), i ≤ 1023 → sc = bayLoop i → s.yard.baySlot i = sl →
        sl.state = .inUse br → sl.damaged h →
        ({ s.yard.store with bays := Tab.put Slot.blank s.yard.store.bays i { sl with state := .quarantined } } : Store).sound
          = true →
        c = .bayQuery tag i → kind = 0x21 →
        ∃ t raw reports, refusedWith t (.storeFault .bay i { number := i, car := none } h raw) reports ∧
          t.yard.baySlot i = { sl with state := .quarantined } ∧ t.yard.store.hasLatched s.yard.store .bay i h ∧
          t.yard.admittedCount = s.yard.admittedCount ∧ t.yard.openBays sc + 1 = s.yard.openBays sc ∧
          t.yard.capacity = s.yard.capacity.set sc
            (min s.yard.capacity[sc] (max (t.yard.openBays sc) s.yard.admittedCount[sc])) ∧
          (t.yard.capacity[sc] < s.yard.capacity[sc] →
            .capacityChanged sc s.yard.capacity[sc] t.yard.capacity[sc] ∈ reports) ∧
          (t.yard.spkMarked i = true ∨ t.yard.sends .speakers i 0) ∧
          ((∀ e ∈ inUse s.yard.store.cars, e.2.bay ≠ some i) → t.yard.store.cars = s.yard.store.cars) ∧
          ∀ j car, s.yard.findCar car.number = some (j, car) → car.state = .parked → car.bay = some i →
            (∀ e ∈ inUse s.yard.store.cars, e.2.bay = some i → e.1 = j) →
            t.yard.car? car.number = some { car with bay := none, state := .onField } ∧
            Tab.get none t.yard.limits car.number =
              (if s.yard.checkinSetting = 0 then none else some (s.yard.checkinSetting * 60000)) ∧
            .carState car.number .parked .onField .bayLost ∈ reports) ∧
      (∀ (sl : Slot Order) (o : Order), s.yard.findOrder n = some (i, o) → s.yard.orderSlot i = sl → sl.damaged h →
        ({ s.yard.store with orders := Tab.put Slot.blank s.yard.store.orders i { sl with state := .quarantined } }
          : Store).sound = true →
        (c = .orderQuery tag n ∧ kind = 0x2A ∨ s.link.part = .run ∧ (c = .forceCancel tag n ∧ kind = 0x28 ∨
          1 ≤ n ∧ n ≤ 9999 ∧ (s.yard.runners[r]).held = some n ∧
            (c = .delivered tag r.val n ∧ kind = 0x31 ∨ c = .returnOrder tag r.val n ∧ kind = 0x32))) →
        ∃ t raw reports, refusedWith t (.storeFault .order i { number := n, car := some o.car } h raw) reports ∧
          t.yard.orderSlot i = { sl with state := .quarantined } ∧ t.yard.store.hasLatched s.yard.store .order i h ∧
          t.yard.store.menu = s.yard.store.menu ∧
          (∀ sc : ScreenId, t.yard.held[sc] = (s.yard.held[sc]).filter fun e => e.order != n) ∧
          (∀ st : StationId, t.yard.queues[st] = (s.yard.queues[st]).filter fun q => q.order != n) ∧
          t.yard.readyList = (s.yard.readyList.filter fun e => e.order != n) ∧
          ((∃ e ∈ s.yard.readyList, e.order = n) →
            ∀ w, t.yard.rowCount w = t.yard.readyList.countP fun e => decide (e.row = some w)) ∧
          ((∀ e ∈ s.yard.readyList, e.order ≠ n) → t.yard.rowCounts = s.yard.rowCounts) ∧
          ((∀ q : RunnerId, (s.yard.runners[q]).held ≠ some n) → t.yard.runners = s.yard.runners) ∧
          (∀ q : RunnerId, (s.yard.runners[q]).held = some n →
            (∀ k : RunnerId, k ≠ q → (s.yard.runners[k]).held ≠ some n) →
            t.yard.runners = s.yard.runners.set q { held := none, timer := none, last := some (n, .lost) } ∧
            .takeLost q n ∈ reports) ∧
          (∀ q ∈ reports, ∀ car st, (∀ cause, q ≠ .orderCancelled n car st cause) ∧
            ∀ cause a b, q ≠ .orderVoided n car st cause a b) ∧
          ∀ car, s.yard.car? o.car = some car →
            t.yard.car? o.car = some { car with orders := car.orders.filter fun k => k != n } ∧
            ∀ b, car.state = .parked → car.bay = some b → b ≤ 1023 →
              t.yard.lampMarked b = true ∨ ∃ v, t.yard.sends .lamps b v))

/-! ## The host link, the night and the resets -/

/-- The receiver of the host link and the frames it turns away (R201, R202, R204, R210). Bytes are dropped uncounted
while it hunts. A gap in a frame, a LENGTH above 1,024 and a wrong CRC discard the frame, with a link error unless a
RESET DEVICE waits, and leave it hunting; the byte after a gap is the first of the hunt. A frame whose CRC matches is
the request of its KIND, here CT SET, OPEN NIGHT and LINK STATUS, and of an unknown KIND or a wrong LENGTH is answered
UNKNOWN. A frame with 8 requests waiting takes a BUSY place, with a full list of 16 is discarded with a count, and while
a RESET DEVICE waits is dropped. That REQUEST_BUSY with room for the request does nothing, and that UNKNOWN_KIND takes
any KIND, is the model's choice (log entry 31), as is a request command standing for the last byte of its frame, and the
discard that is counted with no byte on the line (log entry 33). -/
def Obligations.FramesTurnedAway : Prop :=
  ∀ (s idle : State) (kind tag : Nat) (heard lost : State → Option (List Byte) → State), s.settled →
    (∀ u rx, heard u rx = { u with link := { u.link with rx := rx } }) →
    (∀ u rx, lost u rx = { u with link := { u.link with
      rx := rx, linkErrors := if u.link.resetPending then u.link.linkErrors else satInc u.link.linkErrors } }) →
    idle = { s with hostLine := [] } →
    (∀ b rest rx, s.hostLine = b :: rest → rx = (if b = 0xA5#8 then some [] else none) →
      (s.link.rx = none → exec .hostFrameGap s = .next ((heard { s with hostLine := rest } rx).reported [])) ∧
      (∀ got, s.link.rx = some got →
        exec .hostFrameGap s = .next ((lost { s with hostLine := rest } rx).reported []))) ∧
    (s.hostLine = [] → exec .hostFrameDiscard s = .next ((lost s none).reported []) ∧
      (s.link.rx = none → exec .hostFrameGap s = .next (s.reported [])) ∧
      (∀ got, s.link.rx = some got → exec .hostFrameGap s = .next ((lost s none).reported []))) ∧
    (s.link.rx = none → ∀ junk : List Byte, (∀ b ∈ junk, b ≠ 0xA5#8) →
      (junk ≠ [] → s.hostLine = junk → exec .hostFrameDiscard s = .next (idle.reported [])) ∧
      (∀ hi lo : Byte, 1024 < hi.toNat * 256 + lo.toNat → s.hostLine = junk ++ [0xA5#8, hi, lo] →
        exec .hostFrameDiscard s = .next ((lost idle none).reported [])) ∧
      (∀ (k n : Nat) (body frame : List Byte) (c1 c0 : Byte), body.length ≤ 1024 →
        frame = u16 body.length ++ u8 k ++ u8 n ++ body → u16 (crc16 frame).toNat ≠ [c1, c0] →
        s.hostLine = junk ++ 0xA5#8 :: (frame ++ [c1, c0]) →
        exec .hostFrameDiscard s = .next ((lost idle none).reported [])) ∧
      (∀ n, n < 256 →
        (∀ k (body : List Byte), k < 256 → body.length ≤ 1024 → (k = 0 ∨ 0x3C < k ∨ k = 0x39 ∧ body ≠ []) →
          s.hostLine = junk ++ frameBytes k n body → exec .hostFrameDiscard s = exec (.unknownKind k n) idle) ∧
        (∀ v, v < 256 → s.hostLine = junk ++ frameBytes 0x1E n (u8 v) →
          exec .hostFrameDiscard s = exec (.ctSet n v) idle) ∧
        (s.hostLine = junk ++ frameBytes 0x39 n [] → exec .hostFrameDiscard s = exec (.openNight n) idle) ∧
        (s.hostLine = junk ++ frameBytes 0x3C n [] → exec .hostFrameDiscard s = exec (.linkStatus n) idle))) ∧
    (s.link.roomy → exec (.unknownKind kind tag) s = .next (s.answered kind tag (Reply.refuse .unknown) [])) ∧
    (s.link.resetPending = false → 8 ≤ s.link.requests → s.link.replies.length < 16 →
      exec (.requestBusy kind tag) s = .next (({ s with link := { s.link with
        replies := s.link.replies ++ [.busy kind tag], rx := none } } : State).reported [])) ∧
    (s.link.resetPending = false → 16 ≤ s.link.replies.length →
      exec (.requestBusy kind tag) s = .next ((lost s none).reported [])) ∧
    (s.link.requests < 8 → s.link.replies.length < 16 → exec (.requestBusy kind tag) s = .next (s.reported [])) ∧
    (s.link.resetPending = true → ¬(s.link.requests < 8 ∧ s.link.replies.length < 16) →
      exec (.requestBusy kind tag) s = .next ((heard s none).reported []))

/-- The transmitter (R204, R206, R207). A report joins a queue of fewer than 128 with the night clock of its moment, and
is otherwise dropped, counted, and marks the next one sent. A free transmitter starts the reply at the head of the list,
else the report at the head of the queue. When a frame has been sent the transmitter is free, the place of a reply sent
leaves the list, and the reply of a RESET DEVICE is followed by the device reset (R210). That a report leaves the queue
as its transmission starts, and that a free transmitter starts at the step's end, is the model's choice (log entry 8).
-/
def Obligations.TransmitterTakesTurns : Prop :=
  (∀ (l : Link) (r : Report),
    (l.reports.length < 128 → l.enqueue r = { l with reports := l.reports ++ [{ time := l.clock, report := r }] }) ∧
    (128 ≤ l.reports.length → l.enqueue r = { l with lost := true, lostCount := satInc l.lostCount }) ∧
    (∀ rs, l.after (r :: rs) = (l.enqueue r).after rs) ∧ (l.tx ≠ .idle → l.after [] = l) ∧
    (l.tx = .idle → l.replies ≠ [] → l.after [] = { l with tx := .reply }) ∧
    (∀ q qs, l.tx = .idle → l.replies = [] → l.reports = q :: qs →
      l.after [] = { l with reports := qs, tx := .report q l.lost, lost := false }) ∧
    (l.tx = .idle → l.replies = [] → l.reports = [] → l.after [] = l)) ∧
  ∀ s : State, s.settled →
    (s.link.tx = .idle → exec .linkFrameSent s = .next (s.reported [])) ∧
    (∀ q f, s.link.tx = .report q f → exec .linkFrameSent s =
      .next (({ s with link := { s.link with tx := .idle } } : State).reported [])) ∧
    (∀ p ps, s.link.tx = .reply → s.link.replies = p :: ps → (∀ tag r, p = .request 0x3B tag r → r.result ≠ .ok) →
      exec .linkFrameSent s = .next (({ s with link := { s.link with tx := .idle, replies := ps } } : State).reported [])) ∧
    (∀ tag r ps, s.link.tx = .reply → s.link.replies = .request 0x3B tag r :: ps → r.result = .ok →
      exec .linkFrameSent s = exec .deviceReset s)

/-- The night (R208, R209). OPEN NIGHT in SETUP starts RUN with the clock at 0, is refused STATE in RUN and BUSY over a
test of the menu. CLOSE NIGHT in RUN is refused STATE with the lowest screen not in DARK, ENDED or HALTED and the lowest
lane not CLOSED; with neither it ends the night: SETUP, the clock at 0, no car, ticket or order left, the counts and
lists at their start, every runner free, the stock on hand loaded for the next night, every bay empty. In SETUP it is
refused STATE; that this refusal carries no fields is the model's choice (log entry 60). -/
def Obligations.NightOpensAndCloses : Prop :=
  ∀ (s : State) (tag : Nat) (quiet : ScreenId → Prop), s.ready →
    (∀ sc : ScreenId, quiet sc ↔ (s.screens[sc]).phase ∈ [ShowState.dark, .ended, .halted]) →
    (s.link.part = .run → exec (.openNight tag) s = .next (s.answered 0x39 tag (Reply.refuse .state) [])) ∧
    (s.link.part = .setup → ∀ tr, s.yard.store.test = some tr → tr.table = .menu →
      exec (.openNight tag) s = .next (s.answered 0x39 tag (Reply.refuse .busy) [])) ∧
    (s.link.part = .setup → (∀ tr, s.yard.store.test = some tr → tr.table ≠ .menu) → exec (.openNight tag) s =
      .next (({ s with link := { s.link with part := .run, clock := 0 } } : State).answered 0x39 tag Reply.ok [])) ∧
    (s.link.part = .setup → exec (.closeNight tag) s = .next (s.answered 0x3A tag (Reply.refuse .state) [])) ∧
    (s.link.part = .run → ∀ (sc : Option ScreenId) (ln : Option LaneId), (sc.isSome ∨ ln.isSome) →
      (match sc with
        | none => ∀ k, quiet k
        | some k => ¬quiet k ∧ ∀ j, j < k → quiet j) →
      (match ln with
        | none => ∀ k : LaneId, (s.lanes[k]).state = .closed
        | some k => (s.lanes[k]).state ≠ .closed ∧ ∀ j : LaneId, j < k → (s.lanes[j]).state = .closed) →
      exec (.closeNight tag) s = .next (s.answered 0x3A tag { result := .state, indication := .none, fields :=
        [.raw (opt (fun k : ScreenId => u8 k) sc ++ opt (fun k : LaneId => u8 k) ln)] } [])) ∧
    (s.link.part = .run → (∀ k, quiet k) → (∀ k : LaneId, (s.lanes[k]).state = .closed) →
      ∃ t, exec (.closeNight tag) s = .next t ∧ t.link.part = .setup ∧ t.link.clock = 0 ∧
        t.link.replies = s.link.replies ++ [.request 0x3A tag Reply.ok] ∧ t.screens = s.screens ∧ t.sound = s.sound ∧
        (∀ ln : LaneId, t.lanes[ln] = { s.lanes[ln] with counts := LaneCounts.zero }) ∧
        inUse t.yard.store.cars = [] ∧ inUse t.yard.store.tickets = [] ∧ inUse t.yard.store.orders = [] ∧
        t.yard.limits = [] ∧ t.yard.lastCar = 0 ∧ t.yard.lastOrder = 0 ∧ t.yard.readyList = [] ∧
        t.yard.rowCounts = [] ∧ (∀ sc : ScreenId, t.yard.admittedCount[sc] = 0 ∧ t.yard.held[sc] = []) ∧
        (∀ st : StationId, t.yard.queues[st] = []) ∧ (∀ r : RunnerId, t.yard.runners[r] = Runner.reset) ∧
        (s.canonical = true → s.yard.store.undamaged = true → t.yard.capacity = s.yard.capacity ∧
          (∀ i m, s.yard.item? i = some m →
            t.yard.item? i = some { m with loaded := m.remaining, pending := 0, sold := 0, waste := 0 }) ∧
          ∀ b br, s.yard.bay? b = some br → t.yard.bay? b = some { occupant := none, speaker := false }))

/-- The resets of the whole part (R34, R64, R90, R115, R135, R158, R175, R189, R200, R210). RESET DEVICE is answered OK
and does nothing more until its reply has been sent. A device reset, and POWER ON, leave every block as after power-on,
with the lines read as they stand and no record in use; the first keeps the quarantined slots of every table and counts
them in READY, the second frees every slot. It is the model's choice that the reader's last answer is absent after them
(log entry 34), that the turn count and the last sequence are cleared also in the entry of a post that was ABSENT (log
entry 48), and that a device reset, or POWER ON, is taken in any state (log entry 32). -/
def Obligations.WholePartResets : Prop :=
  ∀ (s : State) (tag : Nat),
    (s.ready → exec (.resetDevice tag) s = .next (s.answered 0x3B tag Reply.ok [])) ∧
    ∀ c ∈ [Instr.deviceReset, .powerOn], ∃ t, exec c s = .next t ∧
      (∀ sc : ScreenId, t.screens[sc] = { Screen.reset with
        headA := { (s.screens[sc]).headA with
          motor := false, douser := false, speedLost := false, stopAtRunout := false }
        headB := { (s.screens[sc]).headB with
          motor := false, douser := false, speedLost := false, stopAtRunout := false } }) ∧
      (∀ sc : ScreenId, t.sound[sc] = Sound.reset) ∧ t.hostLine = s.hostLine ∧
      (∀ ln : LaneId, t.lanes[ln] = { Lane.reset with
        arming := (s.lanes[ln]).arming, barrierLoop := (s.lanes[ln]).barrierLoop, feedback := (s.lanes[ln]).feedback
        command := if (s.lanes[ln]).barrierLoop = .clear then .down else .up }) ∧
      (∀ lp : ScreenId, t.yard.loops[lp] = { LoopRec.reset with request := (s.yard.loops[lp]).request }) ∧
      { t.yard with loops := Yard.reset.loops, store := Store.reset, freeIndex := 0 } = Yard.reset ∧
      { t.yard.store with cars := [], bays := [], orders := [], menu := [], tickets := [] } = Store.reset ∧
      inUse t.yard.store.cars = [] ∧ inUse t.yard.store.bays = [] ∧ inUse t.yard.store.orders = [] ∧
      inUse t.yard.store.menu = [] ∧ inUse t.yard.store.tickets = [] ∧
      (c = .deviceReset →
        (s.canonical = true → quarantineKept s.yard.store.cars t.yard.store.cars ∧
          quarantineKept s.yard.store.bays t.yard.store.bays ∧ quarantineKept s.yard.store.orders t.yard.store.orders ∧
          quarantineKept s.yard.store.menu t.yard.store.menu ∧
          quarantineKept s.yard.store.tickets t.yard.store.tickets) ∧
        ∀ q, q = quarantinedAfterReset s.yard.store.cars + quarantinedAfterReset s.yard.store.bays +
            quarantinedAfterReset s.yard.store.orders + quarantinedAfterReset s.yard.store.menu +
            quarantinedAfterReset s.yard.store.tickets →
          t.yard.store.quarantinedCount = q ∧
          t.link = { Link.reset with tx := .report { time := 0, report := .ready .host q } false }) ∧
      (c = .powerOn → t.yard.store.quarantinedCount = 0 ∧ t.link = Link.reset)

/-! ## Requests that change nothing -/

/-- Status requests and queries answer in both part states and change nothing, with no record damaged (R32, R62, R88,
R111, R114, R134, R157, R174, R188, R199, R211), and each reply is given in full: a status always, a query of a car, an
order or a held order with its record or NO_SUCH. What the rules list, R203 puts in bytes; that fields come in the order
in which the rules list them, which fields stand behind presence bytes, and the widths R203 does not settle, are how the
model reads it (log entries 15 and 43), as are that OE STATUS counts the orders of each state from the Order Engine's
lists, without a read (log entry 21), that TICKET QUERY answers OK for any number, also above 99,999,999 (log entry 10),
the codes of open and closed and of a detector's states (log entry 9), the times left in whole seconds rounded up (log
entry 45), and the free reel and length sent for an active set that is empty (log entry 5). -/
def Obligations.StatusChangesNothing : Prop :=
  ∀ (s : State) (tag : Nat) (secs : Nat → Nat), s.ready → (∀ ms, secs ms = (ms + 999) / 1000) →
    (∀ (sc : ScreenId) (r : Screen) (head : HeadRec → List Byte) (active : List Byte), s.screens[sc] = r →
      (∀ h, head h = flag h.motor ++ u8 (if h.douser then 0 else 1) ++ flag h.atSpeed ++ flag h.runout ++ flag h.lampOk ++
        u8 h.state.ctorIdx ++ flag h.stopAtRunout) →
      active = (match r.active with
        | some cs => u8 cs.reel ++ u16 cs.length ++ u8 cs.cues.length ++ u8 (cs.cues.countP fun c => c.2)
        | none => u8 Config.emptySetReel ++ u16 Config.emptySetLength ++ u8 0 ++ u8 0) →
      exec (.showStatus tag sc.val) s = .next (s.answered 0x09 tag (Reply.okWith (u8 r.phase.ctorIdx ++ u8 r.reel ++
        u16 r.frame ++ u32 r.f.toNat ++ opt (fun h : Head => u8 h.ctorIdx) r.heldHead ++ opt u16 (r.countdown.map secs) ++
        head r.headA ++ head r.headB ++ active ++ opt u8 (r.staged.map CueSet.reel) ++ u8 r.lights ++ flag r.gateOpen ++
        flag r.orderingOpen ++ flag r.breakWindow ++ u8 r.startSetting ++ u8 r.leadSetting)) [])) ∧
    (∀ (sc : ScreenId) (r : Sound) (v : Servo), s.sound[sc] = r → r.servo = v → exec (.soundStatus tag sc.val) s =
      .next (s.answered 0x0E tag (Reply.okWith (u8 v.state.ctorIdx ++ u32 v.p.toNat ++ i32 v.a ++ i16 v.r ++
        opt i32 v.error ++ u8 v.lockRun ++ u8 r.source.ctorIdx ++
        opt (fun q : Source × SourceCause => u8 q.1.ctorIdx) r.ramp ++ u16 r.level ++ u16 r.target ++
        u8 (r.prog.countP fun e => e.2.any fun b => decide (0 ≤ dist24 b.tag v.block) && decide (dist24 b.tag v.block ≤ 63)) ++
        opt (fun q : Nat × Nat => u16 q.1 ++ u8 q.2) r.cursor ++ u8 (r.brk.countP fun e => e.2.isSome) ++
        i16 v.settings.offset ++ u16 v.settings.window ++ u8 v.settings.deadband ++ u8 v.settings.gain ++
        u16 v.settings.rmax ++ u8 48 ++ u8 24 ++ u32 250 ++ u32 v.settings.coastLimit ++ u16 r.linkErrors ++ u16 r.late ++
        u16 r.early ++ u16 r.jumps ++ u16 r.underruns ++ u16 r.breakGaps)) [])) ∧
    (∀ (lp : ScreenId) (l : LoopRec) (slot : OutSlot → List Byte) (posts : (Post → Bool) → List Byte), s.yard.loops[lp] = l →
      (∀ sl, slot sl = (if sl.use = .free then u8 sl.use.ctorIdx ++ [0, 0, 0, 0, 0, 0, 0]
        else u8 sl.use.ctorIdx ++ 1 :: u8 sl.post ++ 1 :: u8 sl.kind.ctorIdx ++ opt u8 sl.v0 ++ opt u8 sl.v1 ++
          1 :: u8 sl.prio ++ 1 :: u8 sl.origin.ctorIdx ++ 1 :: u8 sl.fails)) →
      (∀ q, posts q = u8 ((List.range 128).countP fun p => q (l.post p))) →
      exec (.loopStatus tag lp.val) s = .next (s.answered 0x14 tag (Reply.okWith (u8 l.owner.ctorIdx ++ flag l.request ++
        flag l.grant ++ opt u16 (l.lendTimer.map secs) ++ flag l.overflow ++ u8 l.cursor ++ posts (fun p => !p.present) ++
        posts (fun p => p.present && decide (p.conf = .heard)) ++ posts (fun p => p.present && decide (p.conf = .doubtful)) ++
        posts (fun p => p.present && decide (p.conf = .dropped)) ++ (l.slots.toList.map slot).flatten ++ u16 l.errors ++
        u16 l.repeats ++ u16 l.badRecords ++ u16 l.undelivered ++ u8 l.windowSetting ++ flag l.lendAllowed ++
        u16 l.lendSetting)) []) ∧
      ∀ n p, n ≤ 127 → p = l.post n → exec (.postStatus tag lp.val n) s = .next (s.answered 0x15 tag (Reply.okWith (
        flag p.present ++ u8 p.errors ++ u8 p.conf.ctorIdx ++ u8 p.turn ++ opt u8 (p.recovery.map secs) ++ flag p.probeDue ++
        u8 p.lamp0 ++ flag p.spk0 ++ u8 p.lamp1 ++ flag p.spk1 ++ opt u8 p.lastSeq)) [])) ∧
    (∀ (ln : LaneId) (l : Lane) (held : List Byte) (c : LaneCounts), s.lanes[ln] = l → l.counts = c →
      held = (match l.pending with
        | .absent => [0]
        | .admission car ticket sc => 1 :: u16 car ++ u32 ticket ++ u8 sc
        | .exit car => 1 :: 1 :: u16 car
        | .anonymous => [1, 0]) →
      exec (.laneStatus tag ln.val) s = .next (s.answered 0x1A tag (Reply.okWith (u8 l.state.ctorIdx ++ u8 l.arming.ctorIdx ++
        u8 l.barrierLoop.ctorIdx ++ u8 l.command.ctorIdx ++ u8 l.feedback.ctorIdx ++ flag l.closeDeferred ++ held ++
        opt u8 (l.dwell.map secs) ++ opt u16 (l.stall.map secs) ++ opt u8 (l.travel.map secs) ++
        opt u8 (if 4 ≤ ln.val then l.exitRead.map secs else none) ++ u16 c.crossings ++ u16 c.used ++ u16 c.late ++
        u16 c.full ++ u16 c.storeError ++ u16 c.closed ++ u16 c.withdrawals ++ u16 c.tailgates ++ u16 c.anonymous ++
        u16 c.readerErrors ++ u8 l.dwellSetting ++ u16 l.stallSetting ++
        opt u8 (if 4 ≤ ln.val then some l.exitReadSetting else none) ++ u8 10)) [])) ∧
    (∀ (reserved : StationId → Nat), (∀ st, reserved st = (s.yard.held.toList.flatten.map fun e => e.stations.count st).sum) →
      (∀ st : StationId, exec (.stationStatus tag st.val) s = .next (s.answered 0x2E tag
        { result := .ok, indication := .none, fields := [.list 1 ((s.yard.queues[st]).map fun q =>
            u16 q.order ++ u8 q.line ++ u8 q.item ++ u8 q.qty ++ u8 q.state.ctorIdx),
          .raw (u8 (s.yard.queues[st]).length ++ u8 (reserved st) ++ u8 ((s.yard.queues[st]).length + reserved st))] }
        [])) ∧
      ∀ orders held taken out, orders = (inUse s.yard.store.orders).length →
        held = (s.yard.held.toList.map List.length).sum → taken = (s.yard.runners.toList.countP fun r => r.held.isSome) →
        out = (s.yard.store.orders.countP fun e => e.2.isOut) →
        exec (.oeStatus tag) s = .next (s.answered 0x2B tag (Reply.okWith (((List.finRange 6).map fun st =>
          u8 (s.yard.queues[st]).length ++ u8 (reserved st) ++ u8 ((s.yard.queues[st]).length + reserved st)).flatten ++
          (s.yard.held.toList.map fun l => u16 l.length).flatten ++ u16 held ++
          u16 (orders - (held + s.yard.readyList.length + taken)) ++ u16 s.yard.readyList.length ++ u16 taken ++
          u16 s.yard.lastOrder ++ u16 (256 - (orders + out)) ++ u16 out)) [])) ∧
    exec (.readyStatus tag) s = .next (s.answered 0x2F tag { result := .ok, indication := .none, fields :=
      [.list 2 (s.yard.readyList.map fun e => u16 e.order ++ u16 e.car ++ opt u8 e.row),
        .raw (((List.range 64).map fun r => u16 (s.yard.rowCount r)).flatten ++
          ((List.range 64).map fun r => flag (decide (0 < s.yard.rowCount r))).flatten)] } []) ∧
    exec (.runnersStatus tag) s = .next (s.answered 0x35 tag (Reply.okWith ((s.yard.runners.toList.map fun r =>
      flag r.held.isSome ++ opt u16 r.held).flatten ++ u8 s.yard.takeLimit)) []) ∧
    (∀ (table : ∀ ρ : Type, Tab (Slot ρ) → Nat → (Nat → List Byte) → (Nat → List Byte) → Nat → List Field),
      (∀ ρ t size count number width, table ρ t size count number width =
        [.raw (count (inUse t).length ++ count (size - ((inUse t).length + t.countP fun e => e.2.isOut)) ++
            count (t.countP fun e => e.2.isQuarantined) ++ count (t.countP fun e => e.2.isOut && !e.2.isQuarantined)),
          .list width ((t.filter fun e => e.2.isQuarantined).map fun e => number e.1)]) →
      ∀ fs : List Field, fs =
        [.raw (opt (fun q : TableId × Nat × Halves => u8 q.1.ctorIdx ++ u16 q.2.1 ++ u8 q.2.2.ctorIdx) s.yard.store.latch ++
            u8 s.yard.store.faultCount)] ++ table _ s.yard.store.cars 1024 u16 u16 2 ++
          table _ s.yard.store.bays 1024 u16 u16 2 ++ table _ s.yard.store.orders 256 u16 u8 2 ++
          table _ s.yard.store.menu 64 u8 u8 1 ++ table _ s.yard.store.tickets 4096 u16 u16 2 ++
          [.raw (opt (fun t : TestRun => u8 t.table.ctorIdx ++ u16 t.cursor ++ u16 t.visited ++ u16 t.passed ++
            u16 t.returned ++ u16 t.quarantined) s.yard.store.test)] →
        exec (.storeStatus tag) s =
          .next (s.answered 0x37 tag { result := .ok, indication := .none, fields := fs } [])) ∧
    exec (.linkStatus tag) s = .next (s.answered 0x3C tag (Reply.okWith (u8 s.link.part.ctorIdx ++ u32 s.link.clock ++
      u16 s.link.linkErrors ++ u16 s.link.lostCount ++ flag s.link.lost ++ u8 s.link.reports.length ++
      u8 (s.link.requests + 1) ++ u8 s.link.busies)) []) ∧
    (s.yard.store.undamaged = true → ∀ (sc : ScreenId) (r : RunnerId) (n i b : Nat), i ≤ 63 → b ≤ 1023 →
      (s.yard.store.canonical = true → exec (.ticketQuery tag n) s = .next (s.answered 0x1B tag (Reply.okWith (
        opt (fun t : Ticket => u8 t.lane ++ u16 t.minute) ((s.yard.findTicket n).map Prod.snd) ++
        opt u16 (((inUse s.yard.store.cars).find? fun e => e.2.ticket == n).map fun e => e.2.number))) [])) ∧
      exec (.bayQuery tag b) s = .next (s.answered 0x21 tag (Reply.okWith (match s.yard.bay? b with
        | some br => u8 0 ++ opt u16 br.occupant ++ flag br.speaker ++ flag (s.yard.spkMarked b) ++ flag false
        | none => u8 1 ++ [0] ++ flag false ++ flag (s.yard.spkMarked b) ++ flag (s.yard.baySlot b).isOut)) []) ∧
      exec (.menuQuery tag i) s = .next (s.answered 0x29 tag (Reply.okWith (match s.yard.item? i with
        | some m => flag true ++ 1 :: u8 m.station ++ 1 :: u16 m.price ++ 1 :: flag m.available ++ 1 :: u8 m.mode.ctorIdx ++
            1 :: u16 m.loaded ++ 1 :: u16 m.remaining ++ 1 :: u16 m.pending ++ 1 :: u16 m.sold ++ 1 :: u16 m.waste ++ flag true
        | none => flag false ++ List.replicate 9 0 ++ flag (!(s.yard.menuSlot i).isOut))) []) ∧
      (s.yard.store.canonical = true → ∀ cars : CarState → List Byte, (∀ st, cars st = u16 ((inUse s.yard.store.cars).countP
          fun e => decide (e.2.screen = sc) && decide (e.2.state = st))) →
        exec (.fieldStatus tag sc.val) s = .next (s.answered 0x22 tag (Reply.okWith (u16 s.yard.capacity[sc] ++
          u16 s.yard.admittedCount[sc] ++ u16 (s.yard.openBays sc) ++ cars .entering ++ cars .onField ++ cars .parked ++
          cars .leaving ++ u16 s.yard.lastCar)) [])) ∧
      (∀ c ∈ [Instr.carQuery tag n, .orderQuery tag n, .runnerStatus tag r.val],
        ∃ kind reply, requestOf c = some (kind, tag) ∧ exec c s = .next (s.answered kind tag reply [])) ∧
      (s.yard.findCar n = none → exec (.carQuery tag n) s = .next (s.answered 0x20 tag (Reply.refuse .noSuch) [])) ∧
      (s.yard.findOrder n = none → exec (.orderQuery tag n) s = .next (s.answered 0x2A tag (Reply.refuse .noSuch) [])) ∧
      (s.yard.store.canonical = true → ∀ c, s.yard.car? n = some c →
        exec (.carQuery tag n) s = .next (s.answered 0x20 tag (Reply.okWith (u16 n ++ u32 c.ticket ++ u8 c.cls.ctorIdx ++
          u8 c.screen ++ u8 c.state.ctorIdx ++ u8 c.entryLane ++ u16 c.entryMinute ++ opt u16 c.bay ++
          opt u16 c.checkin ++ flag c.wired ++ u8 c.orders.length ++ (c.orders.map u16).flatten ++ flag c.unchecked ++
          opt u8 ((Tab.get none s.yard.limits n).map fun ms => (ms + 59999) / 60000))) [])) ∧
      (s.yard.store.canonical = true → ∀ (k : Runner) (whole : Option Bool → Option Nat → Reply),
        s.yard.runners[r] = k →
        (∀ gone bay, whole gone bay = Reply.okWith (flag k.held.isSome ++ opt u16 k.held ++
          opt u8 (k.timer.map fun ms => (ms + 59999) / 60000) ++
          opt (fun l : Nat × ReleaseCause => u16 l.1 ++ u8 l.2.ctorIdx) k.last ++ opt flag gone ++ opt u16 bay)) →
        (k.held = none → exec (.runnerStatus tag r.val) s = .next (s.answered 0x34 tag (whole none none) [])) ∧
        (∀ h o, k.held = some h → s.yard.order? h = some o →
          (s.yard.car? o.car = none →
            exec (.runnerStatus tag r.val) s = .next (s.answered 0x34 tag (whole (some o.carGone) none) [])) ∧
          (∀ c, o.carGone = false → s.yard.car? o.car = some c → exec (.runnerStatus tag r.val) s =
            .next (s.answered 0x34 tag (whole (some false) (if c.state = .parked then c.bay else none)) [])))) ∧
      (s.yard.store.canonical = true → ∀ o, s.yard.order? n = some o →
        exec (.orderQuery tag n) s = .next (s.answered 0x2A tag (Reply.okWith (u16 o.number ++ u16 o.car ++ u8 o.screen ++
          u8 o.mode.ctorIdx ++ u8 o.state.ctorIdx ++ u8 o.lines.length ++
          (o.lines.map fun l => u8 l.item ++ u8 l.qty ++ u8 l.state.ctorIdx).flatten ++ u32 o.total ++ u16 o.accepted ++
          opt u16 o.readyMinute ++ opt (fun r : RunnerId => u8 r) o.taker ++ flag o.carGone)) [])))

/-- Requests with a number that names nothing, and requests not taken in SETUP. That a screen, loop, lane or table
outside its list is malformed, answered UNKNOWN, and that a station, runner, item, bay, post or slot number beyond its
range is RANGE where no rule names it, is how the model reads R202 (log entry 10), and that both go before STATE is its
choice (log entry 11). A request that is taken in RUN only is refused STATE in SETUP (R208). Nothing changes but the
reply list. -/
def Obligations.RequestsRefused : Prop :=
  ∀ (s : State) (tag : Nat), s.ready →
    (∀ n a b d e, 4 ≤ n → ∀ cues plan, ∀ c ∈ [Instr.loadCues tag n a b cues, .start tag n, .resume tag n, .stopShow tag n,
        .clearShow tag n, .flagSet tag n a b, .lights tag n a, .timelineSet tag n a b, .showStatus tag n,
        .resetScreen tag n, .source tag n a, .servoSet tag n 0 a b d e 0, .levelSet tag n a, .soundStatus tag n,
        .postMap tag n plan, .send tag n a b d e 0 0 0, .sendAbort tag n a, .fieldSummary tag n, .loopSet tag n a b d,
        .loopStatus tag n, .postStatus tag n a, .loopReset tag n, .sitePlan tag n plan, .capacitySet tag n a,
        .fieldStatus tag n, .orderRelease tag n],
      ∃ kind, requestOf c = some (kind, tag) ∧ exec c s = .next (s.answered kind tag (Reply.refuse .unknown) [])) ∧
    (∀ n a b x, 6 ≤ n → ∀ c ∈ [Instr.laneOpen tag n, .laneClose tag n, .laneSet tag n a b x, .laneStatus tag n],
      ∃ kind, requestOf c = some (kind, tag) ∧ exec c s = .next (s.answered kind tag (Reply.refuse .unknown) [])) ∧
    (∀ n, 5 ≤ n → exec (.storeTest tag n) s = .next (s.answered 0x36 tag (Reply.refuse .unknown) [])) ∧
    (∀ (lp : ScreenId) st r i b p k a d q, 6 ≤ st → 32 ≤ r → 64 ≤ i → 1024 ≤ b → 128 ≤ p → 16 ≤ k → 1 ≤ q → q ≤ 65535 →
      ∀ c ∈ [Instr.stationNext tag st, .stationDone tag st a d, .stationStatus tag st, .take tag r 0 a,
        .delivered tag r a, .returnOrder tag r a, .runnerStatus tag r, .restock tag i q, .restock tag 0 0,
        .stockWaste tag i q, .stockWaste tag 0 0, .menuQuery tag i, .menuSet tag i 0 0 0 0, .menuSet tag 0 st 0 0 0,
        .bayQuery tag b, .orderEnter tag b 0 [⟨0, 1⟩], .postStatus tag lp.val p, .sendAbort tag lp.val k],
      ∃ kind, requestOf c = some (kind, tag) ∧ exec c s = .next (s.answered kind tag (Reply.refuse .range) [])) ∧
    (s.link.part = .setup → ∀ (sc : ScreenId) (ln : LaneId) (st : StationId) (r : RunnerId) n line, 1 ≤ n → n ≤ 9999 →
      line ≤ 7 → ∀ c ∈ [Instr.loadCues tag sc.val 1 1 [], .start tag sc.val, .resume tag sc.val, .stopShow tag sc.val,
        .flagSet tag sc.val 0 0, .lights tag sc.val 0, .source tag sc.val 0, .laneOpen tag ln.val, .carRemove tag n,
        .orderRelease tag sc.val, .forceCancel tag n, .stationNext tag st.val, .stationDone tag st.val n line,
        .take tag r.val 0 0, .delivered tag r.val n, .returnOrder tag r.val n],
      ∃ kind, requestOf c = some (kind, tag) ∧ exec c s = .next (s.answered kind tag (Reply.refuse .state) []))
end

