-- ==== Sys2Proof/Laws/Frames.lean ====
section
/-! SUPPORT. What a byte on the host link can do, said once (R201, R202): the receiver keeps it, drops it or discards a
frame, or the frame it completes is the request that exec gives its meaning. -/

namespace Sys2Proof.Machine

theorem fields0_some {body : List Byte} {f m : Meaning} (h : fields0 body f = some m) : m = f := by
  unfold fields0 at h
  split at h
  · exact (Option.some.inj h).symm
  · cases h

theorem fields1_some {body : List Byte} {a : Nat} {f : Nat → Meaning} {m : Meaning} (h : fields1 body a f = some m) :
    ∃ x, m = f x := by
  unfold fields1 at h
  split at h
  · exact ⟨_, (Option.some.inj h).symm⟩
  · cases h

theorem fields2_some {body : List Byte} {a b : Nat} {f : Nat → Nat → Meaning} {m : Meaning}
    (h : fields2 body a b f = some m) : ∃ x y, m = f x y := by
  unfold fields2 at h
  split at h
  · exact ⟨_, _, (Option.some.inj h).symm⟩
  · cases h

theorem fields3_some {body : List Byte} {a b c : Nat} {f : Nat → Nat → Nat → Meaning} {m : Meaning}
    (h : fields3 body a b c f = some m) : ∃ x y z, m = f x y z := by
  unfold fields3 at h
  split at h
  · exact ⟨_, _, _, (Option.some.inj h).symm⟩
  · cases h

theorem loadCuesFrame_exec {tag : Nat} {body : List Byte} {m : Meaning} (h : loadCuesFrame tag body = some m) :
    ∃ c : Instr, m = exec c ∧ (requestOf c).isSome = true := by
  unfold loadCuesFrame at h
  split at h
  · split at h
    · split at h
      · exact ⟨.loadCues tag _ _ _ _, (Option.some.inj h).symm, rfl⟩
      · cases h
    · cases h
  · cases h

theorem orderEnterFrame_exec {tag : Nat} {body : List Byte} {m : Meaning} (h : orderEnterFrame tag body = some m) :
    ∃ c : Instr, m = exec c ∧ (requestOf c).isSome = true := by
  unfold orderEnterFrame at h
  split at h
  · split at h
    · split at h
      · exact ⟨.orderEnter tag _ _ _, (Option.some.inj h).symm, rfl⟩
      · cases h
    · cases h
  · cases h

theorem laneSetFrame_exec {tag : Nat} {body : List Byte} {m : Meaning} (h : laneSetFrame tag body = some m) :
    ∃ c : Instr, m = exec c ∧ (requestOf c).isSome = true := by
  unfold laneSetFrame at h
  split at h
  · exact ⟨.laneSet tag _ _ _ _, (Option.some.inj h).symm, rfl⟩
  · exact ⟨.laneSet tag _ _ _ _, (Option.some.inj h).symm, rfl⟩
  · cases h

theorem takeFrame_exec {tag : Nat} {body : List Byte} {m : Meaning} (h : takeFrame tag body = some m) :
    ∃ c : Instr, m = exec c ∧ (requestOf c).isSome = true := by
  unfold takeFrame at h
  split at h
  · exact ⟨.take tag _ 0 0, (Option.some.inj h).symm, rfl⟩
  · exact ⟨.take tag _ 1 _, (Option.some.inj h).symm, rfl⟩
  · exact ⟨.take tag _ 2 _, (Option.some.inj h).symm, rfl⟩
  · cases h

theorem postMapFrame_exec {tag : Nat} {body : List Byte} {m : Meaning} (h : postMapFrame tag body = some m) :
    ∃ c : Instr, m = exec c ∧ (requestOf c).isSome = true := by
  unfold postMapFrame at h
  split at h
  · split at h
    · exact ⟨.postMap tag _ _, (Option.some.inj h).symm, rfl⟩
    · cases h
  · cases h

theorem sitePlanFrame_exec {tag : Nat} {body : List Byte} {m : Meaning} (h : sitePlanFrame tag body = some m) :
    ∃ c : Instr, m = exec c ∧ (requestOf c).isSome = true := by
  unfold sitePlanFrame at h
  split at h
  · split at h
    · exact ⟨.sitePlan tag _ _, (Option.some.inj h).symm, rfl⟩
    · cases h
  · cases h

theorem sendFrame_exec {tag : Nat} {body : List Byte} {m : Meaning} (h : sendFrame tag body = some m) :
    ∃ c : Instr, m = exec c ∧ (requestOf c).isSome = true := by
  unfold sendFrame at h
  split at h
  · exact ⟨.send tag _ _ _ _ _ _ _ _, (Option.some.inj h).symm, rfl⟩
  · cases h

theorem loopSetFrame_exec {tag : Nat} {body : List Byte} {m : Meaning} (h : loopSetFrame tag body = some m) :
    ∃ c : Instr, m = exec c ∧ (requestOf c).isSome = true := by
  unfold loopSetFrame at h
  split at h
  · exact ⟨.loopSet tag _ _ _ _, (Option.some.inj h).symm, rfl⟩
  · cases h

theorem servoSetFrame_exec {tag : Nat} {body : List Byte} {m : Meaning} (h : servoSetFrame tag body = some m) :
    ∃ c : Instr, m = exec c ∧ (requestOf c).isSome = true := by
  unfold servoSetFrame at h
  split at h
  · exact ⟨.servoSet tag _ _ _ _ _ _ _, (Option.some.inj h).symm, rfl⟩
  · cases h

theorem menuSetFrame_exec {tag : Nat} {body : List Byte} {m : Meaning} (h : menuSetFrame tag body = some m) :
    ∃ c : Instr, m = exec c ∧ (requestOf c).isSome = true := by
  unfold menuSetFrame at h
  split at h
  · exact ⟨.menuSet tag _ _ _ _ _, (Option.some.inj h).symm, rfl⟩
  · cases h

/-- The request a good frame is, is one of the commands, whatever its KIND, TAG and body. -/
theorem frameMeaning_exec {kind tag : Nat} {body : List Byte} {m : Meaning} (h : frameMeaning kind tag body = some m) :
    ∃ c : Instr, m = exec c ∧ (requestOf c).isSome = true := by
  unfold frameMeaning at h
  split at h
  · exact loadCuesFrame_exec h
  · obtain ⟨x, rfl⟩ := fields1_some h
    exact ⟨.start tag x, rfl, rfl⟩
  · obtain ⟨x, rfl⟩ := fields1_some h
    exact ⟨.resume tag x, rfl, rfl⟩
  · obtain ⟨x, rfl⟩ := fields1_some h
    exact ⟨.stopShow tag x, rfl, rfl⟩
  · obtain ⟨x, rfl⟩ := fields1_some h
    exact ⟨.clearShow tag x, rfl, rfl⟩
  · obtain ⟨x, y, z, rfl⟩ := fields3_some h
    exact ⟨.flagSet tag x y z, rfl, rfl⟩
  · obtain ⟨x, y, rfl⟩ := fields2_some h
    exact ⟨.lights tag x y, rfl, rfl⟩
  · obtain ⟨x, y, z, rfl⟩ := fields3_some h
    exact ⟨.timelineSet tag x y z, rfl, rfl⟩
  · obtain ⟨x, rfl⟩ := fields1_some h
    exact ⟨.showStatus tag x, rfl, rfl⟩
  · obtain ⟨x, rfl⟩ := fields1_some h
    exact ⟨.resetScreen tag x, rfl, rfl⟩
  · obtain ⟨x, y, rfl⟩ := fields2_some h
    exact ⟨.source tag x y, rfl, rfl⟩
  · exact servoSetFrame_exec h
  · obtain ⟨x, y, rfl⟩ := fields2_some h
    exact ⟨.levelSet tag x y, rfl, rfl⟩
  · obtain ⟨x, rfl⟩ := fields1_some h
    exact ⟨.soundStatus tag x, rfl, rfl⟩
  · exact postMapFrame_exec h
  · exact sendFrame_exec h
  · obtain ⟨x, y, rfl⟩ := fields2_some h
    exact ⟨.sendAbort tag x y, rfl, rfl⟩
  · obtain ⟨x, rfl⟩ := fields1_some h
    exact ⟨.fieldSummary tag x, rfl, rfl⟩
  · exact loopSetFrame_exec h
  · obtain ⟨x, rfl⟩ := fields1_some h
    exact ⟨.loopStatus tag x, rfl, rfl⟩
  · obtain ⟨x, y, rfl⟩ := fields2_some h
    exact ⟨.postStatus tag x y, rfl, rfl⟩
  · obtain ⟨x, rfl⟩ := fields1_some h
    exact ⟨.loopReset tag x, rfl, rfl⟩
  · obtain ⟨x, rfl⟩ := fields1_some h
    exact ⟨.laneOpen tag x, rfl, rfl⟩
  · obtain ⟨x, rfl⟩ := fields1_some h
    exact ⟨.laneClose tag x, rfl, rfl⟩
  · exact laneSetFrame_exec h
  · obtain ⟨x, rfl⟩ := fields1_some h
    exact ⟨.laneStatus tag x, rfl, rfl⟩
  · obtain ⟨x, rfl⟩ := fields1_some h
    exact ⟨.ticketQuery tag x, rfl, rfl⟩
  · exact sitePlanFrame_exec h
  · obtain ⟨x, y, rfl⟩ := fields2_some h
    exact ⟨.capacitySet tag x y, rfl, rfl⟩
  · obtain ⟨x, rfl⟩ := fields1_some h
    exact ⟨.ctSet tag x, rfl, rfl⟩
  · obtain ⟨x, rfl⟩ := fields1_some h
    exact ⟨.carRemove tag x, rfl, rfl⟩
  · obtain ⟨x, rfl⟩ := fields1_some h
    exact ⟨.carQuery tag x, rfl, rfl⟩
  · obtain ⟨x, rfl⟩ := fields1_some h
    exact ⟨.bayQuery tag x, rfl, rfl⟩
  · obtain ⟨x, rfl⟩ := fields1_some h
    exact ⟨.fieldStatus tag x, rfl, rfl⟩
  · exact menuSetFrame_exec h
  · obtain ⟨x, y, rfl⟩ := fields2_some h
    exact ⟨.restock tag x y, rfl, rfl⟩
  · obtain ⟨x, y, rfl⟩ := fields2_some h
    exact ⟨.stockWaste tag x y, rfl, rfl⟩
  · exact orderEnterFrame_exec h
  · obtain ⟨x, rfl⟩ := fields1_some h
    exact ⟨.orderRelease tag x, rfl, rfl⟩
  · obtain ⟨x, rfl⟩ := fields1_some h
    exact ⟨.forceCancel tag x, rfl, rfl⟩
  · obtain ⟨x, rfl⟩ := fields1_some h
    exact ⟨.menuQuery tag x, rfl, rfl⟩
  · obtain ⟨x, rfl⟩ := fields1_some h
    exact ⟨.orderQuery tag x, rfl, rfl⟩
  · exact ⟨.oeStatus tag, fields0_some h, rfl⟩
  · obtain ⟨x, rfl⟩ := fields1_some h
    exact ⟨.stationNext tag x, rfl, rfl⟩
  · obtain ⟨x, y, z, rfl⟩ := fields3_some h
    exact ⟨.stationDone tag x y z, rfl, rfl⟩
  · obtain ⟨x, rfl⟩ := fields1_some h
    exact ⟨.stationStatus tag x, rfl, rfl⟩
  · exact ⟨.readyStatus tag, fields0_some h, rfl⟩
  · exact takeFrame_exec h
  · obtain ⟨x, y, rfl⟩ := fields2_some h
    exact ⟨.delivered tag x y, rfl, rfl⟩
  · obtain ⟨x, y, rfl⟩ := fields2_some h
    exact ⟨.returnOrder tag x y, rfl, rfl⟩
  · obtain ⟨x, rfl⟩ := fields1_some h
    exact ⟨.runnerSet tag x, rfl, rfl⟩
  · obtain ⟨x, rfl⟩ := fields1_some h
    exact ⟨.runnerStatus tag x, rfl, rfl⟩
  · exact ⟨.runnersStatus tag, fields0_some h, rfl⟩
  · obtain ⟨x, rfl⟩ := fields1_some h
    exact ⟨.storeTest tag x, rfl, rfl⟩
  · exact ⟨.storeStatus tag, fields0_some h, rfl⟩
  · exact ⟨.storeClear tag, fields0_some h, rfl⟩
  · exact ⟨.openNight tag, fields0_some h, rfl⟩
  · exact ⟨.closeNight tag, fields0_some h, rfl⟩
  · exact ⟨.resetDevice tag, fields0_some h, rfl⟩
  · exact ⟨.linkStatus tag, fields0_some h, rfl⟩
  · cases h

/-- A command that a good frame can be: a request, or a frame of unknown KIND or wrong LENGTH (R202). -/
def frameCommand (c : Instr) : Prop :=
  (requestOf c).isSome = true ∨ ∃ kind tag, c = .unknownKind kind tag

/-- What a good frame does, exec does for some command (R202). -/
theorem State.goodFrame_exec (s : State) (kind tag : Nat) (body : List Byte) :
    ∃ c, frameCommand c ∧ ∀ t, exec c s = .next t → s.goodFrame kind tag body = t := by
  have run : ∀ c t, exec c s = .next t → Meaning.run (exec c) s = t := by
    intro c t h
    simp only [Meaning.run, h]
  unfold State.goodFrame
  cases h : frameMeaning kind tag body with
  | none => exact ⟨.unknownKind kind tag, .inr ⟨_, _, rfl⟩, run (.unknownKind kind tag)⟩
  | some m =>
    obtain ⟨c, rfl, hc⟩ := frameMeaning_exec h
    exact ⟨c, .inl hc, run c⟩

/-- Everything a byte on the host link can do (R201): the receiver's own bytes change, a frame is discarded, or exec does it
for the command the frame is. -/
theorem State.takeHostByte_cases (s : State) (b : Byte) :
    (∃ rx, s.takeHostByte b = { s with link := { s.link with rx := rx } }) ∨ s.takeHostByte b = s.discardFrame ∨
      ∃ c, frameCommand c ∧ ∀ t, exec c s = .next t → s.takeHostByte b = t := by
  unfold State.takeHostByte
  split
  · split
    · exact .inl ⟨_, rfl⟩
    · exact .inl ⟨s.link.rx, rfl⟩
  · dsimp only
    split
    · split
      · exact .inr (.inl rfl)
      · split
        · exact .inl ⟨_, rfl⟩
        · unfold State.endFrame
          split
          · split
            · exact .inr (.inr (s.goodFrame_exec _ _ _))
            · exact .inr (.inl rfl)
          · exact .inr (.inl rfl)
    · exact .inl ⟨_, rfl⟩

/-- A property kept by a change of the receiver's bytes, by a discard and by every command a frame can be, is kept by all
the bytes on the line together. -/
theorem State.takeHostBytes_keeps (P : State → Prop) (hr : ∀ s rx, P s → P { s with link := { s.link with rx := rx } })
    (hd : ∀ s, P s → P s.discardFrame)
    (he : ∀ s c, frameCommand c → P s → ∃ t, exec c s = .next t ∧ P t)
    (bytes : List Byte) (s : State) (h : P s) : P (bytes.foldl State.takeHostByte s) := by
  induction bytes generalizing s with
  | nil => exact h
  | cons b bs ih =>
    refine ih _ ?_
    rcases s.takeHostByte_cases b with ⟨rx, e⟩ | e | ⟨c, hc, e⟩
    · exact e ▸ hr s rx h
    · exact e ▸ hd s h
    · obtain ⟨t, ht, hP⟩ := he s c hc h
      exact (e t ht) ▸ hP

end Sys2Proof.Machine
end

