-- ==== Sys2Proof/Laws/Ops.lean ====
section
/-! SUPPORT. What the shared operations of Machine/Ops.lean can do, said once: raising reports and the end of a step, an
operation on one block, and the two shapes of a command. The provers cite these and do not unfold the operations. -/

namespace Sys2Proof.Machine

/-! ## Raised reports and the end of a step -/

@[simp] theorem State.withScreen_same (s : State) (sc : ScreenId) : s.withScreen sc s.screens[sc] = s := by
  simp [State.withScreen]

@[simp] theorem State.withSound_same (s : State) (sc : ScreenId) : s.withSound sc s.sound[sc] = s := by
  simp [State.withSound]

@[simp] theorem State.withLane_same (s : State) (ln : LaneId) : s.withLane ln s.lanes[ln] = s := by
  simp [State.withLane]

@[simp] theorem State.withLoop_same (s : State) (lp : ScreenId) : s.withLoop lp s.yard.loops[lp] = s := by
  simp [State.withLoop]

@[simp] theorem State.raiseAll_nil (s : State) : s.raiseAll [] = s := by
  simp [State.raiseAll]

@[simp] theorem State.raiseAll_raiseAll (s : State) (a b : List Report) :
    (s.raiseAll a).raiseAll b = s.raiseAll (a ++ b) := by
  simp [State.raiseAll, List.append_assoc]

theorem State.raise_eq_raiseAll (s : State) (r : Report) : s.raise r = s.raiseAll [r] := rfl

/-- Reports told by a timeline are raised in order, and nothing else happens. -/
theorem State.foldl_effect_reports (sc : ScreenId) (rs : List Report) (s : State) :
    (rs.map Effect.report).foldl (State.effect sc) s = s.raiseAll rs := by
  induction rs generalizing s with
  | nil => simp
  | cons r rs ih => simp [State.effect, ih, State.raise_eq_raiseAll]

/-- The end of a step in a settled state that has raised reports. -/
theorem State.finish_raiseAll (s : State) (rs : List Report) (h : s.settled) :
    (s.raiseAll rs).finish = s.reported rs := by
  cases s with
  | mk p hl sc sd la y l =>
    cases y
    simp only [State.settled] at h
    subst h
    simp [State.finish, State.flush, State.raiseAll, State.reported, Link.after]

/-- The end of a step that raised nothing. -/
theorem State.finish_settled (s : State) (h : s.settled) : s.finish = s.reported [] := by
  simpa using State.finish_raiseAll s [] h

/-- The end of a step leaves the blocks other than the yard, and the queue of commands. -/
@[simp] theorem State.finish_screens (s : State) : s.finish.screens = s.screens := rfl
@[simp] theorem State.finish_sound (s : State) : s.finish.sound = s.sound := rfl
@[simp] theorem State.finish_lanes (s : State) : s.finish.lanes = s.lanes := rfl
@[simp] theorem State.finish_pending (s : State) : s.finish.pending = s.pending := rfl
@[simp] theorem State.finish_hostLine (s : State) : s.finish.hostLine = s.hostLine := rfl
@[simp] theorem State.finish_yard (s : State) : s.finish.yard = { s.yard with raised := [] } := rfl
@[simp] theorem State.finish_link (s : State) : s.finish.link = s.link.after s.yard.raised := rfl

/-- A step ends settled. -/
theorem State.finish_is_settled (s : State) : s.finish.settled := rfl

/-! ## The link at the end of a step -/

@[simp] theorem Link.enqueue_replies (l : Link) (r : Report) : (l.enqueue r).replies = l.replies := by
  unfold Link.enqueue; split <;> rfl
@[simp] theorem Link.enqueue_part (l : Link) (r : Report) : (l.enqueue r).part = l.part := by
  unfold Link.enqueue; split <;> rfl
@[simp] theorem Link.enqueue_clock (l : Link) (r : Report) : (l.enqueue r).clock = l.clock := by
  unfold Link.enqueue; split <;> rfl
@[simp] theorem Link.enqueue_linkErrors (l : Link) (r : Report) : (l.enqueue r).linkErrors = l.linkErrors := by
  unfold Link.enqueue; split <;> rfl
@[simp] theorem Link.enqueue_rx (l : Link) (r : Report) : (l.enqueue r).rx = l.rx := by
  unfold Link.enqueue; split <;> rfl
@[simp] theorem Link.enqueue_tx (l : Link) (r : Report) : (l.enqueue r).tx = l.tx := by
  unfold Link.enqueue; split <;> rfl

/-- A link field that no report touches is untouched by any number of them. -/
theorem Link.foldl_enqueue {α : Type} (g : Link → α) (hg : ∀ l r, g (Link.enqueue l r) = g l) (rs : List Report)
    (l : Link) : g (rs.foldl Link.enqueue l) = g l := by
  induction rs generalizing l with
  | nil => rfl
  | cons r rs ih => rw [List.foldl_cons, ih, hg]

@[simp] theorem Link.kick_replies (l : Link) : l.kick.replies = l.replies := by
  unfold Link.kick; split <;> simp_all
@[simp] theorem Link.kick_part (l : Link) : l.kick.part = l.part := by
  unfold Link.kick; split <;> rfl
@[simp] theorem Link.kick_clock (l : Link) : l.kick.clock = l.clock := by
  unfold Link.kick; split <;> rfl
@[simp] theorem Link.kick_linkErrors (l : Link) : l.kick.linkErrors = l.linkErrors := by
  unfold Link.kick; split <;> rfl
@[simp] theorem Link.kick_lostCount (l : Link) : l.kick.lostCount = l.lostCount := by
  unfold Link.kick; split <;> rfl

@[simp] theorem Link.kick_rx (l : Link) : l.kick.rx = l.rx := by
  unfold Link.kick; split <;> rfl

@[simp] theorem Link.after_replies (l : Link) (rs : List Report) : (l.after rs).replies = l.replies := by
  rw [Link.after, Link.kick_replies, Link.foldl_enqueue Link.replies Link.enqueue_replies]
@[simp] theorem Link.after_part (l : Link) (rs : List Report) : (l.after rs).part = l.part := by
  rw [Link.after, Link.kick_part, Link.foldl_enqueue Link.part Link.enqueue_part]
@[simp] theorem Link.after_clock (l : Link) (rs : List Report) : (l.after rs).clock = l.clock := by
  rw [Link.after, Link.kick_clock, Link.foldl_enqueue Link.clock Link.enqueue_clock]
@[simp] theorem Link.after_linkErrors (l : Link) (rs : List Report) : (l.after rs).linkErrors = l.linkErrors := by
  rw [Link.after, Link.kick_linkErrors, Link.foldl_enqueue Link.linkErrors Link.enqueue_linkErrors]

@[simp] theorem Link.after_rx (l : Link) (rs : List Report) : (l.after rs).rx = l.rx := by
  rw [Link.after, Link.kick_rx, Link.foldl_enqueue Link.rx Link.enqueue_rx]

/-! ## Places, discards and the receiver -/

@[simp] theorem Link.hunt_part (l : Link) : l.hunt.part = l.part := rfl
@[simp] theorem Link.hunt_clock (l : Link) : l.hunt.clock = l.clock := rfl
@[simp] theorem Link.hunt_linkErrors (l : Link) : l.hunt.linkErrors = l.linkErrors := rfl
@[simp] theorem Link.hunt_replies (l : Link) : l.hunt.replies = l.replies := rfl
@[simp] theorem Link.hunt_reports (l : Link) : l.hunt.reports = l.reports := rfl
@[simp] theorem Link.hunt_lost (l : Link) : l.hunt.lost = l.lost := rfl
@[simp] theorem Link.hunt_lostCount (l : Link) : l.hunt.lostCount = l.lostCount := rfl
@[simp] theorem Link.hunt_tx (l : Link) : l.hunt.tx = l.tx := rfl
@[simp] theorem Link.hunt_rx (l : Link) : l.hunt.rx = none := rfl
@[simp] theorem Link.addPlace_part (l : Link) (p : Place) : (l.addPlace p).part = l.part := rfl
@[simp] theorem Link.addPlace_clock (l : Link) (p : Place) : (l.addPlace p).clock = l.clock := rfl
@[simp] theorem Link.addPlace_linkErrors (l : Link) (p : Place) : (l.addPlace p).linkErrors = l.linkErrors := rfl
@[simp] theorem Link.addPlace_reports (l : Link) (p : Place) : (l.addPlace p).reports = l.reports := rfl
@[simp] theorem Link.addPlace_lost (l : Link) (p : Place) : (l.addPlace p).lost = l.lost := rfl
@[simp] theorem Link.addPlace_lostCount (l : Link) (p : Place) : (l.addPlace p).lostCount = l.lostCount := rfl
@[simp] theorem Link.addPlace_tx (l : Link) (p : Place) : (l.addPlace p).tx = l.tx := rfl
@[simp] theorem Link.addPlace_replies (l : Link) (p : Place) : (l.addPlace p).replies = l.replies ++ [p] := rfl
@[simp] theorem Link.addPlace_rx (l : Link) (p : Place) : (l.addPlace p).rx = none := rfl
@[simp] theorem Link.countError_part (l : Link) : l.countError.part = l.part := rfl
@[simp] theorem Link.countError_clock (l : Link) : l.countError.clock = l.clock := rfl
@[simp] theorem Link.countError_replies (l : Link) : l.countError.replies = l.replies := rfl
@[simp] theorem Link.countError_reports (l : Link) : l.countError.reports = l.reports := rfl
@[simp] theorem Link.countError_lost (l : Link) : l.countError.lost = l.lost := rfl
@[simp] theorem Link.countError_lostCount (l : Link) : l.countError.lostCount = l.lostCount := rfl
@[simp] theorem Link.countError_tx (l : Link) : l.countError.tx = l.tx := rfl
@[simp] theorem Link.countError_rx (l : Link) : l.countError.rx = l.rx := rfl
@[simp] theorem Link.countError_linkErrors (l : Link) : l.countError.linkErrors = satInc l.linkErrors := rfl

/-- Whether a RESET DEVICE waits is told by the reply list alone. -/
theorem Link.resetPending_congr (l m : Link) (h : m.replies = l.replies) : m.resetPending = l.resetPending := by
  simp [Link.resetPending, h]

/-- What a byte does to a hunting receiver (R201): 0xA5 opens a frame, any other byte is dropped. -/
theorem State.takeHostByte_hunting (s : State) (b : Byte) (h : s.link.rx = none) :
    s.takeHostByte b = if b = 0xA5#8 then { s with link := { s.link with rx := some [] } } else s := by
  simp [State.takeHostByte, h]

/-- A discard leaves the receiver hunting, and is counted unless a RESET DEVICE waits (R201, R210). -/
theorem State.discardFrame_link (s : State) :
    s.discardFrame.link = if s.link.resetPending then s.link.hunt else s.link.hunt.countError := by
  unfold State.discardFrame
  split <;> rfl

/-- A gap ends the frame in progress and touches nothing in a hunting receiver (R201). -/
theorem State.hostGap_cases (s : State) :
    (s.link.rx = none ∧ s.hostGap = s) ∨ ((∃ got, s.link.rx = some got) ∧ s.hostGap = s.discardFrame) := by
  unfold State.hostGap
  split
  · exact .inl ⟨by assumption, rfl⟩
  · exact .inr ⟨⟨_, by assumption⟩, rfl⟩

/-- Bytes of a frame that do not complete it are kept (R201): the receiver then holds them all. -/
theorem State.takeHostByte_keeps (s : State) (got : List Byte) (b : Byte) (h : s.link.rx = some got)
    (hs : got.length = 0) : s.takeHostByte b = { s with link := { s.link with rx := some [b] } } := by
  simp [State.takeHostByte, h, List.length_eq_zero_iff.mp hs]

/-! ## The two shapes of a command -/

/-- An event always has a next state. -/
theorem event_next (f : State → State) (s : State) : event f s = .next (f s).finish := rfl

/-- A request always has a next state. -/
theorem request_next (kind tag : Nat) (body : State → Reply × State) (s : State) :
    request kind tag body s = .next (s.request kind tag body).finish := rfl

/-- A request that finds room is taken: its reply joins the reply list. -/
theorem request_roomy (kind tag : Nat) (body : State → Reply × State) (s : State) (h : s.link.roomy) :
    s.request kind tag body =
      { (body s).2 with link := (body s).2.link.addPlace (.request kind tag (body s).1) } := by
  obtain ⟨h1, h2, h3⟩ := h
  simp [State.request, h1, Nat.not_le.mpr h2, Nat.not_le.mpr h3]

/-- A request that leaves a settled state, its reports aside. -/
theorem request_answers (kind tag : Nat) (body : State → Reply × State) (s t : State) (r : Reply) (rs : List Report)
    (h : s.link.roomy) (hb : body s = (r, t.raiseAll rs)) (ht : t.settled) :
    request kind tag body s = .next (t.answered kind tag r rs) := by
  rw [request_next, request_roomy _ _ _ _ h, hb]
  congr 1
  cases t with
  | mk p hl sc sd la y l =>
    cases y
    simp only [State.settled] at ht
    subst ht
    simp [State.finish, State.flush, State.raiseAll, State.answered, Link.after]

/-- A request that raises no report. -/
theorem request_answers_quietly (kind tag : Nat) (body : State → Reply × State) (s t : State) (r : Reply)
    (h : s.link.roomy) (hb : body s = (r, t)) (ht : t.settled) :
    request kind tag body s = .next (t.answered kind tag r []) :=
  request_answers kind tag body s t r [] h (by simpa using hb) ht

/-! ## Operations on one block -/

/-- A timeline operation whose screen record and reports are known, and which tells the other blocks nothing else. -/
theorem State.onShow_reports (s : State) (sc : ScreenId) (f : ShowRun → ShowRun) (r : Screen) (rs : List Report)
    (hf : f { id := sc, sc := s.screens[sc], out := [] } = { id := sc, sc := r, out := rs.map Effect.report }) :
    s.onShow sc f = (s.withScreen sc r).raiseAll rs := by
  simp only [State.onShow, hf, State.foldl_effect_reports]
  rfl

/-- A sound path operation whose record and reports are known. -/
theorem State.onSound_known (s : State) (sc : ScreenId) (f : SoundRun → SoundRun) (r : Sound) (rs : List Report)
    (hf : f { id := sc, sd := s.sound[sc], out := [] } = { id := sc, sd := r, out := rs }) :
    s.onSound sc f = (s.withSound sc r).raiseAll rs := by
  simp only [State.onSound, hf]
  rfl

@[simp] theorem State.onYard_screens (s : State) (f : Yard → Yard) : (s.onYard f).screens = s.screens := rfl
@[simp] theorem State.onYard_sound (s : State) (f : Yard → Yard) : (s.onYard f).sound = s.sound := rfl
@[simp] theorem State.onYard_lanes (s : State) (f : Yard → Yard) : (s.onYard f).lanes = s.lanes := rfl
@[simp] theorem State.onYard_link (s : State) (f : Yard → Yard) : (s.onYard f).link = s.link := rfl
@[simp] theorem State.onYard_pending (s : State) (f : Yard → Yard) : (s.onYard f).pending = s.pending := rfl
@[simp] theorem State.onYard_hostLine (s : State) (f : Yard → Yard) : (s.onYard f).hostLine = s.hostLine := rfl
@[simp] theorem State.onYard_yard (s : State) (f : Yard → Yard) : (s.onYard f).yard = f s.yard := rfl

@[simp] theorem State.onSound_screens (s : State) (sc : ScreenId) (f : SoundRun → SoundRun) :
    (s.onSound sc f).screens = s.screens := rfl
@[simp] theorem State.onSound_lanes (s : State) (sc : ScreenId) (f : SoundRun → SoundRun) :
    (s.onSound sc f).lanes = s.lanes := rfl
@[simp] theorem State.onSound_link (s : State) (sc : ScreenId) (f : SoundRun → SoundRun) :
    (s.onSound sc f).link = s.link := rfl
@[simp] theorem State.onSound_pending (s : State) (sc : ScreenId) (f : SoundRun → SoundRun) :
    (s.onSound sc f).pending = s.pending := rfl
@[simp] theorem State.onSound_hostLine (s : State) (sc : ScreenId) (f : SoundRun → SoundRun) :
    (s.onSound sc f).hostLine = s.hostLine := rfl
@[simp] theorem State.onSound_sound (s : State) (sc : ScreenId) (f : SoundRun → SoundRun) :
    (s.onSound sc f).sound = s.sound.set sc (f { id := sc, sd := s.sound[sc], out := [] }).sd := rfl

/-- What a timeline tells the other blocks reaches no screen, no lane, not the link and not the queue. -/
theorem State.effect_frame (sc : ScreenId) (s : State) (e : Effect) :
    (s.effect sc e).screens = s.screens ∧ (s.effect sc e).lanes = s.lanes ∧ (s.effect sc e).link = s.link ∧
      (s.effect sc e).pending = s.pending := by
  cases e <;> exact ⟨rfl, rfl, rfl, rfl⟩

theorem State.foldl_effect_frame (sc : ScreenId) (es : List Effect) (s : State) :
    (es.foldl (State.effect sc) s).screens = s.screens ∧ (es.foldl (State.effect sc) s).lanes = s.lanes ∧
      (es.foldl (State.effect sc) s).link = s.link ∧ (es.foldl (State.effect sc) s).pending = s.pending := by
  induction es generalizing s with
  | nil => exact ⟨rfl, rfl, rfl, rfl⟩
  | cons e es ih =>
    obtain ⟨a, b, c, d⟩ := ih (s.effect sc e)
    obtain ⟨a', b', c', d'⟩ := State.effect_frame sc s e
    exact ⟨a.trans a', b.trans b', c.trans c', d.trans d'⟩

@[simp] theorem State.onShow_screens (s : State) (sc : ScreenId) (f : ShowRun → ShowRun) :
    (s.onShow sc f).screens = s.screens.set sc (f { id := sc, sc := s.screens[sc], out := [] }).sc := by
  unfold State.onShow
  exact (State.foldl_effect_frame _ _ _).1

@[simp] theorem State.onShow_lanes (s : State) (sc : ScreenId) (f : ShowRun → ShowRun) :
    (s.onShow sc f).lanes = s.lanes := by
  unfold State.onShow
  exact (State.foldl_effect_frame _ _ _).2.1

@[simp] theorem State.onShow_link (s : State) (sc : ScreenId) (f : ShowRun → ShowRun) :
    (s.onShow sc f).link = s.link := by
  unfold State.onShow
  exact (State.foldl_effect_frame _ _ _).2.2.1

@[simp] theorem State.onShow_pending (s : State) (sc : ScreenId) (f : ShowRun → ShowRun) :
    (s.onShow sc f).pending = s.pending := by
  unfold State.onShow
  exact (State.foldl_effect_frame _ _ _).2.2.2

/-- What a timeline tells the other blocks reaches no other screen's sound path. -/
theorem State.foldl_effect_sound (sc k : ScreenId) (hk : k ≠ sc) (es : List Effect) (s : State) :
    (es.foldl (State.effect sc) s).sound[k] = s.sound[k] := by
  induction es generalizing s with
  | nil => rfl
  | cons e es ih =>
    rw [List.foldl_cons, ih]
    have hv : sc.val ≠ k.val := fun h => hk (Fin.ext h.symm)
    cases e with
    | report r => rfl
    | release => rfl
    | notice st =>
      simp only [State.effect, State.onSound_sound, Fin.getElem_fin]
      exact Vector.getElem_set_ne _ _ hv
    | frameEvent f =>
      simp only [State.effect, State.onSound_sound, Fin.getElem_fin]
      exact Vector.getElem_set_ne _ _ hv

theorem State.onShow_sound_other (s : State) (sc k : ScreenId) (hk : k ≠ sc) (f : ShowRun → ShowRun) :
    (s.onShow sc f).sound[k] = s.sound[k] := by
  unfold State.onShow
  exact State.foldl_effect_sound sc k hk _ _

@[simp] theorem State.onLane_screens (s : State) (ln : LaneId) (f : GateRun → GateRun) :
    (s.onLane ln f).screens = s.screens := rfl
@[simp] theorem State.onLane_sound (s : State) (ln : LaneId) (f : GateRun → GateRun) :
    (s.onLane ln f).sound = s.sound := rfl
@[simp] theorem State.onLane_link (s : State) (ln : LaneId) (f : GateRun → GateRun) :
    (s.onLane ln f).link = s.link := rfl
@[simp] theorem State.onLane_pending (s : State) (ln : LaneId) (f : GateRun → GateRun) :
    (s.onLane ln f).pending = s.pending := rfl
@[simp] theorem State.onLane_hostLine (s : State) (ln : LaneId) (f : GateRun → GateRun) :
    (s.onLane ln f).hostLine = s.hostLine := rfl
@[simp] theorem State.onLane_lanes (s : State) (ln : LaneId) (f : GateRun → GateRun) :
    (s.onLane ln f).lanes =
      s.lanes.set ln (f { id := ln, lane := s.lanes[ln], yard := s.yard, site := s.site }).lane := rfl
@[simp] theorem State.onLane_yard (s : State) (ln : LaneId) (f : GateRun → GateRun) :
    (s.onLane ln f).yard = (f { id := ln, lane := s.lanes[ln], yard := s.yard, site := s.site }).yard := rfl

end Sys2Proof.Machine
end

