-- ==== Sys2Proof/Laws/State.lean ====
section
/-! SUPPORT. One lemma per field for each plain update of a record: what the update leaves as it was. None of them unfolds
more than the update. -/

namespace Sys2Proof.Machine

/-! ## The yard -/

@[simp] theorem Yard.raise_loops (y : Yard) (r : Report) :
    (y.raise r).loops = y.loops := rfl

@[simp] theorem Yard.raise_store (y : Yard) (r : Report) :
    (y.raise r).store = y.store := rfl

@[simp] theorem Yard.raise_capacity (y : Yard) (r : Report) :
    (y.raise r).capacity = y.capacity := rfl

@[simp] theorem Yard.raise_admittedCount (y : Yard) (r : Report) :
    (y.raise r).admittedCount = y.admittedCount := rfl

@[simp] theorem Yard.raise_lastCar (y : Yard) (r : Report) :
    (y.raise r).lastCar = y.lastCar := rfl

@[simp] theorem Yard.raise_checkinSetting (y : Yard) (r : Report) :
    (y.raise r).checkinSetting = y.checkinSetting := rfl

@[simp] theorem Yard.raise_limits (y : Yard) (r : Report) :
    (y.raise r).limits = y.limits := rfl

@[simp] theorem Yard.raise_spkMarks (y : Yard) (r : Report) :
    (y.raise r).spkMarks = y.spkMarks := rfl

@[simp] theorem Yard.raise_lastOrder (y : Yard) (r : Report) :
    (y.raise r).lastOrder = y.lastOrder := rfl

@[simp] theorem Yard.raise_held (y : Yard) (r : Report) :
    (y.raise r).held = y.held := rfl

@[simp] theorem Yard.raise_queues (y : Yard) (r : Report) :
    (y.raise r).queues = y.queues := rfl

@[simp] theorem Yard.raise_readyList (y : Yard) (r : Report) :
    (y.raise r).readyList = y.readyList := rfl

@[simp] theorem Yard.raise_rowCounts (y : Yard) (r : Report) :
    (y.raise r).rowCounts = y.rowCounts := rfl

@[simp] theorem Yard.raise_lampMarks (y : Yard) (r : Report) :
    (y.raise r).lampMarks = y.lampMarks := rfl

@[simp] theorem Yard.raise_runners (y : Yard) (r : Report) :
    (y.raise r).runners = y.runners := rfl

@[simp] theorem Yard.raise_takeLimit (y : Yard) (r : Report) :
    (y.raise r).takeLimit = y.takeLimit := rfl

@[simp] theorem Yard.raise_freeIndex (y : Yard) (r : Report) :
    (y.raise r).freeIndex = y.freeIndex := rfl

@[simp] theorem Yard.modLoop_store (y : Yard) (lp : ScreenId) (g : LoopRec → LoopRec) :
    (y.modLoop lp g).store = y.store := rfl

@[simp] theorem Yard.modLoop_capacity (y : Yard) (lp : ScreenId) (g : LoopRec → LoopRec) :
    (y.modLoop lp g).capacity = y.capacity := rfl

@[simp] theorem Yard.modLoop_admittedCount (y : Yard) (lp : ScreenId) (g : LoopRec → LoopRec) :
    (y.modLoop lp g).admittedCount = y.admittedCount := rfl

@[simp] theorem Yard.modLoop_lastCar (y : Yard) (lp : ScreenId) (g : LoopRec → LoopRec) :
    (y.modLoop lp g).lastCar = y.lastCar := rfl

@[simp] theorem Yard.modLoop_checkinSetting (y : Yard) (lp : ScreenId) (g : LoopRec → LoopRec) :
    (y.modLoop lp g).checkinSetting = y.checkinSetting := rfl

@[simp] theorem Yard.modLoop_limits (y : Yard) (lp : ScreenId) (g : LoopRec → LoopRec) :
    (y.modLoop lp g).limits = y.limits := rfl

@[simp] theorem Yard.modLoop_spkMarks (y : Yard) (lp : ScreenId) (g : LoopRec → LoopRec) :
    (y.modLoop lp g).spkMarks = y.spkMarks := rfl

@[simp] theorem Yard.modLoop_lastOrder (y : Yard) (lp : ScreenId) (g : LoopRec → LoopRec) :
    (y.modLoop lp g).lastOrder = y.lastOrder := rfl

@[simp] theorem Yard.modLoop_held (y : Yard) (lp : ScreenId) (g : LoopRec → LoopRec) :
    (y.modLoop lp g).held = y.held := rfl

@[simp] theorem Yard.modLoop_queues (y : Yard) (lp : ScreenId) (g : LoopRec → LoopRec) :
    (y.modLoop lp g).queues = y.queues := rfl

@[simp] theorem Yard.modLoop_readyList (y : Yard) (lp : ScreenId) (g : LoopRec → LoopRec) :
    (y.modLoop lp g).readyList = y.readyList := rfl

@[simp] theorem Yard.modLoop_rowCounts (y : Yard) (lp : ScreenId) (g : LoopRec → LoopRec) :
    (y.modLoop lp g).rowCounts = y.rowCounts := rfl

@[simp] theorem Yard.modLoop_lampMarks (y : Yard) (lp : ScreenId) (g : LoopRec → LoopRec) :
    (y.modLoop lp g).lampMarks = y.lampMarks := rfl

@[simp] theorem Yard.modLoop_runners (y : Yard) (lp : ScreenId) (g : LoopRec → LoopRec) :
    (y.modLoop lp g).runners = y.runners := rfl

@[simp] theorem Yard.modLoop_takeLimit (y : Yard) (lp : ScreenId) (g : LoopRec → LoopRec) :
    (y.modLoop lp g).takeLimit = y.takeLimit := rfl

@[simp] theorem Yard.modLoop_raised (y : Yard) (lp : ScreenId) (g : LoopRec → LoopRec) :
    (y.modLoop lp g).raised = y.raised := rfl

@[simp] theorem Yard.modLoop_freeIndex (y : Yard) (lp : ScreenId) (g : LoopRec → LoopRec) :
    (y.modLoop lp g).freeIndex = y.freeIndex := rfl

@[simp] theorem Yard.setCarSlot_loops (y : Yard) (i : Nat) (sl : Slot Car) :
    (y.setCarSlot i sl).loops = y.loops := rfl

@[simp] theorem Yard.setCarSlot_capacity (y : Yard) (i : Nat) (sl : Slot Car) :
    (y.setCarSlot i sl).capacity = y.capacity := rfl

@[simp] theorem Yard.setCarSlot_admittedCount (y : Yard) (i : Nat) (sl : Slot Car) :
    (y.setCarSlot i sl).admittedCount = y.admittedCount := rfl

@[simp] theorem Yard.setCarSlot_lastCar (y : Yard) (i : Nat) (sl : Slot Car) :
    (y.setCarSlot i sl).lastCar = y.lastCar := rfl

@[simp] theorem Yard.setCarSlot_checkinSetting (y : Yard) (i : Nat) (sl : Slot Car) :
    (y.setCarSlot i sl).checkinSetting = y.checkinSetting := rfl

@[simp] theorem Yard.setCarSlot_limits (y : Yard) (i : Nat) (sl : Slot Car) :
    (y.setCarSlot i sl).limits = y.limits := rfl

@[simp] theorem Yard.setCarSlot_spkMarks (y : Yard) (i : Nat) (sl : Slot Car) :
    (y.setCarSlot i sl).spkMarks = y.spkMarks := rfl

@[simp] theorem Yard.setCarSlot_lastOrder (y : Yard) (i : Nat) (sl : Slot Car) :
    (y.setCarSlot i sl).lastOrder = y.lastOrder := rfl

@[simp] theorem Yard.setCarSlot_held (y : Yard) (i : Nat) (sl : Slot Car) :
    (y.setCarSlot i sl).held = y.held := rfl

@[simp] theorem Yard.setCarSlot_queues (y : Yard) (i : Nat) (sl : Slot Car) :
    (y.setCarSlot i sl).queues = y.queues := rfl

@[simp] theorem Yard.setCarSlot_readyList (y : Yard) (i : Nat) (sl : Slot Car) :
    (y.setCarSlot i sl).readyList = y.readyList := rfl

@[simp] theorem Yard.setCarSlot_rowCounts (y : Yard) (i : Nat) (sl : Slot Car) :
    (y.setCarSlot i sl).rowCounts = y.rowCounts := rfl

@[simp] theorem Yard.setCarSlot_lampMarks (y : Yard) (i : Nat) (sl : Slot Car) :
    (y.setCarSlot i sl).lampMarks = y.lampMarks := rfl

@[simp] theorem Yard.setCarSlot_runners (y : Yard) (i : Nat) (sl : Slot Car) :
    (y.setCarSlot i sl).runners = y.runners := rfl

@[simp] theorem Yard.setCarSlot_takeLimit (y : Yard) (i : Nat) (sl : Slot Car) :
    (y.setCarSlot i sl).takeLimit = y.takeLimit := rfl

@[simp] theorem Yard.setCarSlot_raised (y : Yard) (i : Nat) (sl : Slot Car) :
    (y.setCarSlot i sl).raised = y.raised := rfl

@[simp] theorem Yard.setCarSlot_freeIndex (y : Yard) (i : Nat) (sl : Slot Car) :
    (y.setCarSlot i sl).freeIndex = y.freeIndex := rfl

@[simp] theorem Yard.setBaySlot_loops (y : Yard) (i : Nat) (sl : Slot Bay) :
    (y.setBaySlot i sl).loops = y.loops := rfl

@[simp] theorem Yard.setBaySlot_capacity (y : Yard) (i : Nat) (sl : Slot Bay) :
    (y.setBaySlot i sl).capacity = y.capacity := rfl

@[simp] theorem Yard.setBaySlot_admittedCount (y : Yard) (i : Nat) (sl : Slot Bay) :
    (y.setBaySlot i sl).admittedCount = y.admittedCount := rfl

@[simp] theorem Yard.setBaySlot_lastCar (y : Yard) (i : Nat) (sl : Slot Bay) :
    (y.setBaySlot i sl).lastCar = y.lastCar := rfl

@[simp] theorem Yard.setBaySlot_checkinSetting (y : Yard) (i : Nat) (sl : Slot Bay) :
    (y.setBaySlot i sl).checkinSetting = y.checkinSetting := rfl

@[simp] theorem Yard.setBaySlot_limits (y : Yard) (i : Nat) (sl : Slot Bay) :
    (y.setBaySlot i sl).limits = y.limits := rfl

@[simp] theorem Yard.setBaySlot_spkMarks (y : Yard) (i : Nat) (sl : Slot Bay) :
    (y.setBaySlot i sl).spkMarks = y.spkMarks := rfl

@[simp] theorem Yard.setBaySlot_lastOrder (y : Yard) (i : Nat) (sl : Slot Bay) :
    (y.setBaySlot i sl).lastOrder = y.lastOrder := rfl

@[simp] theorem Yard.setBaySlot_held (y : Yard) (i : Nat) (sl : Slot Bay) :
    (y.setBaySlot i sl).held = y.held := rfl

@[simp] theorem Yard.setBaySlot_queues (y : Yard) (i : Nat) (sl : Slot Bay) :
    (y.setBaySlot i sl).queues = y.queues := rfl

@[simp] theorem Yard.setBaySlot_readyList (y : Yard) (i : Nat) (sl : Slot Bay) :
    (y.setBaySlot i sl).readyList = y.readyList := rfl

@[simp] theorem Yard.setBaySlot_rowCounts (y : Yard) (i : Nat) (sl : Slot Bay) :
    (y.setBaySlot i sl).rowCounts = y.rowCounts := rfl

@[simp] theorem Yard.setBaySlot_lampMarks (y : Yard) (i : Nat) (sl : Slot Bay) :
    (y.setBaySlot i sl).lampMarks = y.lampMarks := rfl

@[simp] theorem Yard.setBaySlot_runners (y : Yard) (i : Nat) (sl : Slot Bay) :
    (y.setBaySlot i sl).runners = y.runners := rfl

@[simp] theorem Yard.setBaySlot_takeLimit (y : Yard) (i : Nat) (sl : Slot Bay) :
    (y.setBaySlot i sl).takeLimit = y.takeLimit := rfl

@[simp] theorem Yard.setBaySlot_raised (y : Yard) (i : Nat) (sl : Slot Bay) :
    (y.setBaySlot i sl).raised = y.raised := rfl

@[simp] theorem Yard.setBaySlot_freeIndex (y : Yard) (i : Nat) (sl : Slot Bay) :
    (y.setBaySlot i sl).freeIndex = y.freeIndex := rfl

@[simp] theorem Yard.setOrderSlot_loops (y : Yard) (i : Nat) (sl : Slot Order) :
    (y.setOrderSlot i sl).loops = y.loops := rfl

@[simp] theorem Yard.setOrderSlot_capacity (y : Yard) (i : Nat) (sl : Slot Order) :
    (y.setOrderSlot i sl).capacity = y.capacity := rfl

@[simp] theorem Yard.setOrderSlot_admittedCount (y : Yard) (i : Nat) (sl : Slot Order) :
    (y.setOrderSlot i sl).admittedCount = y.admittedCount := rfl

@[simp] theorem Yard.setOrderSlot_lastCar (y : Yard) (i : Nat) (sl : Slot Order) :
    (y.setOrderSlot i sl).lastCar = y.lastCar := rfl

@[simp] theorem Yard.setOrderSlot_checkinSetting (y : Yard) (i : Nat) (sl : Slot Order) :
    (y.setOrderSlot i sl).checkinSetting = y.checkinSetting := rfl

@[simp] theorem Yard.setOrderSlot_limits (y : Yard) (i : Nat) (sl : Slot Order) :
    (y.setOrderSlot i sl).limits = y.limits := rfl

@[simp] theorem Yard.setOrderSlot_spkMarks (y : Yard) (i : Nat) (sl : Slot Order) :
    (y.setOrderSlot i sl).spkMarks = y.spkMarks := rfl

@[simp] theorem Yard.setOrderSlot_lastOrder (y : Yard) (i : Nat) (sl : Slot Order) :
    (y.setOrderSlot i sl).lastOrder = y.lastOrder := rfl

@[simp] theorem Yard.setOrderSlot_held (y : Yard) (i : Nat) (sl : Slot Order) :
    (y.setOrderSlot i sl).held = y.held := rfl

@[simp] theorem Yard.setOrderSlot_queues (y : Yard) (i : Nat) (sl : Slot Order) :
    (y.setOrderSlot i sl).queues = y.queues := rfl

@[simp] theorem Yard.setOrderSlot_readyList (y : Yard) (i : Nat) (sl : Slot Order) :
    (y.setOrderSlot i sl).readyList = y.readyList := rfl

@[simp] theorem Yard.setOrderSlot_rowCounts (y : Yard) (i : Nat) (sl : Slot Order) :
    (y.setOrderSlot i sl).rowCounts = y.rowCounts := rfl

@[simp] theorem Yard.setOrderSlot_lampMarks (y : Yard) (i : Nat) (sl : Slot Order) :
    (y.setOrderSlot i sl).lampMarks = y.lampMarks := rfl

@[simp] theorem Yard.setOrderSlot_runners (y : Yard) (i : Nat) (sl : Slot Order) :
    (y.setOrderSlot i sl).runners = y.runners := rfl

@[simp] theorem Yard.setOrderSlot_takeLimit (y : Yard) (i : Nat) (sl : Slot Order) :
    (y.setOrderSlot i sl).takeLimit = y.takeLimit := rfl

@[simp] theorem Yard.setOrderSlot_raised (y : Yard) (i : Nat) (sl : Slot Order) :
    (y.setOrderSlot i sl).raised = y.raised := rfl

@[simp] theorem Yard.setOrderSlot_freeIndex (y : Yard) (i : Nat) (sl : Slot Order) :
    (y.setOrderSlot i sl).freeIndex = y.freeIndex := rfl

@[simp] theorem Yard.setMenuSlot_loops (y : Yard) (i : Nat) (sl : Slot MenuItem) :
    (y.setMenuSlot i sl).loops = y.loops := rfl

@[simp] theorem Yard.setMenuSlot_capacity (y : Yard) (i : Nat) (sl : Slot MenuItem) :
    (y.setMenuSlot i sl).capacity = y.capacity := rfl

@[simp] theorem Yard.setMenuSlot_admittedCount (y : Yard) (i : Nat) (sl : Slot MenuItem) :
    (y.setMenuSlot i sl).admittedCount = y.admittedCount := rfl

@[simp] theorem Yard.setMenuSlot_lastCar (y : Yard) (i : Nat) (sl : Slot MenuItem) :
    (y.setMenuSlot i sl).lastCar = y.lastCar := rfl

@[simp] theorem Yard.setMenuSlot_checkinSetting (y : Yard) (i : Nat) (sl : Slot MenuItem) :
    (y.setMenuSlot i sl).checkinSetting = y.checkinSetting := rfl

@[simp] theorem Yard.setMenuSlot_limits (y : Yard) (i : Nat) (sl : Slot MenuItem) :
    (y.setMenuSlot i sl).limits = y.limits := rfl

@[simp] theorem Yard.setMenuSlot_spkMarks (y : Yard) (i : Nat) (sl : Slot MenuItem) :
    (y.setMenuSlot i sl).spkMarks = y.spkMarks := rfl

@[simp] theorem Yard.setMenuSlot_lastOrder (y : Yard) (i : Nat) (sl : Slot MenuItem) :
    (y.setMenuSlot i sl).lastOrder = y.lastOrder := rfl

@[simp] theorem Yard.setMenuSlot_held (y : Yard) (i : Nat) (sl : Slot MenuItem) :
    (y.setMenuSlot i sl).held = y.held := rfl

@[simp] theorem Yard.setMenuSlot_queues (y : Yard) (i : Nat) (sl : Slot MenuItem) :
    (y.setMenuSlot i sl).queues = y.queues := rfl

@[simp] theorem Yard.setMenuSlot_readyList (y : Yard) (i : Nat) (sl : Slot MenuItem) :
    (y.setMenuSlot i sl).readyList = y.readyList := rfl

@[simp] theorem Yard.setMenuSlot_rowCounts (y : Yard) (i : Nat) (sl : Slot MenuItem) :
    (y.setMenuSlot i sl).rowCounts = y.rowCounts := rfl

@[simp] theorem Yard.setMenuSlot_lampMarks (y : Yard) (i : Nat) (sl : Slot MenuItem) :
    (y.setMenuSlot i sl).lampMarks = y.lampMarks := rfl

@[simp] theorem Yard.setMenuSlot_runners (y : Yard) (i : Nat) (sl : Slot MenuItem) :
    (y.setMenuSlot i sl).runners = y.runners := rfl

@[simp] theorem Yard.setMenuSlot_takeLimit (y : Yard) (i : Nat) (sl : Slot MenuItem) :
    (y.setMenuSlot i sl).takeLimit = y.takeLimit := rfl

@[simp] theorem Yard.setMenuSlot_raised (y : Yard) (i : Nat) (sl : Slot MenuItem) :
    (y.setMenuSlot i sl).raised = y.raised := rfl

@[simp] theorem Yard.setMenuSlot_freeIndex (y : Yard) (i : Nat) (sl : Slot MenuItem) :
    (y.setMenuSlot i sl).freeIndex = y.freeIndex := rfl

@[simp] theorem Yard.setTicketSlot_loops (y : Yard) (i : Nat) (sl : Slot Ticket) :
    (y.setTicketSlot i sl).loops = y.loops := rfl

@[simp] theorem Yard.setTicketSlot_capacity (y : Yard) (i : Nat) (sl : Slot Ticket) :
    (y.setTicketSlot i sl).capacity = y.capacity := rfl

@[simp] theorem Yard.setTicketSlot_admittedCount (y : Yard) (i : Nat) (sl : Slot Ticket) :
    (y.setTicketSlot i sl).admittedCount = y.admittedCount := rfl

@[simp] theorem Yard.setTicketSlot_lastCar (y : Yard) (i : Nat) (sl : Slot Ticket) :
    (y.setTicketSlot i sl).lastCar = y.lastCar := rfl

@[simp] theorem Yard.setTicketSlot_checkinSetting (y : Yard) (i : Nat) (sl : Slot Ticket) :
    (y.setTicketSlot i sl).checkinSetting = y.checkinSetting := rfl

@[simp] theorem Yard.setTicketSlot_limits (y : Yard) (i : Nat) (sl : Slot Ticket) :
    (y.setTicketSlot i sl).limits = y.limits := rfl

@[simp] theorem Yard.setTicketSlot_spkMarks (y : Yard) (i : Nat) (sl : Slot Ticket) :
    (y.setTicketSlot i sl).spkMarks = y.spkMarks := rfl

@[simp] theorem Yard.setTicketSlot_lastOrder (y : Yard) (i : Nat) (sl : Slot Ticket) :
    (y.setTicketSlot i sl).lastOrder = y.lastOrder := rfl

@[simp] theorem Yard.setTicketSlot_held (y : Yard) (i : Nat) (sl : Slot Ticket) :
    (y.setTicketSlot i sl).held = y.held := rfl

@[simp] theorem Yard.setTicketSlot_queues (y : Yard) (i : Nat) (sl : Slot Ticket) :
    (y.setTicketSlot i sl).queues = y.queues := rfl

@[simp] theorem Yard.setTicketSlot_readyList (y : Yard) (i : Nat) (sl : Slot Ticket) :
    (y.setTicketSlot i sl).readyList = y.readyList := rfl

@[simp] theorem Yard.setTicketSlot_rowCounts (y : Yard) (i : Nat) (sl : Slot Ticket) :
    (y.setTicketSlot i sl).rowCounts = y.rowCounts := rfl

@[simp] theorem Yard.setTicketSlot_lampMarks (y : Yard) (i : Nat) (sl : Slot Ticket) :
    (y.setTicketSlot i sl).lampMarks = y.lampMarks := rfl

@[simp] theorem Yard.setTicketSlot_runners (y : Yard) (i : Nat) (sl : Slot Ticket) :
    (y.setTicketSlot i sl).runners = y.runners := rfl

@[simp] theorem Yard.setTicketSlot_takeLimit (y : Yard) (i : Nat) (sl : Slot Ticket) :
    (y.setTicketSlot i sl).takeLimit = y.takeLimit := rfl

@[simp] theorem Yard.setTicketSlot_raised (y : Yard) (i : Nat) (sl : Slot Ticket) :
    (y.setTicketSlot i sl).raised = y.raised := rfl

@[simp] theorem Yard.setTicketSlot_freeIndex (y : Yard) (i : Nat) (sl : Slot Ticket) :
    (y.setTicketSlot i sl).freeIndex = y.freeIndex := rfl

@[simp] theorem Yard.setRunner_loops (y : Yard) (r : RunnerId) (k : Runner) :
    (y.setRunner r k).loops = y.loops := rfl

@[simp] theorem Yard.setRunner_store (y : Yard) (r : RunnerId) (k : Runner) :
    (y.setRunner r k).store = y.store := rfl

@[simp] theorem Yard.setRunner_capacity (y : Yard) (r : RunnerId) (k : Runner) :
    (y.setRunner r k).capacity = y.capacity := rfl

@[simp] theorem Yard.setRunner_admittedCount (y : Yard) (r : RunnerId) (k : Runner) :
    (y.setRunner r k).admittedCount = y.admittedCount := rfl

@[simp] theorem Yard.setRunner_lastCar (y : Yard) (r : RunnerId) (k : Runner) :
    (y.setRunner r k).lastCar = y.lastCar := rfl

@[simp] theorem Yard.setRunner_checkinSetting (y : Yard) (r : RunnerId) (k : Runner) :
    (y.setRunner r k).checkinSetting = y.checkinSetting := rfl

@[simp] theorem Yard.setRunner_limits (y : Yard) (r : RunnerId) (k : Runner) :
    (y.setRunner r k).limits = y.limits := rfl

@[simp] theorem Yard.setRunner_spkMarks (y : Yard) (r : RunnerId) (k : Runner) :
    (y.setRunner r k).spkMarks = y.spkMarks := rfl

@[simp] theorem Yard.setRunner_lastOrder (y : Yard) (r : RunnerId) (k : Runner) :
    (y.setRunner r k).lastOrder = y.lastOrder := rfl

@[simp] theorem Yard.setRunner_held (y : Yard) (r : RunnerId) (k : Runner) :
    (y.setRunner r k).held = y.held := rfl

@[simp] theorem Yard.setRunner_queues (y : Yard) (r : RunnerId) (k : Runner) :
    (y.setRunner r k).queues = y.queues := rfl

@[simp] theorem Yard.setRunner_readyList (y : Yard) (r : RunnerId) (k : Runner) :
    (y.setRunner r k).readyList = y.readyList := rfl

@[simp] theorem Yard.setRunner_rowCounts (y : Yard) (r : RunnerId) (k : Runner) :
    (y.setRunner r k).rowCounts = y.rowCounts := rfl

@[simp] theorem Yard.setRunner_lampMarks (y : Yard) (r : RunnerId) (k : Runner) :
    (y.setRunner r k).lampMarks = y.lampMarks := rfl

@[simp] theorem Yard.setRunner_takeLimit (y : Yard) (r : RunnerId) (k : Runner) :
    (y.setRunner r k).takeLimit = y.takeLimit := rfl

@[simp] theorem Yard.setRunner_raised (y : Yard) (r : RunnerId) (k : Runner) :
    (y.setRunner r k).raised = y.raised := rfl

@[simp] theorem Yard.setRunner_freeIndex (y : Yard) (r : RunnerId) (k : Runner) :
    (y.setRunner r k).freeIndex = y.freeIndex := rfl

@[simp] theorem Yard.setAdmitted_loops (y : Yard) (sc : ScreenId) (n : Nat) :
    (y.setAdmitted sc n).loops = y.loops := rfl

@[simp] theorem Yard.setAdmitted_store (y : Yard) (sc : ScreenId) (n : Nat) :
    (y.setAdmitted sc n).store = y.store := rfl

@[simp] theorem Yard.setAdmitted_capacity (y : Yard) (sc : ScreenId) (n : Nat) :
    (y.setAdmitted sc n).capacity = y.capacity := rfl

@[simp] theorem Yard.setAdmitted_lastCar (y : Yard) (sc : ScreenId) (n : Nat) :
    (y.setAdmitted sc n).lastCar = y.lastCar := rfl

@[simp] theorem Yard.setAdmitted_checkinSetting (y : Yard) (sc : ScreenId) (n : Nat) :
    (y.setAdmitted sc n).checkinSetting = y.checkinSetting := rfl

@[simp] theorem Yard.setAdmitted_limits (y : Yard) (sc : ScreenId) (n : Nat) :
    (y.setAdmitted sc n).limits = y.limits := rfl

@[simp] theorem Yard.setAdmitted_spkMarks (y : Yard) (sc : ScreenId) (n : Nat) :
    (y.setAdmitted sc n).spkMarks = y.spkMarks := rfl

@[simp] theorem Yard.setAdmitted_lastOrder (y : Yard) (sc : ScreenId) (n : Nat) :
    (y.setAdmitted sc n).lastOrder = y.lastOrder := rfl

@[simp] theorem Yard.setAdmitted_held (y : Yard) (sc : ScreenId) (n : Nat) :
    (y.setAdmitted sc n).held = y.held := rfl

@[simp] theorem Yard.setAdmitted_queues (y : Yard) (sc : ScreenId) (n : Nat) :
    (y.setAdmitted sc n).queues = y.queues := rfl

@[simp] theorem Yard.setAdmitted_readyList (y : Yard) (sc : ScreenId) (n : Nat) :
    (y.setAdmitted sc n).readyList = y.readyList := rfl

@[simp] theorem Yard.setAdmitted_rowCounts (y : Yard) (sc : ScreenId) (n : Nat) :
    (y.setAdmitted sc n).rowCounts = y.rowCounts := rfl

@[simp] theorem Yard.setAdmitted_lampMarks (y : Yard) (sc : ScreenId) (n : Nat) :
    (y.setAdmitted sc n).lampMarks = y.lampMarks := rfl

@[simp] theorem Yard.setAdmitted_runners (y : Yard) (sc : ScreenId) (n : Nat) :
    (y.setAdmitted sc n).runners = y.runners := rfl

@[simp] theorem Yard.setAdmitted_takeLimit (y : Yard) (sc : ScreenId) (n : Nat) :
    (y.setAdmitted sc n).takeLimit = y.takeLimit := rfl

@[simp] theorem Yard.setAdmitted_raised (y : Yard) (sc : ScreenId) (n : Nat) :
    (y.setAdmitted sc n).raised = y.raised := rfl

@[simp] theorem Yard.setAdmitted_freeIndex (y : Yard) (sc : ScreenId) (n : Nat) :
    (y.setAdmitted sc n).freeIndex = y.freeIndex := rfl

@[simp] theorem Yard.setSpkMark_loops (y : Yard) (b : Nat) (m : Bool) :
    (y.setSpkMark b m).loops = y.loops := rfl

@[simp] theorem Yard.setSpkMark_store (y : Yard) (b : Nat) (m : Bool) :
    (y.setSpkMark b m).store = y.store := rfl

@[simp] theorem Yard.setSpkMark_capacity (y : Yard) (b : Nat) (m : Bool) :
    (y.setSpkMark b m).capacity = y.capacity := rfl

@[simp] theorem Yard.setSpkMark_admittedCount (y : Yard) (b : Nat) (m : Bool) :
    (y.setSpkMark b m).admittedCount = y.admittedCount := rfl

@[simp] theorem Yard.setSpkMark_lastCar (y : Yard) (b : Nat) (m : Bool) :
    (y.setSpkMark b m).lastCar = y.lastCar := rfl

@[simp] theorem Yard.setSpkMark_checkinSetting (y : Yard) (b : Nat) (m : Bool) :
    (y.setSpkMark b m).checkinSetting = y.checkinSetting := rfl

@[simp] theorem Yard.setSpkMark_limits (y : Yard) (b : Nat) (m : Bool) :
    (y.setSpkMark b m).limits = y.limits := rfl

@[simp] theorem Yard.setSpkMark_lastOrder (y : Yard) (b : Nat) (m : Bool) :
    (y.setSpkMark b m).lastOrder = y.lastOrder := rfl

@[simp] theorem Yard.setSpkMark_held (y : Yard) (b : Nat) (m : Bool) :
    (y.setSpkMark b m).held = y.held := rfl

@[simp] theorem Yard.setSpkMark_queues (y : Yard) (b : Nat) (m : Bool) :
    (y.setSpkMark b m).queues = y.queues := rfl

@[simp] theorem Yard.setSpkMark_readyList (y : Yard) (b : Nat) (m : Bool) :
    (y.setSpkMark b m).readyList = y.readyList := rfl

@[simp] theorem Yard.setSpkMark_rowCounts (y : Yard) (b : Nat) (m : Bool) :
    (y.setSpkMark b m).rowCounts = y.rowCounts := rfl

@[simp] theorem Yard.setSpkMark_lampMarks (y : Yard) (b : Nat) (m : Bool) :
    (y.setSpkMark b m).lampMarks = y.lampMarks := rfl

@[simp] theorem Yard.setSpkMark_runners (y : Yard) (b : Nat) (m : Bool) :
    (y.setSpkMark b m).runners = y.runners := rfl

@[simp] theorem Yard.setSpkMark_takeLimit (y : Yard) (b : Nat) (m : Bool) :
    (y.setSpkMark b m).takeLimit = y.takeLimit := rfl

@[simp] theorem Yard.setSpkMark_raised (y : Yard) (b : Nat) (m : Bool) :
    (y.setSpkMark b m).raised = y.raised := rfl

@[simp] theorem Yard.setSpkMark_freeIndex (y : Yard) (b : Nat) (m : Bool) :
    (y.setSpkMark b m).freeIndex = y.freeIndex := rfl

@[simp] theorem Yard.setLampMark_loops (y : Yard) (b : Nat) (m : Bool) :
    (y.setLampMark b m).loops = y.loops := rfl

@[simp] theorem Yard.setLampMark_store (y : Yard) (b : Nat) (m : Bool) :
    (y.setLampMark b m).store = y.store := rfl

@[simp] theorem Yard.setLampMark_capacity (y : Yard) (b : Nat) (m : Bool) :
    (y.setLampMark b m).capacity = y.capacity := rfl

@[simp] theorem Yard.setLampMark_admittedCount (y : Yard) (b : Nat) (m : Bool) :
    (y.setLampMark b m).admittedCount = y.admittedCount := rfl

@[simp] theorem Yard.setLampMark_lastCar (y : Yard) (b : Nat) (m : Bool) :
    (y.setLampMark b m).lastCar = y.lastCar := rfl

@[simp] theorem Yard.setLampMark_checkinSetting (y : Yard) (b : Nat) (m : Bool) :
    (y.setLampMark b m).checkinSetting = y.checkinSetting := rfl

@[simp] theorem Yard.setLampMark_limits (y : Yard) (b : Nat) (m : Bool) :
    (y.setLampMark b m).limits = y.limits := rfl

@[simp] theorem Yard.setLampMark_spkMarks (y : Yard) (b : Nat) (m : Bool) :
    (y.setLampMark b m).spkMarks = y.spkMarks := rfl

@[simp] theorem Yard.setLampMark_lastOrder (y : Yard) (b : Nat) (m : Bool) :
    (y.setLampMark b m).lastOrder = y.lastOrder := rfl

@[simp] theorem Yard.setLampMark_held (y : Yard) (b : Nat) (m : Bool) :
    (y.setLampMark b m).held = y.held := rfl

@[simp] theorem Yard.setLampMark_queues (y : Yard) (b : Nat) (m : Bool) :
    (y.setLampMark b m).queues = y.queues := rfl

@[simp] theorem Yard.setLampMark_readyList (y : Yard) (b : Nat) (m : Bool) :
    (y.setLampMark b m).readyList = y.readyList := rfl

@[simp] theorem Yard.setLampMark_rowCounts (y : Yard) (b : Nat) (m : Bool) :
    (y.setLampMark b m).rowCounts = y.rowCounts := rfl

@[simp] theorem Yard.setLampMark_runners (y : Yard) (b : Nat) (m : Bool) :
    (y.setLampMark b m).runners = y.runners := rfl

@[simp] theorem Yard.setLampMark_takeLimit (y : Yard) (b : Nat) (m : Bool) :
    (y.setLampMark b m).takeLimit = y.takeLimit := rfl

@[simp] theorem Yard.setLampMark_raised (y : Yard) (b : Nat) (m : Bool) :
    (y.setLampMark b m).raised = y.raised := rfl

@[simp] theorem Yard.setLampMark_freeIndex (y : Yard) (b : Nat) (m : Bool) :
    (y.setLampMark b m).freeIndex = y.freeIndex := rfl

@[simp] theorem Yard.startLimit_loops (y : Yard) (n : Nat) :
    (y.startLimit n).loops = y.loops := rfl

@[simp] theorem Yard.startLimit_store (y : Yard) (n : Nat) :
    (y.startLimit n).store = y.store := rfl

@[simp] theorem Yard.startLimit_capacity (y : Yard) (n : Nat) :
    (y.startLimit n).capacity = y.capacity := rfl

@[simp] theorem Yard.startLimit_admittedCount (y : Yard) (n : Nat) :
    (y.startLimit n).admittedCount = y.admittedCount := rfl

@[simp] theorem Yard.startLimit_lastCar (y : Yard) (n : Nat) :
    (y.startLimit n).lastCar = y.lastCar := rfl

@[simp] theorem Yard.startLimit_checkinSetting (y : Yard) (n : Nat) :
    (y.startLimit n).checkinSetting = y.checkinSetting := rfl

@[simp] theorem Yard.startLimit_spkMarks (y : Yard) (n : Nat) :
    (y.startLimit n).spkMarks = y.spkMarks := rfl

@[simp] theorem Yard.startLimit_lastOrder (y : Yard) (n : Nat) :
    (y.startLimit n).lastOrder = y.lastOrder := rfl

@[simp] theorem Yard.startLimit_held (y : Yard) (n : Nat) :
    (y.startLimit n).held = y.held := rfl

@[simp] theorem Yard.startLimit_queues (y : Yard) (n : Nat) :
    (y.startLimit n).queues = y.queues := rfl

@[simp] theorem Yard.startLimit_readyList (y : Yard) (n : Nat) :
    (y.startLimit n).readyList = y.readyList := rfl

@[simp] theorem Yard.startLimit_rowCounts (y : Yard) (n : Nat) :
    (y.startLimit n).rowCounts = y.rowCounts := rfl

@[simp] theorem Yard.startLimit_lampMarks (y : Yard) (n : Nat) :
    (y.startLimit n).lampMarks = y.lampMarks := rfl

@[simp] theorem Yard.startLimit_runners (y : Yard) (n : Nat) :
    (y.startLimit n).runners = y.runners := rfl

@[simp] theorem Yard.startLimit_takeLimit (y : Yard) (n : Nat) :
    (y.startLimit n).takeLimit = y.takeLimit := rfl

@[simp] theorem Yard.startLimit_raised (y : Yard) (n : Nat) :
    (y.startLimit n).raised = y.raised := rfl

@[simp] theorem Yard.startLimit_freeIndex (y : Yard) (n : Nat) :
    (y.startLimit n).freeIndex = y.freeIndex := rfl

@[simp] theorem Yard.stopLimit_loops (y : Yard) (n : Nat) :
    (y.stopLimit n).loops = y.loops := rfl

@[simp] theorem Yard.stopLimit_store (y : Yard) (n : Nat) :
    (y.stopLimit n).store = y.store := rfl

@[simp] theorem Yard.stopLimit_capacity (y : Yard) (n : Nat) :
    (y.stopLimit n).capacity = y.capacity := rfl

@[simp] theorem Yard.stopLimit_admittedCount (y : Yard) (n : Nat) :
    (y.stopLimit n).admittedCount = y.admittedCount := rfl

@[simp] theorem Yard.stopLimit_lastCar (y : Yard) (n : Nat) :
    (y.stopLimit n).lastCar = y.lastCar := rfl

@[simp] theorem Yard.stopLimit_checkinSetting (y : Yard) (n : Nat) :
    (y.stopLimit n).checkinSetting = y.checkinSetting := rfl

@[simp] theorem Yard.stopLimit_spkMarks (y : Yard) (n : Nat) :
    (y.stopLimit n).spkMarks = y.spkMarks := rfl

@[simp] theorem Yard.stopLimit_lastOrder (y : Yard) (n : Nat) :
    (y.stopLimit n).lastOrder = y.lastOrder := rfl

@[simp] theorem Yard.stopLimit_held (y : Yard) (n : Nat) :
    (y.stopLimit n).held = y.held := rfl

@[simp] theorem Yard.stopLimit_queues (y : Yard) (n : Nat) :
    (y.stopLimit n).queues = y.queues := rfl

@[simp] theorem Yard.stopLimit_readyList (y : Yard) (n : Nat) :
    (y.stopLimit n).readyList = y.readyList := rfl

@[simp] theorem Yard.stopLimit_rowCounts (y : Yard) (n : Nat) :
    (y.stopLimit n).rowCounts = y.rowCounts := rfl

@[simp] theorem Yard.stopLimit_lampMarks (y : Yard) (n : Nat) :
    (y.stopLimit n).lampMarks = y.lampMarks := rfl

@[simp] theorem Yard.stopLimit_runners (y : Yard) (n : Nat) :
    (y.stopLimit n).runners = y.runners := rfl

@[simp] theorem Yard.stopLimit_takeLimit (y : Yard) (n : Nat) :
    (y.stopLimit n).takeLimit = y.takeLimit := rfl

@[simp] theorem Yard.stopLimit_raised (y : Yard) (n : Nat) :
    (y.stopLimit n).raised = y.raised := rfl

@[simp] theorem Yard.stopLimit_freeIndex (y : Yard) (n : Nat) :
    (y.stopLimit n).freeIndex = y.freeIndex := rfl

@[simp] theorem Yard.unhold_loops (y : Yard) (n : Nat) :
    (y.unhold n).loops = y.loops := rfl

@[simp] theorem Yard.unhold_store (y : Yard) (n : Nat) :
    (y.unhold n).store = y.store := rfl

@[simp] theorem Yard.unhold_capacity (y : Yard) (n : Nat) :
    (y.unhold n).capacity = y.capacity := rfl

@[simp] theorem Yard.unhold_admittedCount (y : Yard) (n : Nat) :
    (y.unhold n).admittedCount = y.admittedCount := rfl

@[simp] theorem Yard.unhold_lastCar (y : Yard) (n : Nat) :
    (y.unhold n).lastCar = y.lastCar := rfl

@[simp] theorem Yard.unhold_checkinSetting (y : Yard) (n : Nat) :
    (y.unhold n).checkinSetting = y.checkinSetting := rfl

@[simp] theorem Yard.unhold_limits (y : Yard) (n : Nat) :
    (y.unhold n).limits = y.limits := rfl

@[simp] theorem Yard.unhold_spkMarks (y : Yard) (n : Nat) :
    (y.unhold n).spkMarks = y.spkMarks := rfl

@[simp] theorem Yard.unhold_lastOrder (y : Yard) (n : Nat) :
    (y.unhold n).lastOrder = y.lastOrder := rfl

@[simp] theorem Yard.unhold_queues (y : Yard) (n : Nat) :
    (y.unhold n).queues = y.queues := rfl

@[simp] theorem Yard.unhold_readyList (y : Yard) (n : Nat) :
    (y.unhold n).readyList = y.readyList := rfl

@[simp] theorem Yard.unhold_rowCounts (y : Yard) (n : Nat) :
    (y.unhold n).rowCounts = y.rowCounts := rfl

@[simp] theorem Yard.unhold_lampMarks (y : Yard) (n : Nat) :
    (y.unhold n).lampMarks = y.lampMarks := rfl

@[simp] theorem Yard.unhold_runners (y : Yard) (n : Nat) :
    (y.unhold n).runners = y.runners := rfl

@[simp] theorem Yard.unhold_takeLimit (y : Yard) (n : Nat) :
    (y.unhold n).takeLimit = y.takeLimit := rfl

@[simp] theorem Yard.unhold_raised (y : Yard) (n : Nat) :
    (y.unhold n).raised = y.raised := rfl

@[simp] theorem Yard.unhold_freeIndex (y : Yard) (n : Nat) :
    (y.unhold n).freeIndex = y.freeIndex := rfl

@[simp] theorem Yard.hold_loops (y : Yard) (sc : ScreenId) (e : HeldEntry) :
    (y.hold sc e).loops = y.loops := rfl

@[simp] theorem Yard.hold_store (y : Yard) (sc : ScreenId) (e : HeldEntry) :
    (y.hold sc e).store = y.store := rfl

@[simp] theorem Yard.hold_capacity (y : Yard) (sc : ScreenId) (e : HeldEntry) :
    (y.hold sc e).capacity = y.capacity := rfl

@[simp] theorem Yard.hold_admittedCount (y : Yard) (sc : ScreenId) (e : HeldEntry) :
    (y.hold sc e).admittedCount = y.admittedCount := rfl

@[simp] theorem Yard.hold_lastCar (y : Yard) (sc : ScreenId) (e : HeldEntry) :
    (y.hold sc e).lastCar = y.lastCar := rfl

@[simp] theorem Yard.hold_checkinSetting (y : Yard) (sc : ScreenId) (e : HeldEntry) :
    (y.hold sc e).checkinSetting = y.checkinSetting := rfl

@[simp] theorem Yard.hold_limits (y : Yard) (sc : ScreenId) (e : HeldEntry) :
    (y.hold sc e).limits = y.limits := rfl

@[simp] theorem Yard.hold_spkMarks (y : Yard) (sc : ScreenId) (e : HeldEntry) :
    (y.hold sc e).spkMarks = y.spkMarks := rfl

@[simp] theorem Yard.hold_lastOrder (y : Yard) (sc : ScreenId) (e : HeldEntry) :
    (y.hold sc e).lastOrder = y.lastOrder := rfl

@[simp] theorem Yard.hold_queues (y : Yard) (sc : ScreenId) (e : HeldEntry) :
    (y.hold sc e).queues = y.queues := rfl

@[simp] theorem Yard.hold_readyList (y : Yard) (sc : ScreenId) (e : HeldEntry) :
    (y.hold sc e).readyList = y.readyList := rfl

@[simp] theorem Yard.hold_rowCounts (y : Yard) (sc : ScreenId) (e : HeldEntry) :
    (y.hold sc e).rowCounts = y.rowCounts := rfl

@[simp] theorem Yard.hold_lampMarks (y : Yard) (sc : ScreenId) (e : HeldEntry) :
    (y.hold sc e).lampMarks = y.lampMarks := rfl

@[simp] theorem Yard.hold_runners (y : Yard) (sc : ScreenId) (e : HeldEntry) :
    (y.hold sc e).runners = y.runners := rfl

@[simp] theorem Yard.hold_takeLimit (y : Yard) (sc : ScreenId) (e : HeldEntry) :
    (y.hold sc e).takeLimit = y.takeLimit := rfl

@[simp] theorem Yard.hold_raised (y : Yard) (sc : ScreenId) (e : HeldEntry) :
    (y.hold sc e).raised = y.raised := rfl

@[simp] theorem Yard.hold_freeIndex (y : Yard) (sc : ScreenId) (e : HeldEntry) :
    (y.hold sc e).freeIndex = y.freeIndex := rfl

@[simp] theorem Yard.dequeueOrder_loops (y : Yard) (n : Nat) :
    (y.dequeueOrder n).loops = y.loops := rfl

@[simp] theorem Yard.dequeueOrder_store (y : Yard) (n : Nat) :
    (y.dequeueOrder n).store = y.store := rfl

@[simp] theorem Yard.dequeueOrder_capacity (y : Yard) (n : Nat) :
    (y.dequeueOrder n).capacity = y.capacity := rfl

@[simp] theorem Yard.dequeueOrder_admittedCount (y : Yard) (n : Nat) :
    (y.dequeueOrder n).admittedCount = y.admittedCount := rfl

@[simp] theorem Yard.dequeueOrder_lastCar (y : Yard) (n : Nat) :
    (y.dequeueOrder n).lastCar = y.lastCar := rfl

@[simp] theorem Yard.dequeueOrder_checkinSetting (y : Yard) (n : Nat) :
    (y.dequeueOrder n).checkinSetting = y.checkinSetting := rfl

@[simp] theorem Yard.dequeueOrder_limits (y : Yard) (n : Nat) :
    (y.dequeueOrder n).limits = y.limits := rfl

@[simp] theorem Yard.dequeueOrder_spkMarks (y : Yard) (n : Nat) :
    (y.dequeueOrder n).spkMarks = y.spkMarks := rfl

@[simp] theorem Yard.dequeueOrder_lastOrder (y : Yard) (n : Nat) :
    (y.dequeueOrder n).lastOrder = y.lastOrder := rfl

@[simp] theorem Yard.dequeueOrder_held (y : Yard) (n : Nat) :
    (y.dequeueOrder n).held = y.held := rfl

@[simp] theorem Yard.dequeueOrder_readyList (y : Yard) (n : Nat) :
    (y.dequeueOrder n).readyList = y.readyList := rfl

@[simp] theorem Yard.dequeueOrder_rowCounts (y : Yard) (n : Nat) :
    (y.dequeueOrder n).rowCounts = y.rowCounts := rfl

@[simp] theorem Yard.dequeueOrder_lampMarks (y : Yard) (n : Nat) :
    (y.dequeueOrder n).lampMarks = y.lampMarks := rfl

@[simp] theorem Yard.dequeueOrder_runners (y : Yard) (n : Nat) :
    (y.dequeueOrder n).runners = y.runners := rfl

@[simp] theorem Yard.dequeueOrder_takeLimit (y : Yard) (n : Nat) :
    (y.dequeueOrder n).takeLimit = y.takeLimit := rfl

@[simp] theorem Yard.dequeueOrder_raised (y : Yard) (n : Nat) :
    (y.dequeueOrder n).raised = y.raised := rfl

@[simp] theorem Yard.dequeueOrder_freeIndex (y : Yard) (n : Nat) :
    (y.dequeueOrder n).freeIndex = y.freeIndex := rfl

@[simp] theorem Yard.enqueue_loops (y : Yard) (st : StationId) (q : LineRef) :
    (y.enqueue st q).loops = y.loops := rfl

@[simp] theorem Yard.enqueue_store (y : Yard) (st : StationId) (q : LineRef) :
    (y.enqueue st q).store = y.store := rfl

@[simp] theorem Yard.enqueue_capacity (y : Yard) (st : StationId) (q : LineRef) :
    (y.enqueue st q).capacity = y.capacity := rfl

@[simp] theorem Yard.enqueue_admittedCount (y : Yard) (st : StationId) (q : LineRef) :
    (y.enqueue st q).admittedCount = y.admittedCount := rfl

@[simp] theorem Yard.enqueue_lastCar (y : Yard) (st : StationId) (q : LineRef) :
    (y.enqueue st q).lastCar = y.lastCar := rfl

@[simp] theorem Yard.enqueue_checkinSetting (y : Yard) (st : StationId) (q : LineRef) :
    (y.enqueue st q).checkinSetting = y.checkinSetting := rfl

@[simp] theorem Yard.enqueue_limits (y : Yard) (st : StationId) (q : LineRef) :
    (y.enqueue st q).limits = y.limits := rfl

@[simp] theorem Yard.enqueue_spkMarks (y : Yard) (st : StationId) (q : LineRef) :
    (y.enqueue st q).spkMarks = y.spkMarks := rfl

@[simp] theorem Yard.enqueue_lastOrder (y : Yard) (st : StationId) (q : LineRef) :
    (y.enqueue st q).lastOrder = y.lastOrder := rfl

@[simp] theorem Yard.enqueue_held (y : Yard) (st : StationId) (q : LineRef) :
    (y.enqueue st q).held = y.held := rfl

@[simp] theorem Yard.enqueue_readyList (y : Yard) (st : StationId) (q : LineRef) :
    (y.enqueue st q).readyList = y.readyList := rfl

@[simp] theorem Yard.enqueue_rowCounts (y : Yard) (st : StationId) (q : LineRef) :
    (y.enqueue st q).rowCounts = y.rowCounts := rfl

@[simp] theorem Yard.enqueue_lampMarks (y : Yard) (st : StationId) (q : LineRef) :
    (y.enqueue st q).lampMarks = y.lampMarks := rfl

@[simp] theorem Yard.enqueue_runners (y : Yard) (st : StationId) (q : LineRef) :
    (y.enqueue st q).runners = y.runners := rfl

@[simp] theorem Yard.enqueue_takeLimit (y : Yard) (st : StationId) (q : LineRef) :
    (y.enqueue st q).takeLimit = y.takeLimit := rfl

@[simp] theorem Yard.enqueue_raised (y : Yard) (st : StationId) (q : LineRef) :
    (y.enqueue st q).raised = y.raised := rfl

@[simp] theorem Yard.enqueue_freeIndex (y : Yard) (st : StationId) (q : LineRef) :
    (y.enqueue st q).freeIndex = y.freeIndex := rfl

@[simp] theorem Yard.dequeue_loops (y : Yard) (st : StationId) (n k : Nat) :
    (y.dequeue st n k).loops = y.loops := rfl

@[simp] theorem Yard.dequeue_store (y : Yard) (st : StationId) (n k : Nat) :
    (y.dequeue st n k).store = y.store := rfl

@[simp] theorem Yard.dequeue_capacity (y : Yard) (st : StationId) (n k : Nat) :
    (y.dequeue st n k).capacity = y.capacity := rfl

@[simp] theorem Yard.dequeue_admittedCount (y : Yard) (st : StationId) (n k : Nat) :
    (y.dequeue st n k).admittedCount = y.admittedCount := rfl

@[simp] theorem Yard.dequeue_lastCar (y : Yard) (st : StationId) (n k : Nat) :
    (y.dequeue st n k).lastCar = y.lastCar := rfl

@[simp] theorem Yard.dequeue_checkinSetting (y : Yard) (st : StationId) (n k : Nat) :
    (y.dequeue st n k).checkinSetting = y.checkinSetting := rfl

@[simp] theorem Yard.dequeue_limits (y : Yard) (st : StationId) (n k : Nat) :
    (y.dequeue st n k).limits = y.limits := rfl

@[simp] theorem Yard.dequeue_spkMarks (y : Yard) (st : StationId) (n k : Nat) :
    (y.dequeue st n k).spkMarks = y.spkMarks := rfl

@[simp] theorem Yard.dequeue_lastOrder (y : Yard) (st : StationId) (n k : Nat) :
    (y.dequeue st n k).lastOrder = y.lastOrder := rfl

@[simp] theorem Yard.dequeue_held (y : Yard) (st : StationId) (n k : Nat) :
    (y.dequeue st n k).held = y.held := rfl

@[simp] theorem Yard.dequeue_readyList (y : Yard) (st : StationId) (n k : Nat) :
    (y.dequeue st n k).readyList = y.readyList := rfl

@[simp] theorem Yard.dequeue_rowCounts (y : Yard) (st : StationId) (n k : Nat) :
    (y.dequeue st n k).rowCounts = y.rowCounts := rfl

@[simp] theorem Yard.dequeue_lampMarks (y : Yard) (st : StationId) (n k : Nat) :
    (y.dequeue st n k).lampMarks = y.lampMarks := rfl

@[simp] theorem Yard.dequeue_runners (y : Yard) (st : StationId) (n k : Nat) :
    (y.dequeue st n k).runners = y.runners := rfl

@[simp] theorem Yard.dequeue_takeLimit (y : Yard) (st : StationId) (n k : Nat) :
    (y.dequeue st n k).takeLimit = y.takeLimit := rfl

@[simp] theorem Yard.dequeue_raised (y : Yard) (st : StationId) (n k : Nat) :
    (y.dequeue st n k).raised = y.raised := rfl

@[simp] theorem Yard.dequeue_freeIndex (y : Yard) (st : StationId) (n k : Nat) :
    (y.dequeue st n k).freeIndex = y.freeIndex := rfl

@[simp] theorem Yard.markRef_loops (y : Yard) (st : StationId) (n k : Nat) (ls : LineState) :
    (y.markRef st n k ls).loops = y.loops := rfl

@[simp] theorem Yard.markRef_store (y : Yard) (st : StationId) (n k : Nat) (ls : LineState) :
    (y.markRef st n k ls).store = y.store := rfl

@[simp] theorem Yard.markRef_capacity (y : Yard) (st : StationId) (n k : Nat) (ls : LineState) :
    (y.markRef st n k ls).capacity = y.capacity := rfl

@[simp] theorem Yard.markRef_admittedCount (y : Yard) (st : StationId) (n k : Nat) (ls : LineState) :
    (y.markRef st n k ls).admittedCount = y.admittedCount := rfl

@[simp] theorem Yard.markRef_lastCar (y : Yard) (st : StationId) (n k : Nat) (ls : LineState) :
    (y.markRef st n k ls).lastCar = y.lastCar := rfl

@[simp] theorem Yard.markRef_checkinSetting (y : Yard) (st : StationId) (n k : Nat) (ls : LineState) :
    (y.markRef st n k ls).checkinSetting = y.checkinSetting := rfl

@[simp] theorem Yard.markRef_limits (y : Yard) (st : StationId) (n k : Nat) (ls : LineState) :
    (y.markRef st n k ls).limits = y.limits := rfl

@[simp] theorem Yard.markRef_spkMarks (y : Yard) (st : StationId) (n k : Nat) (ls : LineState) :
    (y.markRef st n k ls).spkMarks = y.spkMarks := rfl

@[simp] theorem Yard.markRef_lastOrder (y : Yard) (st : StationId) (n k : Nat) (ls : LineState) :
    (y.markRef st n k ls).lastOrder = y.lastOrder := rfl

@[simp] theorem Yard.markRef_held (y : Yard) (st : StationId) (n k : Nat) (ls : LineState) :
    (y.markRef st n k ls).held = y.held := rfl

@[simp] theorem Yard.markRef_readyList (y : Yard) (st : StationId) (n k : Nat) (ls : LineState) :
    (y.markRef st n k ls).readyList = y.readyList := rfl

@[simp] theorem Yard.markRef_rowCounts (y : Yard) (st : StationId) (n k : Nat) (ls : LineState) :
    (y.markRef st n k ls).rowCounts = y.rowCounts := rfl

@[simp] theorem Yard.markRef_lampMarks (y : Yard) (st : StationId) (n k : Nat) (ls : LineState) :
    (y.markRef st n k ls).lampMarks = y.lampMarks := rfl

@[simp] theorem Yard.markRef_runners (y : Yard) (st : StationId) (n k : Nat) (ls : LineState) :
    (y.markRef st n k ls).runners = y.runners := rfl

@[simp] theorem Yard.markRef_takeLimit (y : Yard) (st : StationId) (n k : Nat) (ls : LineState) :
    (y.markRef st n k ls).takeLimit = y.takeLimit := rfl

@[simp] theorem Yard.markRef_raised (y : Yard) (st : StationId) (n k : Nat) (ls : LineState) :
    (y.markRef st n k ls).raised = y.raised := rfl

@[simp] theorem Yard.markRef_freeIndex (y : Yard) (st : StationId) (n k : Nat) (ls : LineState) :
    (y.markRef st n k ls).freeIndex = y.freeIndex := rfl

@[simp] theorem Yard.recount_loops (y : Yard) :
    (y.recount).loops = y.loops := rfl

@[simp] theorem Yard.recount_store (y : Yard) :
    (y.recount).store = y.store := rfl

@[simp] theorem Yard.recount_capacity (y : Yard) :
    (y.recount).capacity = y.capacity := rfl

@[simp] theorem Yard.recount_admittedCount (y : Yard) :
    (y.recount).admittedCount = y.admittedCount := rfl

@[simp] theorem Yard.recount_lastCar (y : Yard) :
    (y.recount).lastCar = y.lastCar := rfl

@[simp] theorem Yard.recount_checkinSetting (y : Yard) :
    (y.recount).checkinSetting = y.checkinSetting := rfl

@[simp] theorem Yard.recount_limits (y : Yard) :
    (y.recount).limits = y.limits := rfl

@[simp] theorem Yard.recount_spkMarks (y : Yard) :
    (y.recount).spkMarks = y.spkMarks := rfl

@[simp] theorem Yard.recount_lastOrder (y : Yard) :
    (y.recount).lastOrder = y.lastOrder := rfl

@[simp] theorem Yard.recount_held (y : Yard) :
    (y.recount).held = y.held := rfl

@[simp] theorem Yard.recount_queues (y : Yard) :
    (y.recount).queues = y.queues := rfl

@[simp] theorem Yard.recount_readyList (y : Yard) :
    (y.recount).readyList = y.readyList := rfl

@[simp] theorem Yard.recount_lampMarks (y : Yard) :
    (y.recount).lampMarks = y.lampMarks := rfl

@[simp] theorem Yard.recount_runners (y : Yard) :
    (y.recount).runners = y.runners := rfl

@[simp] theorem Yard.recount_takeLimit (y : Yard) :
    (y.recount).takeLimit = y.takeLimit := rfl

@[simp] theorem Yard.recount_raised (y : Yard) :
    (y.recount).raised = y.raised := rfl

@[simp] theorem Yard.recount_freeIndex (y : Yard) :
    (y.recount).freeIndex = y.freeIndex := rfl

@[simp] theorem Yard.setTest_loops (y : Yard) (t : Option TestRun) :
    (y.setTest t).loops = y.loops := rfl

@[simp] theorem Yard.setTest_capacity (y : Yard) (t : Option TestRun) :
    (y.setTest t).capacity = y.capacity := rfl

@[simp] theorem Yard.setTest_admittedCount (y : Yard) (t : Option TestRun) :
    (y.setTest t).admittedCount = y.admittedCount := rfl

@[simp] theorem Yard.setTest_lastCar (y : Yard) (t : Option TestRun) :
    (y.setTest t).lastCar = y.lastCar := rfl

@[simp] theorem Yard.setTest_checkinSetting (y : Yard) (t : Option TestRun) :
    (y.setTest t).checkinSetting = y.checkinSetting := rfl

@[simp] theorem Yard.setTest_limits (y : Yard) (t : Option TestRun) :
    (y.setTest t).limits = y.limits := rfl

@[simp] theorem Yard.setTest_spkMarks (y : Yard) (t : Option TestRun) :
    (y.setTest t).spkMarks = y.spkMarks := rfl

@[simp] theorem Yard.setTest_lastOrder (y : Yard) (t : Option TestRun) :
    (y.setTest t).lastOrder = y.lastOrder := rfl

@[simp] theorem Yard.setTest_held (y : Yard) (t : Option TestRun) :
    (y.setTest t).held = y.held := rfl

@[simp] theorem Yard.setTest_queues (y : Yard) (t : Option TestRun) :
    (y.setTest t).queues = y.queues := rfl

@[simp] theorem Yard.setTest_readyList (y : Yard) (t : Option TestRun) :
    (y.setTest t).readyList = y.readyList := rfl

@[simp] theorem Yard.setTest_rowCounts (y : Yard) (t : Option TestRun) :
    (y.setTest t).rowCounts = y.rowCounts := rfl

@[simp] theorem Yard.setTest_lampMarks (y : Yard) (t : Option TestRun) :
    (y.setTest t).lampMarks = y.lampMarks := rfl

@[simp] theorem Yard.setTest_runners (y : Yard) (t : Option TestRun) :
    (y.setTest t).runners = y.runners := rfl

@[simp] theorem Yard.setTest_takeLimit (y : Yard) (t : Option TestRun) :
    (y.setTest t).takeLimit = y.takeLimit := rfl

@[simp] theorem Yard.setTest_raised (y : Yard) (t : Option TestRun) :
    (y.setTest t).raised = y.raised := rfl

@[simp] theorem Yard.setTest_freeIndex (y : Yard) (t : Option TestRun) :
    (y.setTest t).freeIndex = y.freeIndex := rfl

/-! ## One loop -/

@[simp] theorem LoopRec.setPost_slots (l : LoopRec) (p : Nat) (e : Post) :
    (l.setPost p e).slots = l.slots := rfl

@[simp] theorem LoopRec.setPost_nextAge (l : LoopRec) (p : Nat) (e : Post) :
    (l.setPost p e).nextAge = l.nextAge := rfl

@[simp] theorem LoopRec.setPost_owner (l : LoopRec) (p : Nat) (e : Post) :
    (l.setPost p e).owner = l.owner := rfl

@[simp] theorem LoopRec.setPost_lendAllowed (l : LoopRec) (p : Nat) (e : Post) :
    (l.setPost p e).lendAllowed = l.lendAllowed := rfl

@[simp] theorem LoopRec.setPost_request (l : LoopRec) (p : Nat) (e : Post) :
    (l.setPost p e).request = l.request := rfl

@[simp] theorem LoopRec.setPost_grant (l : LoopRec) (p : Nat) (e : Post) :
    (l.setPost p e).grant = l.grant := rfl

@[simp] theorem LoopRec.setPost_lendTimer (l : LoopRec) (p : Nat) (e : Post) :
    (l.setPost p e).lendTimer = l.lendTimer := rfl

@[simp] theorem LoopRec.setPost_overflow (l : LoopRec) (p : Nat) (e : Post) :
    (l.setPost p e).overflow = l.overflow := rfl

@[simp] theorem LoopRec.setPost_cursor (l : LoopRec) (p : Nat) (e : Post) :
    (l.setPost p e).cursor = l.cursor := rfl

@[simp] theorem LoopRec.setPost_sendRun (l : LoopRec) (p : Nat) (e : Post) :
    (l.setPost p e).sendRun = l.sendRun := rfl

@[simp] theorem LoopRec.setPost_current (l : LoopRec) (p : Nat) (e : Post) :
    (l.setPost p e).current = l.current := rfl

@[simp] theorem LoopRec.setPost_repeatDue (l : LoopRec) (p : Nat) (e : Post) :
    (l.setPost p e).repeatDue = l.repeatDue := rfl

@[simp] theorem LoopRec.setPost_rows (l : LoopRec) (p : Nat) (e : Post) :
    (l.setPost p e).rows = l.rows := rfl

@[simp] theorem LoopRec.setPost_errors (l : LoopRec) (p : Nat) (e : Post) :
    (l.setPost p e).errors = l.errors := rfl

@[simp] theorem LoopRec.setPost_repeats (l : LoopRec) (p : Nat) (e : Post) :
    (l.setPost p e).repeats = l.repeats := rfl

@[simp] theorem LoopRec.setPost_badRecords (l : LoopRec) (p : Nat) (e : Post) :
    (l.setPost p e).badRecords = l.badRecords := rfl

@[simp] theorem LoopRec.setPost_undelivered (l : LoopRec) (p : Nat) (e : Post) :
    (l.setPost p e).undelivered = l.undelivered := rfl

@[simp] theorem LoopRec.setPost_windowSetting (l : LoopRec) (p : Nat) (e : Post) :
    (l.setPost p e).windowSetting = l.windowSetting := rfl

@[simp] theorem LoopRec.setPost_lendSetting (l : LoopRec) (p : Nat) (e : Post) :
    (l.setPost p e).lendSetting = l.lendSetting := rfl

@[simp] theorem LoopRec.setSlot_posts (l : LoopRec) (i : Fin 16) (sl : OutSlot) :
    (l.setSlot i sl).posts = l.posts := rfl

@[simp] theorem LoopRec.setSlot_nextAge (l : LoopRec) (i : Fin 16) (sl : OutSlot) :
    (l.setSlot i sl).nextAge = l.nextAge := rfl

@[simp] theorem LoopRec.setSlot_owner (l : LoopRec) (i : Fin 16) (sl : OutSlot) :
    (l.setSlot i sl).owner = l.owner := rfl

@[simp] theorem LoopRec.setSlot_lendAllowed (l : LoopRec) (i : Fin 16) (sl : OutSlot) :
    (l.setSlot i sl).lendAllowed = l.lendAllowed := rfl

@[simp] theorem LoopRec.setSlot_request (l : LoopRec) (i : Fin 16) (sl : OutSlot) :
    (l.setSlot i sl).request = l.request := rfl

@[simp] theorem LoopRec.setSlot_grant (l : LoopRec) (i : Fin 16) (sl : OutSlot) :
    (l.setSlot i sl).grant = l.grant := rfl

@[simp] theorem LoopRec.setSlot_lendTimer (l : LoopRec) (i : Fin 16) (sl : OutSlot) :
    (l.setSlot i sl).lendTimer = l.lendTimer := rfl

@[simp] theorem LoopRec.setSlot_overflow (l : LoopRec) (i : Fin 16) (sl : OutSlot) :
    (l.setSlot i sl).overflow = l.overflow := rfl

@[simp] theorem LoopRec.setSlot_cursor (l : LoopRec) (i : Fin 16) (sl : OutSlot) :
    (l.setSlot i sl).cursor = l.cursor := rfl

@[simp] theorem LoopRec.setSlot_sendRun (l : LoopRec) (i : Fin 16) (sl : OutSlot) :
    (l.setSlot i sl).sendRun = l.sendRun := rfl

@[simp] theorem LoopRec.setSlot_current (l : LoopRec) (i : Fin 16) (sl : OutSlot) :
    (l.setSlot i sl).current = l.current := rfl

@[simp] theorem LoopRec.setSlot_repeatDue (l : LoopRec) (i : Fin 16) (sl : OutSlot) :
    (l.setSlot i sl).repeatDue = l.repeatDue := rfl

@[simp] theorem LoopRec.setSlot_rows (l : LoopRec) (i : Fin 16) (sl : OutSlot) :
    (l.setSlot i sl).rows = l.rows := rfl

@[simp] theorem LoopRec.setSlot_errors (l : LoopRec) (i : Fin 16) (sl : OutSlot) :
    (l.setSlot i sl).errors = l.errors := rfl

@[simp] theorem LoopRec.setSlot_repeats (l : LoopRec) (i : Fin 16) (sl : OutSlot) :
    (l.setSlot i sl).repeats = l.repeats := rfl

@[simp] theorem LoopRec.setSlot_badRecords (l : LoopRec) (i : Fin 16) (sl : OutSlot) :
    (l.setSlot i sl).badRecords = l.badRecords := rfl

@[simp] theorem LoopRec.setSlot_undelivered (l : LoopRec) (i : Fin 16) (sl : OutSlot) :
    (l.setSlot i sl).undelivered = l.undelivered := rfl

@[simp] theorem LoopRec.setSlot_windowSetting (l : LoopRec) (i : Fin 16) (sl : OutSlot) :
    (l.setSlot i sl).windowSetting = l.windowSetting := rfl

@[simp] theorem LoopRec.setSlot_lendSetting (l : LoopRec) (i : Fin 16) (sl : OutSlot) :
    (l.setSlot i sl).lendSetting = l.lendSetting := rfl

/-! ## One screen -/

@[simp] theorem Screen.setHead_phase (sc : Screen) (h : Head) (r : HeadRec) :
    (sc.setHead h r).phase = sc.phase := by cases h <;> rfl

@[simp] theorem Screen.setHead_reel (sc : Screen) (h : Head) (r : HeadRec) :
    (sc.setHead h r).reel = sc.reel := by cases h <;> rfl

@[simp] theorem Screen.setHead_frame (sc : Screen) (h : Head) (r : HeadRec) :
    (sc.setHead h r).frame = sc.frame := by cases h <;> rfl

@[simp] theorem Screen.setHead_f (sc : Screen) (h : Head) (r : HeadRec) :
    (sc.setHead h r).f = sc.f := by cases h <;> rfl

@[simp] theorem Screen.setHead_active (sc : Screen) (h : Head) (r : HeadRec) :
    (sc.setHead h r).active = sc.active := by cases h <;> rfl

@[simp] theorem Screen.setHead_staged (sc : Screen) (h : Head) (r : HeadRec) :
    (sc.setHead h r).staged = sc.staged := by cases h <;> rfl

@[simp] theorem Screen.setHead_countdown (sc : Screen) (h : Head) (r : HeadRec) :
    (sc.setHead h r).countdown = sc.countdown := by cases h <;> rfl

@[simp] theorem Screen.setHead_heldHead (sc : Screen) (h : Head) (r : HeadRec) :
    (sc.setHead h r).heldHead = sc.heldHead := by cases h <;> rfl

@[simp] theorem Screen.setHead_leadFired (sc : Screen) (h : Head) (r : HeadRec) :
    (sc.setHead h r).leadFired = sc.leadFired := by cases h <;> rfl

@[simp] theorem Screen.setHead_lights (sc : Screen) (h : Head) (r : HeadRec) :
    (sc.setHead h r).lights = sc.lights := by cases h <;> rfl

@[simp] theorem Screen.setHead_gateOpen (sc : Screen) (h : Head) (r : HeadRec) :
    (sc.setHead h r).gateOpen = sc.gateOpen := by cases h <;> rfl

@[simp] theorem Screen.setHead_orderingOpen (sc : Screen) (h : Head) (r : HeadRec) :
    (sc.setHead h r).orderingOpen = sc.orderingOpen := by cases h <;> rfl

@[simp] theorem Screen.setHead_breakWindow (sc : Screen) (h : Head) (r : HeadRec) :
    (sc.setHead h r).breakWindow = sc.breakWindow := by cases h <;> rfl

@[simp] theorem Screen.setHead_startTimer (sc : Screen) (h : Head) (r : HeadRec) :
    (sc.setHead h r).startTimer = sc.startTimer := by cases h <;> rfl

@[simp] theorem Screen.setHead_startSetting (sc : Screen) (h : Head) (r : HeadRec) :
    (sc.setHead h r).startSetting = sc.startSetting := by cases h <;> rfl

@[simp] theorem Screen.setHead_leadSetting (sc : Screen) (h : Head) (r : HeadRec) :
    (sc.setHead h r).leadSetting = sc.leadSetting := by cases h <;> rfl

/-- The head written reads as written. -/
@[simp] theorem Screen.head_setHead (sc : Screen) (h : Head) (r : HeadRec) : (sc.setHead h r).head h = r := by
  cases h <;> rfl

/-- The other head keeps its record. -/
theorem Screen.head_setHead_other (sc : Screen) (h k : Head) (r : HeadRec) (hk : k ≠ h) :
    (sc.setHead h r).head k = sc.head k := by
  cases h <;> cases k <;> first | rfl | exact absurd rfl hk

/-! ## The whole state -/

@[simp] theorem State.raise_pending (s : State) (r : Report) :
    (s.raise r).pending = s.pending := rfl

@[simp] theorem State.raise_hostLine (s : State) (r : Report) :
    (s.raise r).hostLine = s.hostLine := rfl

@[simp] theorem State.raise_screens (s : State) (r : Report) :
    (s.raise r).screens = s.screens := rfl

@[simp] theorem State.raise_sound (s : State) (r : Report) :
    (s.raise r).sound = s.sound := rfl

@[simp] theorem State.raise_lanes (s : State) (r : Report) :
    (s.raise r).lanes = s.lanes := rfl

@[simp] theorem State.raise_link (s : State) (r : Report) :
    (s.raise r).link = s.link := rfl

@[simp] theorem State.raiseAll_pending (s : State) (rs : List Report) :
    (s.raiseAll rs).pending = s.pending := rfl

@[simp] theorem State.raiseAll_hostLine (s : State) (rs : List Report) :
    (s.raiseAll rs).hostLine = s.hostLine := rfl

@[simp] theorem State.raiseAll_screens (s : State) (rs : List Report) :
    (s.raiseAll rs).screens = s.screens := rfl

@[simp] theorem State.raiseAll_sound (s : State) (rs : List Report) :
    (s.raiseAll rs).sound = s.sound := rfl

@[simp] theorem State.raiseAll_lanes (s : State) (rs : List Report) :
    (s.raiseAll rs).lanes = s.lanes := rfl

@[simp] theorem State.raiseAll_link (s : State) (rs : List Report) :
    (s.raiseAll rs).link = s.link := rfl

@[simp] theorem State.reported_pending (s : State) (rs : List Report) :
    (s.reported rs).pending = s.pending := rfl

@[simp] theorem State.reported_hostLine (s : State) (rs : List Report) :
    (s.reported rs).hostLine = s.hostLine := rfl

@[simp] theorem State.reported_screens (s : State) (rs : List Report) :
    (s.reported rs).screens = s.screens := rfl

@[simp] theorem State.reported_sound (s : State) (rs : List Report) :
    (s.reported rs).sound = s.sound := rfl

@[simp] theorem State.reported_lanes (s : State) (rs : List Report) :
    (s.reported rs).lanes = s.lanes := rfl

@[simp] theorem State.reported_yard (s : State) (rs : List Report) :
    (s.reported rs).yard = s.yard := rfl

@[simp] theorem State.answered_pending (s : State) (k t : Nat) (r : Reply) (rs : List Report) :
    (s.answered k t r rs).pending = s.pending := rfl

@[simp] theorem State.answered_hostLine (s : State) (k t : Nat) (r : Reply) (rs : List Report) :
    (s.answered k t r rs).hostLine = s.hostLine := rfl

@[simp] theorem State.answered_screens (s : State) (k t : Nat) (r : Reply) (rs : List Report) :
    (s.answered k t r rs).screens = s.screens := rfl

@[simp] theorem State.answered_sound (s : State) (k t : Nat) (r : Reply) (rs : List Report) :
    (s.answered k t r rs).sound = s.sound := rfl

@[simp] theorem State.answered_lanes (s : State) (k t : Nat) (r : Reply) (rs : List Report) :
    (s.answered k t r rs).lanes = s.lanes := rfl

@[simp] theorem State.answered_yard (s : State) (k t : Nat) (r : Reply) (rs : List Report) :
    (s.answered k t r rs).yard = s.yard := rfl

@[simp] theorem State.withScreen_pending (s : State) (sc : ScreenId) (r : Screen) :
    (s.withScreen sc r).pending = s.pending := rfl

@[simp] theorem State.withScreen_hostLine (s : State) (sc : ScreenId) (r : Screen) :
    (s.withScreen sc r).hostLine = s.hostLine := rfl

@[simp] theorem State.withScreen_sound (s : State) (sc : ScreenId) (r : Screen) :
    (s.withScreen sc r).sound = s.sound := rfl

@[simp] theorem State.withScreen_lanes (s : State) (sc : ScreenId) (r : Screen) :
    (s.withScreen sc r).lanes = s.lanes := rfl

@[simp] theorem State.withScreen_yard (s : State) (sc : ScreenId) (r : Screen) :
    (s.withScreen sc r).yard = s.yard := rfl

@[simp] theorem State.withScreen_link (s : State) (sc : ScreenId) (r : Screen) :
    (s.withScreen sc r).link = s.link := rfl

@[simp] theorem State.withSound_pending (s : State) (sc : ScreenId) (r : Sound) :
    (s.withSound sc r).pending = s.pending := rfl

@[simp] theorem State.withSound_hostLine (s : State) (sc : ScreenId) (r : Sound) :
    (s.withSound sc r).hostLine = s.hostLine := rfl

@[simp] theorem State.withSound_screens (s : State) (sc : ScreenId) (r : Sound) :
    (s.withSound sc r).screens = s.screens := rfl

@[simp] theorem State.withSound_lanes (s : State) (sc : ScreenId) (r : Sound) :
    (s.withSound sc r).lanes = s.lanes := rfl

@[simp] theorem State.withSound_yard (s : State) (sc : ScreenId) (r : Sound) :
    (s.withSound sc r).yard = s.yard := rfl

@[simp] theorem State.withSound_link (s : State) (sc : ScreenId) (r : Sound) :
    (s.withSound sc r).link = s.link := rfl

@[simp] theorem State.withLane_pending (s : State) (ln : LaneId) (r : Lane) :
    (s.withLane ln r).pending = s.pending := rfl

@[simp] theorem State.withLane_hostLine (s : State) (ln : LaneId) (r : Lane) :
    (s.withLane ln r).hostLine = s.hostLine := rfl

@[simp] theorem State.withLane_screens (s : State) (ln : LaneId) (r : Lane) :
    (s.withLane ln r).screens = s.screens := rfl

@[simp] theorem State.withLane_sound (s : State) (ln : LaneId) (r : Lane) :
    (s.withLane ln r).sound = s.sound := rfl

@[simp] theorem State.withLane_yard (s : State) (ln : LaneId) (r : Lane) :
    (s.withLane ln r).yard = s.yard := rfl

@[simp] theorem State.withLane_link (s : State) (ln : LaneId) (r : Lane) :
    (s.withLane ln r).link = s.link := rfl

@[simp] theorem State.withLoop_pending (s : State) (lp : ScreenId) (r : LoopRec) :
    (s.withLoop lp r).pending = s.pending := rfl

@[simp] theorem State.withLoop_hostLine (s : State) (lp : ScreenId) (r : LoopRec) :
    (s.withLoop lp r).hostLine = s.hostLine := rfl

@[simp] theorem State.withLoop_screens (s : State) (lp : ScreenId) (r : LoopRec) :
    (s.withLoop lp r).screens = s.screens := rfl

@[simp] theorem State.withLoop_sound (s : State) (lp : ScreenId) (r : LoopRec) :
    (s.withLoop lp r).sound = s.sound := rfl

@[simp] theorem State.withLoop_lanes (s : State) (lp : ScreenId) (r : LoopRec) :
    (s.withLoop lp r).lanes = s.lanes := rfl

@[simp] theorem State.withLoop_link (s : State) (lp : ScreenId) (r : LoopRec) :
    (s.withLoop lp r).link = s.link := rfl

@[simp] theorem State.onLoop_pending (s : State) (lp : ScreenId) (g : LoopRec → LoopRec) :
    (s.onLoop lp g).pending = s.pending := rfl

@[simp] theorem State.onLoop_hostLine (s : State) (lp : ScreenId) (g : LoopRec → LoopRec) :
    (s.onLoop lp g).hostLine = s.hostLine := rfl

@[simp] theorem State.onLoop_screens (s : State) (lp : ScreenId) (g : LoopRec → LoopRec) :
    (s.onLoop lp g).screens = s.screens := rfl

@[simp] theorem State.onLoop_sound (s : State) (lp : ScreenId) (g : LoopRec → LoopRec) :
    (s.onLoop lp g).sound = s.sound := rfl

@[simp] theorem State.onLoop_lanes (s : State) (lp : ScreenId) (g : LoopRec → LoopRec) :
    (s.onLoop lp g).lanes = s.lanes := rfl

@[simp] theorem State.onLoop_link (s : State) (lp : ScreenId) (g : LoopRec → LoopRec) :
    (s.onLoop lp g).link = s.link := rfl

/-- A screen written reads as written. -/
@[simp] theorem State.withScreen_get (s : State) (sc : ScreenId) (r : Screen) : (s.withScreen sc r).screens[sc] = r := by
  simp [State.withScreen]

/-- The other screens keep their records. -/
theorem State.withScreen_get_other (s : State) (sc k : ScreenId) (r : Screen) (hk : k ≠ sc) :
    (s.withScreen sc r).screens[k] = s.screens[k] := by
  simp only [State.withScreen, Fin.getElem_fin]
  exact Vector.getElem_set_ne _ _ fun h => hk (Fin.ext h.symm)

/-- A sound path written reads as written. -/
@[simp] theorem State.withSound_get (s : State) (sc : ScreenId) (r : Sound) : (s.withSound sc r).sound[sc] = r := by
  simp [State.withSound]

/-- The other sound paths keep their records. -/
theorem State.withSound_get_other (s : State) (sc k : ScreenId) (r : Sound) (hk : k ≠ sc) :
    (s.withSound sc r).sound[k] = s.sound[k] := by
  simp only [State.withSound, Fin.getElem_fin]
  exact Vector.getElem_set_ne _ _ fun h => hk (Fin.ext h.symm)

/-- A lane written reads as written. -/
@[simp] theorem State.withLane_get (s : State) (ln : LaneId) (r : Lane) : (s.withLane ln r).lanes[ln] = r := by
  simp [State.withLane]

/-- The other lanes keep their records. -/
theorem State.withLane_get_other (s : State) (ln k : LaneId) (r : Lane) (hk : k ≠ ln) :
    (s.withLane ln r).lanes[k] = s.lanes[k] := by
  simp only [State.withLane, Fin.getElem_fin]
  exact Vector.getElem_set_ne _ _ fun h => hk (Fin.ext h.symm)

/-- A loop written reads as written. -/
@[simp] theorem State.withLoop_get (s : State) (lp : ScreenId) (r : LoopRec) :
    (s.withLoop lp r).yard.loops[lp] = r := by
  simp [State.withLoop]

/-- The loop changed reads as changed. -/
@[simp] theorem Yard.modLoop_get (y : Yard) (lp : ScreenId) (g : LoopRec → LoopRec) :
    (y.modLoop lp g).loops[lp] = g y.loops[lp] := by
  simp [Yard.modLoop]

end Sys2Proof.Machine
end

