-- ==== Sys2Proof/Laws/Tab.lean ====
section
/-! SUPPORT. The laws of the sparse tables: a read after a write, that every write keeps the canonical form, that equal
reads are equal tables, what a read of a slot answers where nothing is damaged, and what the moves of an order's lines then
leave of the menu. -/

namespace Sys2Proof.Machine

section Tables

variable {α : Type} [DecidableEq α] {d : α}

/-- A canonical form from a bound is one from any lower bound. -/
theorem Tab.wfFrom_mono {t : Tab α} {m n : Nat} (h : Tab.wfFrom d n t = true) (hm : m ≤ n) : Tab.wfFrom d m t = true := by
  cases t with
  | nil => rfl
  | cons e t =>
    obtain ⟨k, v⟩ := e
    simp only [Tab.wfFrom, Bool.and_eq_true, decide_eq_true_eq] at h ⊢
    exact ⟨⟨Nat.le_trans hm h.1.1, h.1.2⟩, h.2⟩

/-- Below its bound a canonical table holds the default. -/
theorem Tab.get_below {t : Tab α} {n i : Nat} (h : Tab.wfFrom d n t = true) (hi : i < n) : Tab.get d t i = d := by
  induction t generalizing n with
  | nil => rfl
  | cons e t ih =>
    obtain ⟨k, v⟩ := e
    simp only [Tab.wfFrom, Bool.and_eq_true, decide_eq_true_eq] at h
    have hk : i ≠ k := by omega
    simp only [Tab.get, hk, if_false]
    exact ih h.2 (by omega)

/-- A write keeps the canonical form from a bound at or below its index. -/
theorem Tab.wfFrom_put {t : Tab α} {n i : Nat} {v : α} (h : Tab.wfFrom d n t = true) (hi : n ≤ i) :
    Tab.wfFrom d n (Tab.put d t i v) = true := by
  induction t generalizing n with
  | nil =>
    unfold Tab.put
    split
    · rfl
    · simp [Tab.wfFrom, *]
  | cons e t ih =>
    obtain ⟨k, w⟩ := e
    simp only [Tab.wfFrom, Bool.and_eq_true, decide_eq_true_eq, Bool.not_eq_true', decide_eq_false_iff_not] at h
    obtain ⟨⟨hk, hw⟩, ht⟩ := h
    unfold Tab.put
    split
    · split
      · simp [Tab.wfFrom, *]
      · rename_i hik hv
        simp [Tab.wfFrom, hi, hv, hw, ht, Nat.succ_le_of_lt hik]
    · split
      · rename_i hki
        subst hki
        split
        · exact Tab.wfFrom_mono ht (by omega)
        · simp [Tab.wfFrom, *]
      · simp only [Tab.wfFrom, Bool.and_eq_true, decide_eq_true_eq, Bool.not_eq_true', decide_eq_false_iff_not]
        exact ⟨⟨hk, hw⟩, ih ht (by omega)⟩

/-- A write keeps the canonical form. -/
theorem Tab.wf_put {t : Tab α} (h : Tab.wf d t = true) (i : Nat) (v : α) : Tab.wf d (Tab.put d t i v) = true :=
  Tab.wfFrom_put h (Nat.zero_le i)

/-- A read after a write to the same index gives the value written. -/
theorem Tab.get_put_self {t : Tab α} {n : Nat} (h : Tab.wfFrom d n t = true) (i : Nat) (v : α) :
    Tab.get d (Tab.put d t i v) i = v := by
  induction t generalizing n with
  | nil =>
    unfold Tab.put
    split <;> simp_all [Tab.get]
  | cons e t ih =>
    obtain ⟨k, w⟩ := e
    simp only [Tab.wfFrom, Bool.and_eq_true, decide_eq_true_eq] at h
    unfold Tab.put
    split
    · rename_i hik
      split
      · rename_i hv
        have : i ≠ k := by omega
        simp only [Tab.get, this, if_false, hv]
        exact Tab.get_below h.2 (by omega)
      · simp [Tab.get]
    · split
      · rename_i hki
        subst hki
        split
        · rename_i hv
          rw [hv]
          exact Tab.get_below h.2 (by omega)
        · simp [Tab.get]
      · rename_i hne
        simp only [Tab.get, hne, if_false]
        exact ih h.2

/-- A write leaves every other index alone. -/
theorem Tab.get_put_other {t : Tab α} (i j : Nat) (v : α) (hj : j ≠ i) :
    Tab.get d (Tab.put d t i v) j = Tab.get d t j := by
  induction t with
  | nil =>
    unfold Tab.put
    split <;> simp [Tab.get, hj]
  | cons e t ih =>
    obtain ⟨k, w⟩ := e
    unfold Tab.put
    split
    · split
      · rfl
      · simp [Tab.get, hj]
    · split
      · rename_i hki
        subst hki
        split <;> simp [Tab.get, hj]
      · simp only [Tab.get, ih]

/-- A map of the entries keeps the canonical form. -/
theorem Tab.wfFrom_mapEntries {t : Tab α} {n : Nat} (f : Nat → α → α) (h : Tab.wfFrom d n t = true) :
    Tab.wfFrom d n (Tab.mapEntries d f t) = true := by
  induction t generalizing n with
  | nil => rfl
  | cons e t ih =>
    obtain ⟨k, w⟩ := e
    simp only [Tab.wfFrom, Bool.and_eq_true, decide_eq_true_eq] at h
    have hr := ih h.2
    unfold Tab.mapEntries at hr ⊢
    rw [List.map_cons, List.filter_cons]
    split
    · rename_i hv
      simp only [Bool.not_eq_true', decide_eq_false_iff_not] at hv
      simp only [Tab.wfFrom, Bool.and_eq_true, decide_eq_true_eq, Bool.not_eq_true', decide_eq_false_iff_not]
      exact ⟨⟨h.1.1, hv⟩, hr⟩
    · exact Tab.wfFrom_mono hr (by omega)

/-- A map of the entries keeps the canonical form. -/
theorem Tab.wf_mapEntries {t : Tab α} (f : Nat → α → α) (h : Tab.wf d t = true) :
    Tab.wf d (Tab.mapEntries d f t) = true :=
  Tab.wfFrom_mapEntries f h

/-- A map of the entries reads as the map of each content, where it keeps the default. -/
theorem Tab.get_mapEntries {t : Tab α} {n : Nat} (f : Nat → α → α) (hf : ∀ i, f i d = d) (h : Tab.wfFrom d n t = true)
    (i : Nat) : Tab.get d (Tab.mapEntries d f t) i = f i (Tab.get d t i) := by
  induction t generalizing n with
  | nil => exact (hf i).symm
  | cons e t ih =>
    obtain ⟨k, w⟩ := e
    simp only [Tab.wfFrom, Bool.and_eq_true, decide_eq_true_eq] at h
    have hr := ih h.2
    have hb : i = k → Tab.get d t i = d := fun hi => Tab.get_below h.2 (by omega)
    unfold Tab.mapEntries at hr ⊢
    rw [List.map_cons, List.filter_cons]
    by_cases hk : i = k
    · rw [hb hk, hf] at hr
      subst hk
      split
      · simp [Tab.get]
      · rename_i hv
        simp only [Bool.not_eq_true', decide_eq_false_iff_not, Decidable.not_not] at hv
        rw [hr]
        simp [Tab.get, hv]
    · split
      · simp only [Tab.get, hk, if_false, hr]
      · rw [hr]
        simp only [Tab.get, hk, if_false]

/-- Two canonical tables that read the same are the same. -/
theorem Tab.ext_of_get {t u : Tab α} {n : Nat} (ht : Tab.wfFrom d n t = true) (hu : Tab.wfFrom d n u = true)
    (h : ∀ i, Tab.get d t i = Tab.get d u i) : t = u := by
  induction t generalizing n u with
  | nil =>
    cases u with
    | nil => rfl
    | cons e u =>
      obtain ⟨k, w⟩ := e
      simp only [Tab.wfFrom, Bool.and_eq_true, decide_eq_true_eq, Bool.not_eq_true', decide_eq_false_iff_not] at hu
      have := h k
      simp [Tab.get] at this
      exact absurd this.symm hu.1.2
  | cons e t ih =>
    obtain ⟨k, v⟩ := e
    simp only [Tab.wfFrom, Bool.and_eq_true, decide_eq_true_eq, Bool.not_eq_true', decide_eq_false_iff_not] at ht
    cases u with
    | nil =>
      have := h k
      simp [Tab.get] at this
      exact absurd this ht.1.2
    | cons e' u =>
      obtain ⟨k', w⟩ := e'
      simp only [Tab.wfFrom, Bool.and_eq_true, decide_eq_true_eq, Bool.not_eq_true', decide_eq_false_iff_not] at hu
      have hkk : k = k' := by
        rcases Nat.lt_trichotomy k k' with hlt | heq | hgt
        · have h1 := h k
          have : k ≠ k' := by omega
          simp only [Tab.get, this, if_true, if_false] at h1
          rw [Tab.get_below hu.2 (by omega)] at h1
          exact absurd h1 ht.1.2
        · exact heq
        · have h1 := h k'
          have : k' ≠ k := by omega
          simp only [Tab.get, this, if_true, if_false] at h1
          rw [Tab.get_below ht.2 (by omega)] at h1
          exact absurd h1.symm hu.1.2
      subst hkk
      have hvw : v = w := by simpa [Tab.get] using h k
      subst hvw
      congr 1
      refine ih ht.2 hu.2 fun i => ?_
      by_cases hi : i = k
      · rw [Tab.get_below ht.2 (by omega), Tab.get_below hu.2 (by omega)]
      · simpa [Tab.get, hi] using h i

end Tables

/-! ## Reads where nothing is damaged -/

/-- A slot read from an undamaged table has good parity. -/
theorem wrong_of_undamaged {ρ : Type} {t : Tab (Slot ρ)} (h : tableUndamaged t = true) (i : Nat) :
    (Tab.get Slot.blank t i).wrong = none := by
  induction t with
  | nil => rfl
  | cons e t ih =>
    obtain ⟨k, sl⟩ := e
    simp only [tableUndamaged, List.all_cons, Bool.and_eq_true, Bool.not_eq_true'] at h
    simp only [Tab.get]
    split
    · simp [Slot.wrong, h.1.1, h.1.2]
    · exact ih h.2

/-- A read of a slot with good parity changes nothing and answers the slot's record. -/
theorem Yard.readCarSlot_good (settle : Yard → Yard) (y : Yard) (i : Nat) (h : (y.carSlot i).wrong = none) :
    y.readCarSlot settle i =
      (match (y.carSlot i).record? with
        | some c => .whole c
        | none => .absent, y) := by
  unfold Yard.readCarSlot
  cases (y.carSlot i).record? <;> simp [h]

/-- A read of a bay with good parity changes nothing. -/
theorem Yard.readBay_good (settle : Yard → Yard) (y : Yard) (i : Nat) (h : (y.baySlot i).wrong = none) :
    y.readBay settle i =
      (match y.bay? i with
        | some b => .whole b
        | none => .absent, y) := by
  unfold Yard.readBay Yard.bay?
  cases (y.baySlot i).record? <;> simp [h]

/-- A read of an order slot with good parity changes nothing. -/
theorem Yard.readOrderSlot_good (settle : Yard → Yard) (y : Yard) (i : Nat) (h : (y.orderSlot i).wrong = none) :
    y.readOrderSlot settle i =
      (match (y.orderSlot i).record? with
        | some o => .whole o
        | none => .absent, y) := by
  unfold Yard.readOrderSlot
  cases (y.orderSlot i).record? <;> simp [h]

/-- A read of an item with good parity changes nothing. -/
theorem Yard.readItem_good (settle : Yard → Yard) (y : Yard) (i : Nat) (h : (y.menuSlot i).wrong = none) :
    y.readItem settle i =
      (match y.item? i with
        | some m => .whole m
        | none => .absent, y) := by
  unfold Yard.readItem Yard.item?
  cases (y.menuSlot i).record? <;> simp [h]

/-- A read of a used-ticket slot with good parity changes nothing. -/
theorem Yard.readTicketSlot_good (settle : Yard → Yard) (y : Yard) (i : Nat) (h : (y.ticketSlot i).wrong = none) :
    y.readTicketSlot settle i =
      (match (y.ticketSlot i).record? with
        | some t => .whole t
        | none => .absent, y) := by
  unfold Yard.readTicketSlot
  cases (y.ticketSlot i).record? <;> simp [h]

/-- A slot written reads as written, in a canonical table. -/
theorem Yard.carSlot_set (y : Yard) (h : Tab.wf Slot.blank y.store.cars = true) (i : Nat) (sl : Slot Car) :
    (y.setCarSlot i sl).carSlot i = sl :=
  Tab.get_put_self h i sl

/-- The other slots keep their contents. -/
theorem Yard.carSlot_set_other (y : Yard) (i j : Nat) (sl : Slot Car) (hj : j ≠ i) :
    (y.setCarSlot i sl).carSlot j = y.carSlot j :=
  Tab.get_put_other i j sl hj

/-- A slot written reads as written, in a canonical table. -/
theorem Yard.baySlot_set (y : Yard) (h : Tab.wf Slot.blank y.store.bays = true) (i : Nat) (sl : Slot Bay) :
    (y.setBaySlot i sl).baySlot i = sl :=
  Tab.get_put_self h i sl

/-- The other slots keep their contents. -/
theorem Yard.baySlot_set_other (y : Yard) (i j : Nat) (sl : Slot Bay) (hj : j ≠ i) :
    (y.setBaySlot i sl).baySlot j = y.baySlot j :=
  Tab.get_put_other i j sl hj

/-- A slot written reads as written, in a canonical table. -/
theorem Yard.orderSlot_set (y : Yard) (h : Tab.wf Slot.blank y.store.orders = true) (i : Nat) (sl : Slot Order) :
    (y.setOrderSlot i sl).orderSlot i = sl :=
  Tab.get_put_self h i sl

/-- The other slots keep their contents. -/
theorem Yard.orderSlot_set_other (y : Yard) (i j : Nat) (sl : Slot Order) (hj : j ≠ i) :
    (y.setOrderSlot i sl).orderSlot j = y.orderSlot j :=
  Tab.get_put_other i j sl hj

/-- A slot written reads as written, in a canonical table. -/
theorem Yard.menuSlot_set (y : Yard) (h : Tab.wf Slot.blank y.store.menu = true) (i : Nat) (sl : Slot MenuItem) :
    (y.setMenuSlot i sl).menuSlot i = sl :=
  Tab.get_put_self h i sl

/-- The other slots keep their contents. -/
theorem Yard.menuSlot_set_other (y : Yard) (i j : Nat) (sl : Slot MenuItem) (hj : j ≠ i) :
    (y.setMenuSlot i sl).menuSlot j = y.menuSlot j :=
  Tab.get_put_other i j sl hj

/-- A post's entry written reads as written, in a canonical table. -/
theorem LoopRec.post_setPost (l : LoopRec) (h : Tab.wf Post.reset l.posts = true) (p : Nat) (e : Post) :
    (l.setPost p e).post p = e :=
  Tab.get_put_self h p e

/-- The other posts keep their entries. -/
theorem LoopRec.post_setPost_other (l : LoopRec) (p q : Nat) (e : Post) (hq : q ≠ p) :
    (l.setPost p e).post q = l.post q :=
  Tab.get_put_other p q e hq

/-! ## Tallies where nothing is damaged -/

/-- A menu in its canonical form, every slot with good parity. -/
abbrev Yard.menuGood (y : Yard) : Prop :=
  Tab.wf Slot.blank y.store.menu = true ∧ ∀ i, (y.menuSlot i).wrong = none

/-- An item in service after a write of item `i`. -/
theorem Yard.item_modItem (f : MenuItem → MenuItem) (y : Yard) (h : Tab.wf Slot.blank y.store.menu = true) (i k : Nat) :
    (y.modItem i f).item? k = (y.item? k).map fun m => if k = i then f m else m := by
  unfold Yard.modItem
  cases e : y.item? i with
  | none => by_cases hk : k = i <;> simp [hk, e]
  | some m =>
    by_cases hk : k = i
    · subst hk; simp only [e]; simp [Yard.item?, Yard.menuSlot_set y h, Slot.write, Slot.record?]
    · simp [Yard.item?, Yard.menuSlot_set_other y i k _ hk, hk]

/-- A write of an item leaves the menu canonical and undamaged. -/
theorem Yard.menuGood_modItem (f : MenuItem → MenuItem) (y : Yard) (h : y.menuGood) (i : Nat) :
    (y.modItem i f).menuGood := by
  unfold Yard.modItem
  cases e : y.item? i with
  | none => exact h
  | some m =>
    refine ⟨Tab.wf_put h.1 _ _, fun k => ?_⟩
    by_cases hk : k = i
    · subst hk; simp only [Yard.menuSlot_set y h.1]; rfl
    · simp only [Yard.menuSlot_set_other y i k _ hk]; exact h.2 k

/-- A move of an undamaged item's tallies reads and writes it, and tells whether it is in service. -/
theorem Yard.moveTally_good (f : MenuItem → MenuItem) (y : Yard) (i : Nat) (h : (y.menuSlot i).wrong = none) :
    y.moveTally f i = ((y.item? i).isSome, y.modItem i f) := by
  unfold Yard.moveTally
  rw [Yard.readItem_good _ _ _ h]
  cases e : y.item? i <;> simp [Yard.modItem, e]

/-- What the moves of an order's lines leave of an undamaged menu: each item moved by its own lines, in line order (R152,
R172). -/
theorem Yard.moveLines_good (move : Nat → MenuItem → MenuItem) (ls : List Line) (y : Yard) (h : y.menuGood) :
    (Yard.moveLines move y ls).2.menuGood ∧ ∀ k, (Yard.moveLines move y ls).2.item? k = (y.item? k).map fun m =>
      (ls.filter fun l => decide (l.item = k)).foldl (fun m l => move l.qty m) m := by
  induction ls generalizing y with
  | nil => exact ⟨h, fun k => by simp [Yard.moveLines]⟩
  | cons l ls ih =>
    simp only [Yard.moveLines, Yard.moveTally_good _ y _ (h.2 _)]
    have h' := Yard.menuGood_modItem (move l.qty) y h l.item
    refine ⟨(ih _ h').1, fun k => ?_⟩
    rw [(ih _ h').2, Yard.item_modItem _ _ h.1]
    cases y.item? k with
    | none => rfl
    | some m =>
      by_cases hk : l.item = k
      · simp [hk]
      · simp [hk, Ne.symm hk]

end Sys2Proof.Machine
end

