-- ==== Sys2Proof/WellFormed.lean ====
section
/-! DEFINITION. Which commands can reach the part: a request's fields fit the bytes R203 gives them, a frame's KIND and TAG
are one byte each, and a timer's expiry names a timer that exists. exec gives every command a meaning, these or not. -/

namespace Sys2Proof

/-- A number that fits one byte. -/
def fits1 (n : Nat) : Bool :=
  decide (n < 256)

/-- A number that fits two bytes. -/
def fits2 (n : Nat) : Bool :=
  decide (n < 65536)

/-- A number that fits four bytes. -/
def fits4 (n : Nat) : Bool :=
  decide (n < 4294967296)

/-- A signed number that fits two bytes. -/
def fitsSigned2 (n : Int) : Bool :=
  decide (-32768 ≤ n) && decide (n < 32768)

/-- A list of bytes of a fixed length. -/
def fitsList (len : Nat) (l : List Nat) : Bool :=
  decide (l.length = len) && l.all fits1

/-- A cue fits its body: kind in one byte, frame and argument in two each. -/
def WireCue.fits (c : WireCue) : Bool :=
  fits1 c.kind && fits2 c.frame && fits2 c.arg

/-- A line fits its body. -/
def WireLine.fits (l : WireLine) : Bool :=
  fits1 l.item && fits1 l.qty

/-- A car number a check-in limit can belong to (R117). -/
def carNumberOk (n : Nat) : Bool :=
  decide (1 ≤ n) && decide (n ≤ 9999)

/-- A post of a loop (R69). -/
def postOk (n : Nat) : Bool :=
  decide (n < 128)

/-- The fields of a TAKE fit: its filter's number has the width of the filter's kind (R178). -/
def fitsFilter (filter arg : Nat) : Bool :=
  match filter with
  | 0 => decide (arg = 0)
  | 2 => fits1 arg
  | _ => fits1 filter && fits2 arg

/-- A well-formed command. -/
def Instr.wellFormed : Instr → Bool
  | .atSpeedChange _ _ _ => true
  | .runoutChange _ _ _ => true
  | .lampOkChange _ _ _ => true
  | .framePulse _ _ => true
  | .startTimerExpiry _ => true
  | .motorLeadReached _ => true
  | .breakCountdownExpiry _ => true
  | .loadCues tag screen reel length cues =>
    fits1 tag && fits1 screen && fits1 reel && fits2 length && fits1 cues.length && cues.all WireCue.fits
  | .start tag screen => fits1 tag && fits1 screen
  | .resume tag screen => fits1 tag && fits1 screen
  | .stopShow tag screen => fits1 tag && fits1 screen
  | .clearShow tag screen => fits1 tag && fits1 screen
  | .flagSet tag screen flag value => fits1 tag && fits1 screen && fits1 flag && fits1 value
  | .lights tag screen level => fits1 tag && fits1 screen && fits1 level
  | .timelineSet tag screen secs lead => fits1 tag && fits1 screen && fits1 secs && fits1 lead
  | .showStatus tag screen => fits1 tag && fits1 screen
  | .resetScreen tag screen => fits1 tag && fits1 screen
  | .soundLinkByte _ _ => true
  | .soundBlockGap _ => true
  | .outputTick _ => true
  | .coastGapExpiry _ => true
  | .coastLimitExpiry _ => true
  | .source tag screen src => fits1 tag && fits1 screen && fits1 src
  | .servoSet tag screen offset window deadband gain rmax limit =>
    fits1 tag && fits1 screen && fitsSigned2 offset && fits2 window && fits1 deadband && fits1 gain && fits2 rmax &&
      fits4 limit
  | .levelSet tag screen level => fits1 tag && fits1 screen && fits2 level
  | .soundStatus tag screen => fits1 tag && fits1 screen
  | .transactionStart _ => true
  | .headerSent _ => true
  | .loopResponse _ _ => true
  | .responseWindowExpiry _ => true
  | .loopStrayBytes _ _ => true
  | .recoveryTimerExpiry _ post => postOk post
  | .lendRequestRise _ => true
  | .lendRequestFall _ => true
  | .lendTimerExpiry _ => true
  | .lentResponseHeard _ _ => true
  | .postMap tag loop presence => fits1 tag && fits1 loop && fitsList 128 presence
  | .send tag loop post kind enable0 value0 enable1 value1 prio =>
    fits1 tag && fits1 loop && fits1 post && fits1 kind && fits1 enable0 && fits1 value0 && fits1 enable1 &&
      fits1 value1 && fits1 prio
  | .sendAbort tag loop slot => fits1 tag && fits1 loop && fits1 slot
  | .fieldSummary tag loop => fits1 tag && fits1 loop
  | .loopSet tag loop window lendAllowed lend =>
    fits1 tag && fits1 loop && fits1 window && fits1 lendAllowed && fits2 lend
  | .loopStatus tag loop => fits1 tag && fits1 loop
  | .postStatus tag loop post => fits1 tag && fits1 loop && fits1 post
  | .loopReset tag loop => fits1 tag && fits1 loop
  | .armingLoopChange _ _ => true
  | .barrierLoopChange _ _ => true
  | .barrierFeedbackChange _ _ => true
  | .barrierTravelExpiry _ => true
  | .credential _ _ => true
  | .dwellExpiry _ => true
  | .stallTimerExpiry _ => true
  | .exitReadExpiry _ => true
  | .laneOpen tag lane => fits1 tag && fits1 lane
  | .laneClose tag lane => fits1 tag && fits1 lane
  | .laneSet tag lane dwell stall exitRead =>
    fits1 tag && fits1 lane && fits1 dwell && fits2 stall && exitRead.all fits1
  | .laneStatus tag lane => fits1 tag && fits1 lane
  | .ticketQuery tag ticket => fits1 tag && fits4 ticket
  | .checkinLimitExpiry car => carNumberOk car
  | .sitePlan tag screen bays => fits1 tag && fits1 screen && fitsList 256 bays
  | .capacitySet tag screen capacity => fits1 tag && fits1 screen && fits2 capacity
  | .ctSet tag limit => fits1 tag && fits1 limit
  | .carRemove tag car => fits1 tag && fits2 car
  | .carQuery tag car => fits1 tag && fits2 car
  | .bayQuery tag bay => fits1 tag && fits2 bay
  | .fieldStatus tag screen => fits1 tag && fits1 screen
  | .menuSet tag item station price available mode =>
    fits1 tag && fits1 item && fits1 station && fits2 price && fits1 available && fits1 mode
  | .restock tag item qty => fits1 tag && fits1 item && fits2 qty
  | .stockWaste tag item qty => fits1 tag && fits1 item && fits2 qty
  | .orderEnter tag bay mode lines =>
    fits1 tag && fits2 bay && fits1 mode && fits1 lines.length && lines.all WireLine.fits
  | .orderRelease tag screen => fits1 tag && fits1 screen
  | .forceCancel tag order => fits1 tag && fits2 order
  | .menuQuery tag item => fits1 tag && fits1 item
  | .orderQuery tag order => fits1 tag && fits2 order
  | .oeStatus tag => fits1 tag
  | .stationNext tag station => fits1 tag && fits1 station
  | .stationDone tag station order line => fits1 tag && fits1 station && fits2 order && fits1 line
  | .stationStatus tag station => fits1 tag && fits1 station
  | .readyStatus tag => fits1 tag
  | .take tag runner filter arg => fits1 tag && fits1 runner && fitsFilter filter arg
  | .delivered tag runner order => fits1 tag && fits1 runner && fits2 order
  | .returnOrder tag runner order => fits1 tag && fits1 runner && fits2 order
  | .takeTimerExpiry _ => true
  | .runnerSet tag limit => fits1 tag && fits1 limit
  | .runnerStatus tag runner => fits1 tag && fits1 runner
  | .runnersStatus tag => fits1 tag
  | .storeTestVisit => true
  | .storeTest tag table => fits1 tag && fits1 table
  | .storeStatus tag => fits1 tag
  | .storeClear tag => fits1 tag
  | .hostFrameDiscard => true
  | .hostFrameGap => true
  | .unknownKind kind tag => fits1 kind && fits1 tag
  | .requestBusy kind tag => fits1 kind && fits1 tag
  | .linkFrameSent => true
  | .openNight tag => fits1 tag
  | .closeNight tag => fits1 tag
  | .resetDevice tag => fits1 tag
  | .deviceReset => true
  | .powerOn => true
  | .linkStatus tag => fits1 tag

end Sys2Proof
end

