-- ==== Sys2Proof/Tests/Slice0.lean ====
section
/-! SUPPORT. Small tests of the model, each on one step or one operation with its expected result from the spec's own
worked numbers and tables, the smoke test of WellFormed, and for every statement with hypotheses a witness that meets them
together. -/

namespace Sys2Proof.Tests

-- One test after another: side by side, each holds a thread of its own while the kernel works through the others.
set_option Elab.async false

open Sys2Proof.Machine

/-! ## Small states -/

/-- The next state of an outcome. -/
def nx : Host.Outcome State Fault Refusal → State
  | .next s => s
  | .fault _ => State.reset
  | .refused _ => State.reset

/-- The part in RUN with a free transmitter. -/
def run0 : State :=
  { State.reset with link := { Link.reset with part := .run, tx := .idle } }

/-- The part in SETUP with a free transmitter. -/
def setup0 : State :=
  { State.reset with link := { Link.reset with tx := .idle } }

/-- A head RUNNING with its douser open. -/
def rolling : HeadRec :=
  { HeadRec.reset with motor := true, douser := true, atSpeed := true }

/-- A head RUNNING in the dark. -/
def readyHead : HeadRec :=
  { HeadRec.reset with motor := true, atSpeed := true }

/-- Reel 1 on the screen, with one LIGHTS cue ahead. -/
def reelOne (phase : ShowState) : Screen :=
  { Screen.reset with
    phase := phase, reel := 1, frame := 99, f := 99, headA := rolling
    active := some { reel := 1, length := 1000, cues := [(⟨.lights, 200, 1⟩, false)] } }

/-- Screen 1 in RUN with a given record. -/
def shown (r : Screen) : State :=
  run0.withScreen 1 r

/-- Screen 1 in RUN with a given sound path. -/
def heard (r : Sound) : State :=
  run0.withSound 1 r

/-- Loop 2 in RUN with a given record. -/
def looped (l : LoopRec) : State :=
  run0.withLoop 2 l

/-- Lane 1 in RUN with a given record. -/
def laned (l : Lane) : State :=
  run0.withLane 1 l

/-- The part in RUN with a given yard. -/
def yarded (y : Yard) : State :=
  { run0 with yard := y }

/-- A slot in use. -/
def used {ρ : Type} (r : ρ) : Slot ρ :=
  { state := .inUse r, badFirst := false, badSecond := false, failing := false }

/-- Car 1234 of screen 1, PARKED in bay 300, with order 7. -/
def car1234 : Car :=
  { number := 1234, ticket := 5001, cls := .car, screen := 1, state := .parked, entryLane := 0, entryMinute := 3,
    bay := some 300, checkin := some 5, wired := true, orders := [7], unchecked := false }

/-- Car 4417 of screen 1, ON_FIELD. -/
def car4417 : Car :=
  { number := 4417, ticket := 5002, cls := .pass, screen := 1, state := .onField, entryLane := 2, entryMinute := 4,
    bay := none, checkin := none, wired := false, orders := [], unchecked := false }

/-- A FINITE item of station 3 at 250. -/
def popcorn : MenuItem :=
  { station := 3, price := 250, available := true, mode := .finite, loaded := 20, remaining := 10, pending := 6, sold := 3,
    waste := 1 }

/-- Order 7 of car 1234: two units of item 12. -/
def order7 (st : OrderState) (ln : LineState) : Order :=
  { number := 7, car := 1234, screen := 1, mode := .now, state := st, lines := [{ item := 12, qty := 2, state := ln }],
    total := 500, accepted := 6, readyMinute := none, taker := none, carGone := false }

/-- The reference of order 7's line in its station's queue. -/
def ref7 (ln : LineState) : LineRef :=
  { order := 7, line := 0, item := 12, qty := 2, state := ln }

/-- A yard with the two cars, two open bays, an item and an order. -/
def field7 (o : Order) : Yard :=
  { Yard.reset with
    store := { Store.reset with
      cars := [(0, used car1234), (1, used car4417)]
      bays := [(300, used { occupant := some 1234, speaker := true }), (301, used { occupant := none, speaker := false })]
      orders := [(0, used o)]
      menu := [(12, used popcorn)] }
    capacity := Vector.replicate 4 2
    admittedCount := Vector.replicate 4 2
    lastCar := 4417
    lastOrder := 7 }

/-- Order 7 on the ready list. -/
def entry7 : ReadyEntry :=
  { order := 7, car := 1234, row := some 18 }

/-- Runner 5 holding order 7. -/
def holder7 : Runner :=
  { held := some 7, timer := some 600000, last := none }

/-- The yard with order 7 TAKEN by runner 5. -/
def taken7 (gone : Bool) : Yard :=
  { field7 { order7 .taken .done with taker := some 5, carGone := gone } with
    runners := Yard.reset.runners.set 5 holder7 }

/-- Post 10 of loop 2 PRESENT with a count of errors. -/
def posted (errors : Nat) : LoopRec :=
  { LoopRec.reset with posts := [(10, { Post.reset with present := true, errors := errors })] }

/-- A POLL of post 10 in flight with its window open. -/
def polled (waits agains : Nat) : Transaction :=
  { post := 10, fn := .poll, slot := none, waits := waits, agains := agains, header := headerBytes 10 .poll 0 [],
    window := .listening 20 (some 20) }

/-- The bytes of a response. -/
def response (post status : Byte) (rec : List Byte) : List Byte :=
  let inner := [post, status, BitVec.ofNat 8 rec.length] ++ rec
  0xC3#8 :: (inner ++ [crc8 inner])

/-- A vehicle waits at lane 1 with nothing decided. -/
def atReader : Lane :=
  { Lane.reset with state := .present, arming := .occupied, travel := none }

/-- A ticket for screen 1. -/
def ticket5003 : Credential :=
  { ticket := 5003, cls := 0, choice := 1, good := true }

/-- A yard with room on screen 1's field. -/
def roomy1 : Yard :=
  { Yard.reset with capacity := Vector.replicate 4 1 }

/-! ## WellFormed refuses what cannot be sent -/

theorem test_wellFormed_tag : Instr.wellFormed (.oeStatus 255) = true ∧ Instr.wellFormed (.oeStatus 256) = false := by
  decide

theorem test_wellFormed_two_bytes :
    Instr.wellFormed (.carRemove 0 65535) = true ∧ Instr.wellFormed (.carRemove 0 65536) = false := by decide

theorem test_wellFormed_four_bytes : Instr.wellFormed (.ticketQuery 0 4294967295) = true ∧
    Instr.wellFormed (.ticketQuery 0 4294967296) = false := by decide

theorem test_wellFormed_signed : Instr.wellFormed (.servoSet 0 0 (-32768) 0 0 0 0 0) = true ∧
    Instr.wellFormed (.servoSet 0 0 (-32769) 0 0 0 0 0) = false ∧
    Instr.wellFormed (.servoSet 0 0 32768 0 0 0 0 0) = false := by decide

theorem test_wellFormed_list : Instr.wellFormed (.postMap 0 0 (List.replicate 128 1)) = true ∧
    Instr.wellFormed (.postMap 0 0 (List.replicate 127 1)) = false ∧
    Instr.wellFormed (.sitePlan 0 0 (List.replicate 256 256)) = false := by decide +kernel

theorem test_wellFormed_cue : Instr.wellFormed (.loadCues 0 0 1 10 [⟨0, 65535, 0⟩]) = true ∧
    Instr.wellFormed (.loadCues 0 0 1 10 [⟨0, 65536, 0⟩]) = false := by decide

theorem test_wellFormed_line : Instr.wellFormed (.orderEnter 0 300 0 [⟨12, 255⟩]) = true ∧
    Instr.wellFormed (.orderEnter 0 300 0 [⟨12, 256⟩]) = false := by decide

theorem test_wellFormed_car : Instr.wellFormed (.checkinLimitExpiry 9999) = true ∧
    Instr.wellFormed (.checkinLimitExpiry 0) = false ∧ Instr.wellFormed (.checkinLimitExpiry 10000) = false := by decide

theorem test_wellFormed_post : Instr.wellFormed (.recoveryTimerExpiry 0 127) = true ∧
    Instr.wellFormed (.recoveryTimerExpiry 0 128) = false := by decide

theorem test_wellFormed_filter : Instr.wellFormed (.take 0 5 2 255) = true ∧
    Instr.wellFormed (.take 0 5 2 256) = false ∧ Instr.wellFormed (.take 0 5 0 1) = false := by decide

/-! ## Numbers the spec works out -/

/-- The worked code of spec/05: car 4,417 has the code 441739. -/
theorem test_admission_code : admissionCode 4417 = 441739 ∧ codeValid 441739 = true ∧ codeCar 441739 = 4417 ∧
    codeValid 441740 = false ∧ codeValid 999998 = false := by decide

/-- Numbering of the site: bay 300 is served by post 22 of loop 1 on side 0 and lies in row 18. -/
theorem test_bay_numbers : bayLoop 300 = 1 ∧ bayPost 300 = 22 ∧ baySide 300 = 0 ∧ bayRow 300 = 18 := by decide

/-- R53: rounding toward minus infinity and saturation. -/
theorem test_level_stage : scale 256 (100, -100) = (100, -100) ∧ scale 128 (-1, 3) = (-1, 1) ∧
    scale 320 (32767, -32768) = (32767, -32768) := by decide

/-- R203: most significant byte first. -/
theorem test_bytes : u16 4660 = [0x12#8, 0x34#8] ∧ u32 1250 = [0#8, 0#8, 4#8, 226#8] ∧ i16 (-2) = [0xFF#8, 0xFE#8] := by
  decide

/-- The check values of the two CRCs over the text 123456789 (the polynomials and initial values of spec/02, 03, 10). -/
theorem test_crc : crc16 [0x31, 0x32, 0x33, 0x34, 0x35, 0x36, 0x37, 0x38, 0x39] = 0x29B1#16 ∧
    crc8 [0x31, 0x32, 0x33, 0x34, 0x35, 0x36, 0x37, 0x38, 0x39] = 0xF4#8 := by decide +kernel

/-! ## One command on a small state -/

/-- R2, R22: a speed loss stalls the show and closes the douser. -/
theorem test_stall : ((nx (exec (.atSpeedChange 1 .a false) (shown (reelOne .playing)))).screens[(1 : ScreenId)]).phase =
    .held := by decide +kernel

/-- R12: START commands the motor of head A on and loads 10 s. -/
theorem test_start : let r := (nx (exec (.start 9 1) (shown { reelOne .loaded with headA := HeadRec.reset
                                                              }))).screens[(1 : ScreenId)]
    r.phase = .starting ∧ r.headA.motor = true ∧ r.startTimer = some 10000 := by decide +kernel

/-- R5, R6: a counted pulse. -/
theorem test_pulse : let r := (nx (exec (.framePulse 1 .a) (shown (reelOne .playing)))).screens[(1 : ScreenId)]
    r.frame = 100 ∧ r.f = 100#32 := by decide +kernel

/-- R30: 61 s is lowered to 60, 1 s raised to 2. -/
theorem test_timelineSet : let r := (nx (exec (.timelineSet 9 1 61 1) run0)).screens[(1 : ScreenId)]
    r.startSetting = 60 ∧ r.leadSetting = 2 := by decide +kernel

/-- R50: with R at 655 and A at 65,000 the accumulator passes its threshold and P moves by 2. -/
theorem test_tick : let v := (nx (exec (.outputTick 1) (heard { Sound.reset with
      source := .programme, servo := { Servo.reset with state := .track, p := 512, a := 65000, r := 655 }
                                                               }))).sound[(1 : ScreenId)].servo
    v.p = 514#32 ∧ v.a = 119 := by decide +kernel

/-- R69, R70: a FAULT response raises the count of errors by 8 and at 96 the post is DOUBTFUL. -/
theorem test_loop_fault : let l := (nx (exec (.loopResponse 2 (response 10 3 []))
      (looped { posted 88 with current := some (polled 0 0) }))).yard.loops[(2 : ScreenId)]
    (l.post 10).errors = 96 ∧ (l.post 10).conf = .doubtful ∧ l.errors = 1 ∧ l.current = none := by decide +kernel

/-- R99: an admission opens the barrier for 30 s and creates car 1 in slot 0. -/
theorem test_admission : let t := nx (exec (.credential 1 ticket5003) { laned atReader with yard := roomy1 })
    t.lanes[(1 : LaneId)].state = .opening ∧ t.lanes[(1 : LaneId)].dwell = some 30000 ∧
      (t.yard.car? 1).map Car.ticket = some 5003 ∧ t.yard.admittedCount[(1 : ScreenId)] = 1 := by decide +kernel

/-- R126, the worked check-in of spec/05: the occupant of the bay is displaced. -/
theorem test_checkin : let y := (field7 (order7 .queued .pending)).checkin run0.site 300 441739 true
    y.bay? 300 = some { occupant := some 4417, speaker := true } ∧
      (y.car? 1234).map Car.state = some .onField := by decide +kernel

/-- R137, R140: eleven of ten units are not there to waste. -/
theorem test_stockWaste : let m := (nx (exec (.stockWaste 9 12 11) (yarded (field7 (order7 .queued .pending))))).yard.item? 12
    m.map (fun m => (m.remaining, m.waste)) = some (0, 11) := by decide +kernel

/-- R146: an order of five units of item 12 under two lines. -/
theorem test_orderEnter : let t := nx (exec (.orderEnter 9 300 0 [⟨12, 2⟩, ⟨12, 3⟩]) (yarded (field7
      (order7 .queued .pending))))
    (t.yard.item? 12).map (fun m => (m.remaining, m.pending)) = some (5, 11) ∧ t.yard.lastOrder = 8 ∧
      (t.yard.queues[(3 : StationId)]).length = 2 := by decide +kernel

/-- R166: the last line of an order makes it READY in the row of its car's bay. -/
theorem test_stationDone : let t := nx (exec (.stationDone 9 3 7 0) (yarded { field7 (order7 .queued .making) with
      queues := Yard.reset.queues.set 3 [ref7 .making] }))
    t.yard.readyList = [entry7] ∧ t.yard.rowCounts = [(18, 1)] := by decide +kernel

/-- R185: an expired take goes back to the head of the list and is remembered. -/
theorem test_takeExpiry : let t := nx (exec (.takeTimerExpiry 5) (yarded (taken7 false)))
    t.yard.readyList = [entry7] ∧ t.yard.runners[(5 : RunnerId)].last = some (7, .expired) := by decide +kernel

/-- R191: a damaged item is quarantined at its read. -/
theorem test_parity : let t := nx (exec (.menuQuery 9 12) (yarded { Yard.reset with
      store := { Store.reset with menu := [(12, { used popcorn with badSecond := true })] } }))
    (t.yard.menuSlot 12).state = .quarantined ∧ t.yard.store.latch = some (.menu, 12, .second) ∧
      t.yard.store.faultCount = 1 := by decide +kernel

/-- R172: the units of the PENDING lines are given back before those of the lines made are lost, whatever the order of
the lines; with both records damaged the item returned is met first. -/
theorem test_settleLines_order : let y := { Yard.reset with store := { Store.reset with
      menu := [(12, { used popcorn with badFirst := true }), (13, { used popcorn with badFirst := true })] } }
    (y.settleLines [⟨12, 1, .done⟩, ⟨13, 1, .pending⟩]).2.store.latch = some (.menu, 12, .first) := by decide +kernel

/-- R203: the value of a side that is not enabled is left out. -/
theorem test_sideBytes : sideBytes none (some 9) = [0x00#8, 0x01#8, 0x09#8] := by decide

/-- R208: the clock starts with the night and counts a millisecond on an idle step. -/
theorem test_night : (nx (exec (.openNight 9) setup0)).link.part = .run ∧
    (nx (step run0)).link.clock = 1 ∧ (nx (step setup0)).link.clock = 0 := by decide +kernel

/-- R201, R202, R205: the frame 0xA5, LENGTH 0, KIND 0x3C, TAG 9 with its CRC is a LINK STATUS, answered on the spot; with
one bit of its CRC wrong it is discarded and counted. -/
theorem test_hostFrame : let good := [0xA5#8, 0#8, 0#8, 0x3C#8, 9#8] ++ u16 (crc16 [0#8, 0#8, 0x3C#8, 9#8]).toNat
    let v := nx (exec .hostFrameDiscard { run0 with hostLine := good })
    (v.link.replies.map fun p => p.isRequest) = [true] ∧ v.link.linkErrors = 0 ∧ v.hostLine = [] ∧
    let t := nx (exec .hostFrameDiscard { run0 with hostLine := good.dropLast ++ [(good.getLastD 0#8) ^^^ 1#8] })
    t.link.replies = [] ∧ t.link.linkErrors = 1 ∧ t.link.rx = none := by decide +kernel

/-- R201: a gap in a frame discards it with a count, and the 0xA5 that ends the gap opens the next frame; with no frame in
progress nothing is counted. -/
theorem test_hostGap : let s := { run0 with hostLine := [0xA5#8, 0#8], link := { run0.link with rx := some [0#8] } }
    (nx (exec .hostFrameGap s)).link.linkErrors = 1 ∧ (nx (exec .hostFrameGap s)).link.rx = some [] ∧
    (nx (exec .hostFrameGap s)).hostLine = [0#8] ∧ (nx (exec .hostFrameGap run0)).link.linkErrors = 0 := by
  decide +kernel

/-! ## Witnesses: the hypotheses of each statement, met together -/

theorem witness_IdleStepPassesAMillisecond : (run0.pending = [] ∧ run0.link.part = .run ∧
    ({ run0.link with clock := 4294967294 } : Link).clock < 4294967295) ∧
    setup0.pending = [] ∧ setup0.link.part = .setup := by decide

theorem witness_RequestFindsItsPlace : requestOf (.linkStatus 9) = some (0x3C, 9) ∧ run0.settled ∧ run0.link.roomy ∧
    ({ run0.link with replies := List.replicate 8 (.request 1 0 Reply.ok) } : Link).resetPending = false ∧
    8 ≤ ({ run0.link with replies := List.replicate 8 (.request 1 0 Reply.ok) } : Link).requests ∧
    16 ≤ ({ run0.link with replies := List.replicate 16 (.busy 1 0) } : Link).replies.length ∧
    ({ run0.link with replies := [.request 0x3B 0 Reply.ok] } : Link).resetPending = true := by decide

theorem witness_LinkLawKept : State.reset.linkLaw ∧ ∃ t, step State.reset = .next t := by
  refine ⟨?_, _, rfl⟩
  unfold State.linkLaw
  decide

theorem witness_DouserLawKept : ∀ sc : ScreenId, (shown (reelOne .playing)).screens[sc].lawful := by
  intro sc
  have h : ∀ r : Screen, r = reelOne .playing ∨ r = Screen.reset → r.lawful := by
    rintro r (rfl | rfl)
    all_goals
      refine ⟨?_, by decide, by decide, by decide, by decide, by decide⟩
      intro x
      cases x <;> decide
  apply h
  fin_cases sc <;> decide

theorem witness_SoundLawKept : ∀ sc : ScreenId, run0.sound[sc].lawful := by
  intro sc
  have h : run0.sound[sc] = Sound.reset := by fin_cases sc <;> rfl
  rw [h]
  unfold Sound.lawful Servo.lawful ServoSettings.inRange in16
  decide

theorem witness_BarrierLawKept : ∀ ln : LaneId, (laned atReader).lanes[ln].lawful := by
  intro ln
  have h : ∀ l : Lane, l = atReader ∨ l = Lane.reset → l.lawful := by
    rintro l (rfl | rfl) <;> (unfold Lane.lawful; decide)
  apply h
  fin_cases ln <;> decide

theorem witness_StockLawKept : (yarded (field7 (order7 .queued .pending))).menuLaw ∧
    ∃ t, step (yarded (field7 (order7 .queued .pending))) = .next t := by
  refine ⟨?_, _, rfl⟩
  intro e he m hm
  simp only [yarded, field7, List.mem_singleton] at he
  subst he
  cases hm
  exact ⟨rfl, by decide⟩

theorem witness_TablesStayCanonical : (yarded (field7 (order7 .queued .pending))).canonical = true := by decide +kernel

theorem witness_PartStateChangesOnlyAtNight : ∃ t, exec (.openNight 9) setup0 = .next t ∧
    t.link.part ≠ setup0.link.part := ⟨_, rfl, by decide⟩

theorem witness_HaltedScreenNeedsReset : ∃ t, exec (.resetScreen 9 1) (shown (reelOne .halted)) = .next t ∧
    (shown (reelOne .halted)).screens[(1 : ScreenId)].phase = .halted ∧ t.screens[(1 : ScreenId)].phase ≠ .halted :=
  ⟨_, rfl, by decide +kernel, by decide +kernel⟩

theorem witness_HeadFaultsTaken : (shown (reelOne .playing)).settled ∧
    (shown (reelOne .playing)).screens[(1 : ScreenId)] = reelOne .playing ∧ rolling.stopAtRunout = false ∧
    (reelOne .playing).phase = .playing ∧ (reelOne .playing).isOnScreen .a = true ∧ rolling.atSpeed = true ∧
    rolling.motor = true ∧ rolling.lampOk = true := by decide +kernel

theorem witness_HeadFaultsTaken_marker : let r := { reelOne .playing with headB := { readyHead with stopAtRunout := true } }
    (shown r).settled ∧ (r.head .b).stopAtRunout = true ∧ r.phase ≠ .held ∧ (r.head .b).lampOk = true ∧
      (r.head .b).atSpeed = true ∧ (r.head .b).motor = true ∧ r.isOnScreen .b = false := by decide +kernel

theorem witness_SecondFaultHaltsTheScreen : let r := { reelOne .held with heldHead := some .a }
    (shown r).screens[(1 : ScreenId)] = r ∧ r.phase = .held ∧ r.heldHead = some .a ∧ (r.head .a).lampOk = true ∧
      (r.head .a).atSpeed = true ∧ (r.head .a).motor = true := by decide +kernel

theorem witness_SecondFaultHaltsTheScreen_recovery : let r := { reelOne .held with
      heldHead := some .a, headA := { rolling with atSpeed := false, douser := false } }
    r.phase = .held ∧ r.heldHead = some .a ∧ r.isOnScreen .a = true ∧ (r.head .a).atSpeed = false ∧
      (r.head .a).motor = true ∧ (r.head .a).lampOk = true ∧ (r.head .a).runout = false := by decide

theorem witness_RunoutEndsTheShow : (reelOne .playing).isOnScreen .a = true ∧ rolling.motor = true ∧
    rolling.runout = false ∧ (reelOne .playing).unfiredChangeover = none := by decide

/-- Reel 1 on the screen with a CHANGEOVER cue ahead at frame 100. -/
def lastCue (len : Nat) : Screen :=
  { reelOne .playing with active := some { reel := 1, length := 1000, cues := [(⟨.changeover, 100, len⟩, false)] } }

theorem witness_RunoutEndsTheShow_early : (shown (lastCue 0)).settled ∧ (lastCue 0).isOnScreen .a = true ∧
    rolling.stopAtRunout = false ∧ rolling.speedLost = false ∧
    (lastCue 0).unfiredChangeover = some (0, ⟨.changeover, 100, 0⟩) ∧
    (lastCue 480).unfiredChangeover = some (0, ⟨.changeover, 100, 480⟩) ∧ (lastCue 0).incoming = .b ∧
    HeadRec.reset.state ≠ .running ∧ ({ HeadRec.reset with motor := true, stopAtRunout := false } : HeadRec).state ≠ .running ∧
    let d := { reelOne .held with heldHead := some .b }
    (shown d).settled ∧ d.isOnScreen .a = true ∧ d.heldHead ≠ some .a ∧
      let o := { reelOne .playing with headB := { readyHead with stopAtRunout := true } }
      o.isOnScreen .b = false ∧ o.headB.stopAtRunout = true ∧ o.headB.motor = true ∧ o.headB.runout = false := by
  decide +kernel

theorem witness_FramePulseCounts : (shown (reelOne .playing)).settled ∧ (reelOne .playing).due 100 = [] ∧
    (reelOne .playing).isOnScreen .a = true ∧ ({ reelOne .playing with frame := 65535 } : Screen).due 65535 = [] ∧
    (reelOne .playing).isOnScreen .b = false := by decide +kernel

theorem witness_FramePulseCounts_changeover : (lastCue 0).due 100 = [(0, ⟨.changeover, 100, 0⟩)] ∧
    (lastCue 480).due 100 = [(0, ⟨.changeover, 100, 480⟩)] ∧ (lastCue 0).frame + 1 = 100 ∧
    ({ lastCue 0 with headB := readyHead } : Screen).headB.state = .running ∧ (lastCue 0).staged = none ∧
    (lastCue 0).headB.state ≠ .running ∧ ({ reelOne .playing with frame := 199 } : Screen).due 200 = [(0, ⟨.lights, 200, 1⟩)] := by
  decide +kernel

/-- A set whose frame-0 cues turn the lights up and, with a break length above 0, start a break. -/
def openingSet (reel len : Nat) : CueSet :=
  { reel := reel, length := 10
    cues := (⟨.lights, 0, 2⟩, false) :: if len = 0 then [] else [(⟨.changeover, 0, len⟩, false)] }

theorem witness_FramePulseCounts_opening : let m (len : Nat) := { lastCue 0 with
      headB := readyHead, frame := 100, staged := some (openingSet 2 len) }
    (m 0).completed.due 0 = [(0, ⟨.lights, 0, 2⟩)] ∧
      (m 30).completed.due 0 = [(0, ⟨.lights, 0, 2⟩)] ++ [(1, ⟨.changeover, 0, 30⟩)] ∧
      noChangeover [(0, ⟨.lights, 0, 2⟩)] := by
  simp only [noChangeover]
  decide +kernel

theorem witness_ShowStarts : (shown (reelOne .loaded)).ready ∧ (shown (reelOne .loaded)).link.part = .run ∧
    { HeadRec.reset with motor := true }.state ≠ .running ∧ (reelOne .starting).due 0 = [] ∧
    { HeadRec.reset with motor := true }.atSpeed = false ∧ { HeadRec.reset with motor := true }.lampOk = true ∧
    (some 10000).isSome = true := by decide +kernel

theorem witness_ShowStarts_running : let r := { reelOne .loaded with headA := { readyHead with motor := false } }
    (shown r).ready ∧ ({ r.headA with motor := true } : HeadRec).state = .running ∧ r.due 0 = [] ∧
      ({ reelOne .starting with startTimer := some 0 } : Screen).startTimer.isSome = true := by decide +kernel

theorem witness_ShowStarts_opening : let r := { reelOne .starting with
      active := some (openingSet 1 30), headA := { readyHead with atSpeed := false } }
    (shown r).ready ∧ r.due 0 = [(0, ⟨.lights, 0, 2⟩)] ++ [(1, ⟨.changeover, 0, 30⟩)] ∧ r.headA.atSpeed = false ∧
      r.headA.motor = true ∧ r.headA.lampOk = true ∧ r.headA.runout = false ∧
      ({ r with active := some (openingSet 1 0) } : Screen).due 0 = [(0, ⟨.lights, 0, 2⟩)] := by decide +kernel

theorem witness_BreakRunsDown : let r := { reelOne .onBreak with countdown := some 8000 }
    (shown r).settled ∧ (shown r).link.roomy ∧ r.leadSetting ≠ 0 ∧ (r.head r.incoming).state ≠ .running ∧
      ({ HeadRec.reset with motor := true } : HeadRec).state ≠ .running := by decide +kernel

theorem witness_BreakEndsInChangeover : let r := { reelOne .onBreak with
      countdown := some 1, headB := readyHead, staged := some { reel := 2, length := 10, cues := [(⟨.mark, 1, 0⟩, false)] } }
    (shown r).ready ∧ (r.head r.incoming).state = .running ∧ r.countdown.isSome = true ∧
      (∀ cs ∈ r.staged, ∀ c ∈ cs.cues, c.1.frame ≠ 0) := by decide +kernel

theorem witness_BreakEndsInChangeover_opening : let r (len : Nat) := { reelOne .onBreak with
      countdown := some 1, headB := readyHead, staged := some (openingSet 2 len) }
    (shown (r 30)).ready ∧ ((r 30).head (r 30).incoming).state = .running ∧ (r 30).countdown.isSome = true ∧
      (r 30).completed.due 0 = [(0, ⟨.lights, 0, 2⟩)] ++ [(1, ⟨.changeover, 0, 30⟩)] ∧
      (r 0).completed.due 0 = [(0, ⟨.lights, 0, 2⟩)] ∧
      ({ r 0 with staged := some (openingSet 5 0) } : Screen).completed.due 0 = [] := by decide +kernel

theorem witness_BreakEndsInChangeover_held : let r := { reelOne .held with
      heldHead := some .b, headB := { HeadRec.reset with motor := true } }
    (shown r).ready ∧ r.staged = none ∧ r.heldHead = some r.incoming ∧ r.isOnScreen r.incoming = false ∧
      (r.head r.incoming).atSpeed = false ∧ (r.head r.incoming).motor = true ∧ (r.head r.incoming).lampOk = true ∧
      (r.head r.incoming).runout = false ∧
      ({ r with staged := some { reel := 5, length := 10, cues := [] } } : Screen).staged.map CueSet.reel ≠
        some (r.reel + 1) := by decide +kernel

theorem witness_LoadCuesPlacesTheSet : run0.ready ∧ setOk 1 1000 [⟨.lights, 0, 3⟩] = true ∧ setOk 16 1000 [] = false ∧
    setOk 15 1 [] = true ∧ cuesOf [⟨2, 0, 3⟩] = some [⟨.lights, 0, 3⟩] := by decide

theorem witness_LoadCuesPlacesTheSet_checks : let good := [Cue.mk .lights 0 3, ⟨.changeover, 9, 3600⟩]
    cuesOf [⟨2, 0, 3⟩, ⟨1, 9, 3600⟩] = some good ∧ good.Pairwise (fun x y => x.frame ≤ y.frame) ∧
      (∀ c ∈ good, c.frame < 10 ∧ c.arg ≤ 3600) ∧ good.length ≤ 32 ∧
      ¬[Cue.mk .lights 5 3, ⟨.lights, 4, 3⟩].Pairwise (fun x y => x.frame ≤ y.frame) ∧
      (shown (reelOne .ended)).ready ∧ (shown (reelOne .ended)).link.part = .run := by decide +kernel

theorem witness_StopAndClearShow : (shown (reelOne .held)).ready ∧ (shown (reelOne .starting)).ready ∧
    (shown (reelOne .ended)).link.part = .run ∧ (shown (reelOne .halted)).screens[(1 : ScreenId)].phase = .halted := by
  decide +kernel

theorem witness_StopAndClearShow_setup : let s := setup0.withScreen 1 (reelOne .ended)
    s.ready ∧ s.link.part = .setup ∧ s.screens[(1 : ScreenId)] = reelOne .ended ∧ (reelOne .ended).phase = .ended := by
  decide +kernel

theorem witness_TimelineSettings : run0.ready ∧ let r := { reelOne .onBreak with countdown := some 2000 }
    (shown r).ready ∧ r.phase = .onBreak ∧ r.countdown = some (2 * 1000) ∧ (2 : Nat) ≠ 0 := by decide +kernel

theorem witness_ResetScreenClears : (shown (reelOne .halted)).ready := by decide +kernel

theorem witness_SoundReceiverHuntsForBlocks : run0.settled ∧ run0.sound[(1 : ScreenId)].rx = none ∧
    (0x5B#8 ≠ 0x5A#8) ∧ (heard { Sound.reset with rx := some (List.replicate 1030 0x5A#8) }).sound[(1 : ScreenId)].rx =
      some (List.replicate 1030 0x5A#8) ∧ (List.replicate 1030 0x5A#8).length < 1031 := by decide +kernel

theorem witness_SoundReceiverHuntsForBlocks_whole : (List.replicate 1031 0x5A#8).length = 1031 := by decide +kernel

theorem witness_SoundBlocksJudged : dist24 16777215 Sound.reset.servo.block < 0 ∧
    0 ≤ dist24 0 Sound.reset.servo.block ∧ Sound.reset.progSlot 0 = none ∧
    let sd := { Sound.reset with prog := [(0, some { tag := 0, frames := [] })] }
    sd.progSlot (64 % 64) = some { tag := 0, frames := [] } ∧ 0 ≤ dist24 0 sd.servo.block ∧
      dist24 0 sd.servo.block < dist24 64 sd.servo.block ∧
    let bs := { Sound.reset with cursor := some (3, 0), brk := [(4, some { tag := 4, frames := [] })] }
    bs.cursor = some (3, 0) ∧ dist16 2 3 < 0 ∧ bs.brkSlot (20 % 16) = some { tag := 4, frames := [] } ∧
      0 ≤ dist16 4 3 ∧ dist16 4 3 < dist16 20 3 ∧ 0 ≤ dist16 3 3 ∧ bs.brkSlot (3 % 16) = none := by decide +kernel

theorem witness_SoundBlocksJudged_block : (List.replicate 1024 0#8).length = 1024 ∧
    (0#8).toNat * 16777216 + (0#8).toNat * 65536 + (1#8).toNat * 256 + (0#8).toNat = 256 ∧ 256 % 256 = 0 := by decide +kernel

theorem witness_FrameEventMovesTheServo : let v := { Servo.reset with state := .track, p := 2000 }
    (0 * 2000#32 + BitVec.ofInt 32 v.settings.offset - v.p).toInt.natAbs ≤ v.settings.window ∧
      v.settings.window < (4 * 2000#32 + BitVec.ofInt 32 v.settings.offset - v.p).toInt.natAbs ∧
      Servo.reset.state ∈ [ServoState.silent, .capture] := by decide +kernel

theorem witness_FrameEventMovesTheServo_jump : let v := { Servo.reset with state := .locked, p := 2000, gap := some (5, 3) }
    v.state ∈ [ServoState.track, .locked, .coast] ∧ v.gap = some (5, 3) ∧
      v.settings.window < (4 * 2000#32 + BitVec.ofInt 32 v.settings.offset - v.p).toInt.natAbs := by decide +kernel

theorem witness_OutputTickMovesTheServo : let v := { Servo.reset with state := .track, a := 65000, r := 655 }
    let w := { Servo.reset with state := .track, a := -65000, r := -655 }
    run0.settled ∧ 65536 ≤ v.a + v.r ∧ w.a + w.r ≤ -65536 ∧ Sound.reset.stepCount < 47 ∧
      47 ≤ ({ Sound.reset with stepCount := 47 } : Sound).stepCount ∧ Servo.reset.state ∈ [ServoState.silent, .capture] ∧
    let bs := { Sound.reset with source := .onBreak, cursor := some (65535, 255), level := 1,
                                 brk := [(15, some { tag := 65535, frames := [] })] }
    (heard bs).settled ∧ (heard bs).sound[(1 : ScreenId)] = bs ∧ bs.ramp = none ∧
      bs.brkSlot (65535 % 16) = some { tag := 65535, frames := [] } ∧ bs.brkSlot (3 % 16) = none := by
  decide +kernel

theorem witness_OutputTickMovesTheServo_switch : let r := { Sound.reset with
      source := .programme, ramp := some (.onBreak, .host), level := 1, stepCount := 47
      servo := { Servo.reset with state := .coast, gap := some (5, 3), coastLimit := some 9 } }
    (heard r).settled ∧ (heard r).sound[(1 : ScreenId)] = r ∧ 47 ≤ r.stepCount ∧ r.ramp = some (.onBreak, .host) ∧
      r.level ≤ 1 ∧ 1 < ({ r with level := 2 } : Sound).level ∧
      ({ r with source := .onBreak, ramp := some (.programme, .host) } : Sound).source ≠ .programme := by decide +kernel

theorem witness_OutputTickMovesTheServo_gap : let r := { Sound.reset with
      source := .programme, level := 256, servo := { Servo.reset with state := .track, p := 256, gap := some (5, 3) } }
    (heard r).settled ∧ (heard r).sound[(1 : ScreenId)] = r ∧ r.ramp = none ∧ r.sampleAt? r.servo.p = none ∧
      ({ r with prog := [(1, some { tag := 1, frames := [(7, 8)] })] } : Sound).sampleAt? 256 = some (7, 8) ∧
      let d := { Sound.reset with source := .onBreak, ramp := some (.mute, .auto), level := 9, cursor := some (0, 255) }
      (heard d).settled ∧ 1 < d.level ∧ d.source ≠ .programme := by decide +kernel

theorem witness_OutputTickMovesTheServo_prev : let r := { Sound.reset with
      source := .programme, level := 256, servo := { Servo.reset with state := .locked, prev := (9, -9) } }
    (heard r).settled ∧ (heard r).sound[(1 : ScreenId)] = r ∧ r.ramp = none ∧ r.servo.state = .locked ∧
      let d := { Sound.reset with source := .onBreak, breakGapOpen := true }
      (heard d).settled ∧ (heard d).sound[(1 : ScreenId)] = d ∧ d.cursor = none := by decide +kernel

theorem witness_ServoTimersExpire : let r := { Sound.reset with
      source := .programme, servo := { Servo.reset with state := .coast, coastLimit := some 0, gap := some (5, 3) } }
    (heard r).settled ∧ (heard r).sound[(1 : ScreenId)] = r ∧ r.servo.coastLimit.isSome = true ∧
      r.servo.gap = some (5, 3) ∧ r.servo.coastGap = none ∧ (some 0).isSome = true := by decide +kernel

theorem witness_SourceRequestTaken : run0.ready ∧ setup0.ready ∧ setup0.link.part = .setup ∧ Sound.reset.ramp = none ∧
    Sound.reset.source = .mute ∧ Sound.reset.level = 0 ∧ Sound.reset.source ≠ .programme ∧
    (heard { Sound.reset with level := 1, source := .programme }).sound[(1 : ScreenId)].level ≠ 0 := by decide +kernel

theorem witness_SourceRequestTaken_atZero : let r := { Sound.reset with
      source := .programme, servo := { Servo.reset with state := .track, gap := some (5, 3) } }
    (heard r).ready ∧ (heard r).sound[(1 : ScreenId)] = r ∧ r.ramp = none ∧ r.source ≠ .onBreak ∧ r.level = 0 ∧
      r.servo.gap = some (5, 3) := by decide +kernel

theorem witness_SoundSettings : run0.ready ∧ run0.sound[(1 : ScreenId)] = Sound.reset := by decide +kernel

theorem witness_LoopTransactionsStart : (posted 0).canonical = true ∧ (posted 0).owner = .polling ∧
    (posted 0).current = none ∧ (posted 0).repeatDue = none ∧ (posted 0).sendRun < 4 ∧
    (∀ i : Fin 16, ((posted 0).slots[i]).use ≠ .pending) ∧
    (({ posted 0 with cursor := 10 } : LoopRec).post ({ posted 0 with cursor := 10 } : LoopRec).cursor).present = true ∧
    (({ LoopRec.reset with slots := LoopRec.reset.slots.set 3 { OutSlot.empty with use := .pending } }
      : LoopRec).slots[(3 : Fin 16)]).use = .pending ∧
    ({ polled 0 0 with window := .sending } : Transaction).window = .sending ∧
    (({ LoopRec.reset with posts := [(127, { Post.reset with probeDue := true })] } : LoopRec).post 127).probeDue = true ∧
    ∀ q : Fin 127, (({ LoopRec.reset with posts := [(127, { Post.reset with probeDue := true })] }
      : LoopRec).post q.val).probeDue = false := by decide +kernel

/-- Loop 2 with posts 127 and 1 PRESENT, one of them DOUBTFUL at a turn, the cursor at 127. -/
def round127 (turn : Nat) : LoopRec :=
  { LoopRec.reset with
    cursor := 127
    posts := [(1, { Post.reset with present := true }),
      (127, { Post.reset with present := true, conf := .doubtful, errors := 100, turn := turn })] }

theorem witness_LoopTransactionsStart_round : (round127 3).canonical = true ∧
    (∀ q : Fin 128, ((round127 3).post q.val).probeDue = false) ∧ (round127 3).cursor < 128 ∧
    ((round127 3).post 127).conf = .doubtful ∧ ((round127 3).post 127).turn = 3 ∧ ((round127 2).post 127).turn ≠ 3 ∧
    (let r := { round127 0 with posts := [(0, { Post.reset with present := true })] }
     (r.post 127).present = false ∧ (127 + 1) % 128 = 0 ∧ (r.post 0).present = true ∧ (r.post 0).conf = .heard) ∧
    (∀ q : Fin 128, ((LoopRec.reset).post q.val).present = false) ∧ 4 ≤ ({ LoopRec.reset with sendRun := 4 } : LoopRec).sendRun := by
  decide +kernel

theorem witness_LoopTransactionsEnd : (looped (posted 183)).settled ∧ ((posted 183).post 10).present = true ∧
    ((posted 183).post 10).conf ≠ .dropped ∧ 183 + 8 < 192 ∧ ((posted 192).post 10).errors - 1 < 192 ∧
    responseOf (response 10 0 []) = some { address := 10, status := 0, record := [], checked := true } ∧
    ((responseOf (response 10 0 [])).bind fun r => r.valid 10) = some .done ∧
    ((responseOf (response 10 1 [])).bind fun r => r.valid 10) = some .again ∧ (polled 0 3).agains < 4 ∧
    ((responseOf (response 10 2 [])).bind fun r => r.valid 10) = some .wait ∧ (polled 1 0).waits < 2 ∧
    ((responseOf (response 10 3 [])).bind fun r => r.valid 10) = some .fault ∧
    ((responseOf (response 11 0 [])).bind fun r => r.valid 10) = none ∧
    (({ LoopRec.reset with posts := [(10, { Post.reset with recovery := some 0 })] }
      : LoopRec).post 10).recovery.isSome = true := by decide +kernel

theorem witness_LoopTransactionsEnd_others : let d := { posted 250 with
      posts := [(10, { Post.reset with present := true, errors := 250, conf := .dropped })] }
    (looped d).settled ∧ (d.post 10).conf = .dropped ∧ run0.yard.store.undamaged = true ∧
      ({ polled 0 0 with fn := .probe } : Transaction).fn = .probe ∧ (d.slots[(0 : Fin 16)]).use = .free ∧
      192 ≤ 184 + 8 ∧ 4 ≤ (polled 0 4).agains ∧ 2 ≤ (polled 2 0).waits ∧
      let sl := { OutSlot.empty with use := .inFlight, post := 10, v0 := some 1, fails := 2, origin := .host }
      let l := { posted 87 with
        slots := LoopRec.reset.slots.set 4 sl, current := some { polled 0 0 with fn := .send, slot := some 4 } }
      (looped l).settled ∧ l.overflow = false ∧ l.slots[(4 : Fin 16)] = sl ∧ sl.post = (polled 0 0).post ∧
        (l.post 10).conf = .heard ∧ 87 + 8 < 96 ∧ 2 ≤ sl.fails := by decide +kernel

theorem witness_HeardRecordsTaken : let l := { posted 0 with owner := .lent }
    (looped l).settled ∧ l.owner = .lent ∧ ((responseOf (response 10 0 [0, 4, 1])).map fun r => (r.address, r.record)) =
      some (10, [0, 4, 1]) ∧ ((responseOf (response 10 0 [0, 4, 1])).bind fun r => r.valid r.address) = some .done ∧
      (l.post 10).lastSeq ≠ some 0 ∧ formOf [9, 0] = none ∧
      ((responseOf (response 10 0 [2, 4, 1])).map fun r => r.record) = some [2, 4, 1] := by decide +kernel

theorem witness_LoopsAreLent : let l := { LoopRec.reset with lendAllowed := true }
    (looped l).settled ∧ l.request = false ∧ l.owner = .polling ∧ l.repeatDue = none ∧ l.current = none ∧
      LoopRec.reset.lendAllowed = false ∧
      ({ l with current := some (polled 0 0) } : LoopRec).current.isSome = true ∧
      ({ l with request := true, owner := .lent, lendTimer := some 0 } : LoopRec).lendTimer.isSome = true ∧
      ({ l with request := true, owner := .yielding } : LoopRec).owner = .yielding := by decide +kernel

theorem witness_LoopsAreLent_repeat : ({ LoopRec.reset with
      lendAllowed := true
      repeatDue := some { post := 10, fn := .send, slot := some 3, agains := 1, header := [] } } : LoopRec).repeatDue =
    some { post := 10, fn := .send, slot := some 3, agains := 1, header := [] } := by decide

theorem witness_LoopsAreLent_fall : let l := { posted 0 with request := true, owner := .lent, grant := true }
    (looped l).settled ∧ (looped l).yard.loops[(2 : ScreenId)] = l ∧ l.request = true ∧ l.owner = .lent ∧
      (looped l).yard.store.undamaged = true := by decide +kernel

theorem witness_LoopsAreLent_yielding : let t := { polled 0 0 with fn := .send, slot := some 3 }
    let l := { posted 0 with request := true, owner := .yielding, current := some t }
    (looped l).settled ∧ (looped l).yard.loops[(2 : ScreenId)] = l ∧ l.owner = .yielding ∧
      t.window = .listening 20 (some 20) ∧
      (responseOf (response 10 0 [])).map (fun q => q.valid 10) = some (some .done) ∧
      (responseOf (response 10 1 [])).map (fun q => q.valid 10) = some (some .again) ∧ t.agains < 4 ∧
      (responseOf (response 10 2 [])).map (fun q => q.valid 10) = some (some .wait) ∧ t.waits < 2 := by decide +kernel

theorem witness_LoopRequestsTaken : (looped (posted 0)).ready ∧ SlotKind.lamps.admits 13 = true ∧
    SlotKind.speakers.admits 1 = true ∧ ((posted 0).slots[(0 : Fin 16)]).use = .free ∧
    ((posted 0).post 10).present = true ∧ ((posted 0).post 10).conf ≠ .dropped ∧ ((posted 0).post 127).present = false ∧
    (∀ j : Fin 16, (({ posted 0 with slots := Vector.replicate 16 { OutSlot.empty with use := .pending } }
      : LoopRec).slots[j]).use ≠ .free) ∧ (posted 0).overflow = false ∧
    (({ posted 0 with slots := (posted 0).slots.set 15 { OutSlot.empty with use := .inFlight } }
      : LoopRec).slots[(15 : Fin 16)]).use = .inFlight := by decide +kernel

/-- Loop 2 with no slot FREE: slot 3 PENDING for both lamps of post 10, the others IN_FLIGHT. -/
def crowded : LoopRec :=
  let sent : OutSlot := { OutSlot.empty with use := .inFlight }
  let next : OutSlot :=
    { OutSlot.empty with use := .pending, post := 10, kind := .lamps, v0 := some 1, v1 := some 2, age := 5 }
  { posted 0 with slots := (Vector.replicate 16 sent).set 3 next }

theorem witness_LoopRequestsTaken_crowded :
    let it : Item := { post := 10, kind := .lamps, v0 := some 2, v1 := none, prio := 1, origin := .oe }
    (∀ j : Fin 16, (crowded.slots[j]).use ≠ .free) ∧ (crowded.slots[(3 : Fin 16)]).use = .pending ∧
      (crowded.slots[(3 : Fin 16)]).post = it.post ∧ (crowded.slots[(3 : Fin 16)]).kind = it.kind ∧
      (crowded.slots[(3 : Fin 16)]).v0.isSome = true ∧ (crowded.slots[(3 : Fin 16)]).v1.isSome = true ∧
      (∀ j : Fin 16, j ≠ 3 → (crowded.slots[j]).use ≠ .pending) ∧ ({ it with post := 11 } : Item).v0 = some 2 ∧
      (∀ j : Fin 16, (crowded.slots[j]).post ≠ 11) ∧ ((posted 0).post 11).present = false ∧
      (looped { crowded with overflow := true }).ready ∧ ({ crowded with overflow := true } : LoopRec).overflow = true := by
  decide +kernel

theorem witness_LoopMapAndReset : (looped (posted 0)).ready ∧ (posted 0).canonical = true ∧
    (List.replicate 128 true).length = 128 := by decide +kernel

theorem witness_LoopMapAndReset_gone : (looped crowded).ready ∧ crowded.canonical = true ∧ crowded.overflow = false ∧
    (crowded.slots[(3 : Fin 16)]).use = .pending ∧ (crowded.slots[(3 : Fin 16)]).post = 10 ∧
    (crowded.post 10).present = true ∧ (List.replicate 128 false).getD 10 false = false := by decide +kernel

theorem witness_LoopMapAndReset_marks : let y := { field7 (order7 .ready .done) with
      spkMarks := [(300, true)], lampMarks := [(300, true), (301, true)], readyList := [entry7] }
    y.store.undamaged = true ∧ Tab.wf false y.spkMarks = true ∧ Tab.wf false y.lampMarks = true ∧
      (300 : Nat) = (1 : ScreenId).val * 256 + 2 * 22 ∧ y.spkMarked 300 = true ∧ y.spkMarked 301 = false ∧
      y.lampMarked 301 = true ∧ y.bay? 300 = some { occupant := some 1234, speaker := true } ∧
      (∃ e ∈ y.readyList, e.car = 1234) ∧ y.bay? 301 = some { occupant := none, speaker := false } ∧
      y.spkMarked 302 = false ∧ y.spkMarked 303 = false := by decide +kernel

theorem witness_DetectorsFollowed : Detector.isOccupied (run0.lanes[(1 : LaneId)]).barrierLoop = false ∧
    Detector.isOccupied .fault = true := by decide

theorem witness_CredentialTurnedAway : (laned atReader).settled ∧ (laned atReader).lanes[(1 : LaneId)] = atReader ∧
    atReader.state = .present ∧ goodCredential ticket5003 = true ∧ goodCredential { ticket5003 with cls := 4 } = false ∧
    TicketClass.of ticket5003.cls = some .car ∧ run0.yard.store.undamaged = true ∧
    run0.yard.ticketKnown ticket5003.ticket = false ∧ run0.screens[(1 : ScreenId)].gateOpen = true ∧
    run0.yard.capacity[(1 : ScreenId)] ≤ run0.yard.admittedCount[(1 : ScreenId)] ∧
    (field7 (order7 .queued .pending)).ticketKnown 5001 = true ∧
    (field7 (order7 .queued .pending)).store.canonical = true := by decide +kernel

/-- Lane 4, an exit lane, in RUN with a given record and yard. -/
def exited (l : Lane) (y : Yard) : State :=
  { run0.withLane 4 l with yard := y }

theorem witness_CredentialTurnedAway_any : goodCredential { ticket5003 with choice := 4 } = true ∧
    (let shut := { run0 with screens := Vector.replicate 4 { Screen.reset with gateOpen := false } }
     ∀ k : ScreenId, (shut.screens[k]).gateOpen = false) ∧ (laned atReader).chosen 1 (some 1) ∧
    ({ laned atReader with yard := roomy1 } : State).chosen 4 (some 0) ∧
    ({ atReader with closeDeferred := true } : Lane).closeDeferred = true ∧
    (lowestFree roomy1.store.cars 1024).isSome = true ∧ (lowestFree roomy1.store.tickets 4096).isSome = true := by
  refine ⟨by decide, by decide, .inl ⟨1, rfl, rfl⟩, .inr ⟨rfl, by decide +kernel, by decide +kernel⟩, rfl, ?_, ?_⟩ <;>
    decide +kernel

theorem witness_CredentialTurnedAway_lost : let sl := { used { ticket := 5003, lane := (1 : LaneId), minute := 0 } with
      badFirst := true }
    let y := { roomy1 with store := { Store.reset with tickets := [(3, sl)] } }
    y.store.canonical = true ∧ y.store.waiting = [] ∧
      y.findTicket 5003 = some (3, { ticket := 5003, lane := 1, minute := 0 }) ∧ y.ticketSlot 3 = sl ∧
      tableUndamaged y.store.cars = true ∧ ((inUse y.store.cars).any fun e => e.2.ticket == 5003) = false ∧
      y.admittedCount[(1 : ScreenId)] < y.capacity[(1 : ScreenId)] := by decide +kernel

theorem witness_CredentialTurnedAway_exit : let y := { roomy1 with store := { Store.reset with
      cars := [(0, used { car4417 with state := .entering })] } }
    (exited atReader y).settled ∧ 4 ≤ (4 : LaneId).val ∧ y.store.undamaged = true ∧ y.store.canonical = true ∧
      (inUse y.store.cars).find? (fun e => e.2.ticket == 5002) = some (0, { car4417 with state := .entering }) := by
  decide +kernel

theorem witness_AdmissionCreatesTheCar : ({ laned atReader with yard := roomy1 } : State).settled ∧
    goodCredential ticket5003 = true ∧ atReader.closeDeferred = false ∧ roomy1.store.undamaged = true ∧
    roomy1.ticketKnown 5003 = false ∧ roomy1.admittedCount[(1 : ScreenId)] < roomy1.capacity[(1 : ScreenId)] ∧
    lowestFree roomy1.store.cars 1024 = some 0 ∧ lowestFree roomy1.store.tickets 4096 = some 0 ∧ roomy1.nextCar = 1 := by
  decide +kernel

theorem witness_AdmissionCreatesTheCar_exit : let y := field7 (order7 .queued .pending)
    (exited atReader y).settled ∧ (exited atReader y).lanes[(4 : LaneId)] = atReader ∧
      (exited atReader y).canonical = true ∧ y.store.undamaged = true ∧
      (inUse y.store.cars).find? (fun e => e.2.ticket == 5002) = some (1, car4417) ∧
      y.findCar 4417 = some (1, car4417) ∧ car4417.state = .onField ∧
      (inUse y.store.cars).find? (fun e => e.2.ticket == 5001) = some (0, car1234) ∧
      y.findCar 1234 = some (0, car1234) ∧ car1234.state = .parked ∧ car1234.bay = some 300 ∧
      y.bay? 300 = some { occupant := some 1234, speaker := true } := by decide +kernel

theorem witness_AdmissionCreatesTheCar_number : let y := { field7 (order7 .queued .pending) with lastCar := 1233 }
    y.lastCar ≤ 9999 ∧ (1233 + 0) % 9999 + 1 = 1234 ∧ (∃ q ∈ inUse y.store.cars, q.2.number = 1234) ∧
      (1233 + 1) % 9999 + 1 = 1235 ∧ (∀ q ∈ inUse y.store.cars, q.2.number ≠ 1235) ∧
      (∀ q ∈ inUse y.store.orders, q.2.car ≠ 1235) ∧ (9999 + 0) % 9999 + 1 = 1 := by decide +kernel

theorem witness_VehicleGoesThrough : let o := { atReader with state := .opening, command := .up }
    (laned o).settled ∧ o.barrierLoop = .clear ∧ o.command = .up ∧
      let p := { o with state := .passing, barrierLoop := .occupied, pending := .anonymous }
      p.pending ∈ [Pending.absent, .anonymous] ∧
      let c := { atReader with state := .closing, feedback := .moving }
      c.command = .down ∧ c.feedback ≠ .down ∧ c.closeDeferred = false ∧ c.arming = .occupied := by decide +kernel

theorem witness_VehicleGoesThrough_crossing : let l := { atReader with
      state := .stalled, command := .up, barrierLoop := .fault, pending := .admission 4417 5002 1 }
    let y := { roomy1 with store := { Store.reset with cars := [(0, used { car4417 with state := .entering })] } }
    let z := { roomy1 with store := { Store.reset with cars := [(0, used { car4417 with state := .leaving })] } }
    ({ laned l with yard := y } : State).settled ∧ l.barrierLoop ≠ .clear ∧ y.store.undamaged = true ∧
      y.store.canonical = true ∧ y.findCar 4417 = some (0, { car4417 with state := .entering }) ∧
      z.findCar 4417 = some (0, { car4417 with state := .leaving }) ∧ car4417.orders = [] ∧ y.findCar 9 = none ∧
      ({ atReader with state := .closing, feedback := .moving, closeDeferred := true, arming := .clear } : Lane).arming =
        .clear ∧ ({ Lane.reset with barrierLoop := .occupied } : Lane).state = .closed ∧
      ({ Lane.reset with state := .empty } : Lane).arming = .clear := by decide +kernel

theorem witness_LaneTimersExpire : let y := { roomy1 with
      admittedCount := roomy1.admittedCount.set 1 1
      store := { Store.reset with
        cars := [(0, used { car4417 with state := .entering })]
        tickets := [(3, used { ticket := 5002, lane := 1, minute := 0 })] } }
    let l := { atReader with state := .opening, command := .up, pending := .admission 4417 5002 1, dwell := some 0 }
    y.store.undamaged = true ∧ y.store.canonical = true ∧ (y.findCar 4417).map Prod.fst = some 0 ∧
      (y.findTicket 5002).map Prod.fst = some 3 ∧ l.barrierLoop = .clear ∧ l.arming = .occupied ∧
      l.dwell.isSome = true ∧ Lane.reset.travel.isSome = true ∧
      ({ l with state := .passing, stall := some 0 } : Lane).stall.isSome = true ∧
      ({ atReader with exitRead := some 0 } : Lane).exitRead.isSome = true := by decide +kernel

theorem witness_LaneTimersExpire_exit : let y := { roomy1 with store := { Store.reset with
      cars := [(0, used { car4417 with state := .leaving })] } }
    let l := { atReader with state := .opening, command := .up, pending := .exit 4417, dwell := some 0 }
    (exited l y).settled ∧ y.findCar 4417 = some (0, { car4417 with state := .leaving }) ∧ y.store.undamaged = true ∧
      y.store.canonical = true ∧ y.findCar 9 = none ∧ l.barrierLoop = .clear ∧ l.dwell.isSome = true := by decide +kernel

theorem witness_LaneTimersExpire_rearmed : let l := { atReader with state := .opening, command := .up, dwell := some 0 }
    (laned l).settled ∧ (laned l).lanes[(1 : LaneId)] = l ∧ l.state = .opening ∧ l.arming ≠ .fault ∧
      ({ l with arming := .fault } : Lane).arming ≠ .occupied := by decide +kernel

theorem witness_LaneRequestsTaken : run0.ready ∧ run0.lanes[(1 : LaneId)].state = .closed ∧
    run0.lanes[(1 : LaneId)].barrierLoop = .clear ∧ run0.lanes[(1 : LaneId)].closeDeferred = false ∧
    (laned { Lane.reset with barrierLoop := .fault }).lanes[(1 : LaneId)].barrierLoop ≠ .clear ∧
    (laned { Lane.reset with state := .empty }).ready ∧ (laned atReader).ready ∧ setup0.ready := by decide +kernel

theorem witness_LaneRequestsTaken_waiting : let l := { Lane.reset with arming := .fault }
    (exited l Yard.reset).ready ∧ l.state = .closed ∧ l.barrierLoop = .clear ∧ l.arming ≠ .clear := by decide +kernel

theorem witness_FieldSettings : (yarded (field7 (order7 .queued .pending))).ready ∧
    (yarded (field7 (order7 .queued .pending))).canonical = true ∧
    (field7 (order7 .queued .pending)).store.undamaged = true ∧ (List.replicate 256 true).length = 256 := by
  decide +kernel

theorem witness_FieldSettings_closed : let y := field7 (order7 .queued .pending)
    (List.replicate 256 false).getD 44 false = false ∧ 300 = (1 : ScreenId).val * 256 + 44 ∧
      y.bay? 300 = some { occupant := some 1234, speaker := true } ∧ y.car? 1234 = some car1234 := by decide +kernel

theorem witness_CarsLeave : let y := { field7 (order7 .queued .pending) with limits := [(4417, some 0)] }
    (yarded y).ready ∧ (yarded y).canonical = true ∧ y.store.undamaged = true ∧
      y.findCar 4417 = some (1, car4417) ∧ (Tab.get none y.limits 4417).isSome = true ∧ car4417.state = .onField ∧
      car4417.unchecked = false ∧ car4417.orders = [] ∧ Tab.get none y.limits 1234 = none ∧ y.findCar 1 = none ∧
      let c := { car1234 with orders := [] }
      c.state = .parked ∧ c.bay = some 300 ∧ (y.bay? 300).isSome = true := by decide +kernel

theorem witness_CarsLeave_orders : let y := field7 (order7 .taken .done)
    (yarded y).ready ∧ (yarded y).canonical = true ∧ y.store.undamaged = true ∧ y.findCar 1234 = some (0, car1234) ∧
      7 ∈ car1234.orders ∧ y.findOrder 7 = some (0, order7 .taken .done) ∧
      (field7 (order7 .queued .making)).findOrder 7 = some (0, order7 .queued .making) ∧ 8 ∉ car1234.orders := by
  decide +kernel

theorem witness_CarsLeave_stock : let y := field7 (order7 .queued .making)
    (yarded y).ready ∧ (yarded y).canonical = true ∧ y.store.undamaged = true ∧ y.findCar 1234 = some (0, car1234) ∧
      settledAtDeparture (inUse y.store.orders) car1234.orders = [order7 .queued .making] ∧
      settledAtDeparture (inUse (taken7 false).store.orders) car1234.orders = [] ∧ y.item? 12 = some popcorn ∧
      y.item? 13 = none ∧ car1234.state = .parked ∧ car1234.bay = some 300 ∧
      y.bay? 300 = some { occupant := some 1234, speaker := true } ∧
      y.bay? 301 = some { occupant := none, speaker := false } := by decide +kernel

/-- A removal spoils the two units that its car's order had started (R172): 3 sold and 1 wasted become 1 and 3. -/
theorem test_carRemove_spoils : (nx (exec (.carRemove 9 1234) (yarded (field7 (order7 .queued .making))))).yard.item? 12 =
    some { popcorn with sold := 1, waste := 3 } := by decide +kernel

theorem witness_CheckinBinds : let y := field7 (order7 .queued .pending)
    y.store.canonical = true ∧ Tab.wf none y.limits = true ∧ y.store.undamaged = true ∧ run0.site.run = true ∧
      y.car? 4417 = some car4417 ∧ y.car? 1234 = some car1234 ∧ car1234.screen = bayLoop 301 ∧
      y.bay? 300 = some { occupant := some 1234, speaker := true } ∧
      y.bay? 301 = some { occupant := none, speaker := false } ∧ setup0.site.run = false ∧ 441740 % 97 ≠ 1 := by
  decide +kernel

theorem witness_CheckinBinds_refusals : let y := field7 (order7 .queued .pending)
    let away := { y with store := { y.store with cars := [(1, used { car4417 with state := .leaving })] } }
    441783 / 100 = 4417 ∧ (100 * 4417 + (98 - 100 * 4417 % 97)) % 97 = 1 ∧ run0.site.run = true ∧
      away.store.canonical = true ∧ away.store.undamaged = true ∧
      away.car? 4417 = some { car4417 with state := .leaving } ∧ away.car? 1234 = none ∧
      car4417.state ∈ [CarState.onField, .parked] ∧ car4417.screen ≠ bayLoop 600 ∧ car4417.screen = bayLoop 302 ∧
      y.bay? 302 = none := by decide +kernel

theorem witness_MenuAndStock : let y := field7 (order7 .queued .pending)
    (yarded y).ready ∧ (y.menuSlot 12) = used popcorn ∧ (y.menuSlot 63).state = .free ∧ popcorn.mode = .finite ∧
      (used { popcorn with mode := .unlimited }).badFirst = false ∧ ({ setup0 with yard := y } : State).ready := by
  decide +kernel

theorem witness_MenuAndStock_out : let sl := (used popcorn).quarantine
    (yarded (Yard.reset.setMenuSlot 63 sl)).ready ∧ (Yard.reset.setMenuSlot 63 sl).menuSlot 63 = sl ∧ sl.isOut = true ∧
      sl.badFirst = false ∧ sl.badSecond = false := by decide +kernel

theorem witness_OrderEnterTaken : let y := field7 (order7 .queued .pending)
    (yarded y).ready ∧ (yarded y).canonical = true ∧ y.store.undamaged = true ∧
      y.bay? 300 = some { occupant := some 1234, speaker := true } ∧ y.car? 1234 = some car1234 ∧
      car1234.state = .parked ∧ run0.screens[bayLoop 300].orderingOpen = true ∧ car1234.orders.length < 4 ∧
      [WireLine.mk 12 9, ⟨12, 1⟩].map (fun l => y.item? l.item) = [popcorn, popcorn].map some ∧
      popcorn.available = true ∧ 9 + 1 ≤ popcorn.remaining ∧
      (∀ st : StationId, y.load st + ([popcorn, popcorn].map MenuItem.station).count st ≤ 128) ∧
      lowestFree y.store.orders 256 = some 1 ∧ y.nextOrder = 8 ∧ y.bay? 302 = none ∧ y.item? 13 = none ∧
      (yarded y).screens[(1 : ScreenId)].phase = .dark := by decide +kernel

theorem witness_OrderEnterTaken_refusals : let y := field7 (order7 .queued .pending)
    (shown { Screen.reset with orderingOpen := false }).screens[bayLoop 300].orderingOpen = false ∧
      4 ≤ ({ car1234 with orders := [1, 2, 3, 4] } : Car).orders.length ∧
      ({ popcorn with remaining := 8 } : MenuItem).remaining < (WireLine.mk 12 9).qty ∧
      ({ setup0 with yard := y } : State).link.part = .setup := by decide +kernel

theorem witness_OrderEnterTaken_number : let y := { field7 (order7 .queued .pending) with lastOrder := 6 }
    y.lastOrder ≤ 9999 ∧ (6 + 0) % 9999 + 1 = 7 ∧ (∃ q ∈ inUse y.store.orders, q.2.number = 7) ∧
      (6 + 1) % 9999 + 1 = 8 ∧ (∀ q ∈ inUse y.store.orders, q.2.number ≠ 8) := by decide +kernel

theorem witness_OrderEnterTaken_places : let y := { field7 (order7 .queued .pending) with
      queues := Yard.reset.queues.set 3 (List.replicate 128 (ref7 .pending)) }
    [WireLine.mk 12 9, ⟨12, 2⟩] = [] ++ WireLine.mk 12 9 :: [⟨12, 2⟩] ∧ popcorn.remaining < 9 + 2 ∧
      128 < y.load 3 + ([popcorn].map MenuItem.station).count 3 ∧ y.bay? 301 = some { occupant := none, speaker := false } ∧
      lowestFree ((List.range 256).map fun i => (i, used (order7 .queued .pending))) 256 = none ∧
      [WireLine.mk 12 1, ⟨63, 1⟩] = [WireLine.mk 12 1] ++ ⟨63, 1⟩ :: [] ∧ y.item? 63 = none := by decide +kernel

theorem witness_OrdersReleasedAndCancelled : let y := { field7 (order7 .held .pending) with
      held := Yard.reset.held.set 1 [⟨7, [3]⟩] }
    (yarded y).ready ∧ (yarded y).canonical = true ∧ y.store.undamaged = true ∧ y.held[(1 : ScreenId)] ≠ [] ∧
      y.held[(2 : ScreenId)] = [] ∧ y.findOrder 7 = some (0, order7 .held .pending) ∧ y.findOrder 8 = none ∧
      (taken7 false).findOrder 7 = some (0, { order7 .taken .done with taker := some 5 }) ∧
      y.car? (order7 .held .pending).car = some car1234 ∧ y.item? 12 = some popcorn := by decide +kernel

theorem witness_OrdersReleasedAndCancelled_post : let y := field7 (order7 .queued .pending)
    y.store.undamaged = true ∧ y.store.canonical = true ∧ run0.site.run = true ∧ setup0.site.run = false ∧
      y.bay? 300 = some { occupant := some 1234, speaker := true } ∧ y.car? 1234 = some car1234 ∧
      car1234.state = .parked ∧ y.findOrder 7 = some (0, order7 .queued .pending) ∧
      (order7 .queued .pending).car = 1234 ∧ (∀ l ∈ (order7 .queued .pending).lines, l.state = .pending) ∧
      (order7 .queued .making).lines = [{ item := 12, qty := 2, state := .making }] ∧ y.order? 8 = none ∧
      y.bay? 301 = some { occupant := none, speaker := false } := by decide +kernel

theorem witness_OrdersReleasedAndCancelled_balanced : popcorn.balanced := ⟨by decide, by decide⟩

theorem witness_OrdersReleasedAndCancelled_lines : let o := { order7 .queued .pending with
      lines := [{ item := 12, qty := 2, state := .making }, { item := 13, qty := 3, state := .pending },
                { item := 12, qty := 1, state := .pending }] }
    let y := field7 o
    (yarded y).ready ∧ (yarded y).canonical = true ∧ y.store.undamaged = true ∧ y.findOrder 7 = some (0, o) ∧
      o.state ≠ .taken ∧ y.item? 12 = some popcorn ∧ o.unitsOn 12 true = 1 ∧ o.unitsOn 12 false = 2 ∧
      y.car? o.car = some car1234 ∧ car1234.bay = some 300 ∧ Tab.wf 0 y.rowCounts = true := by decide +kernel

theorem witness_KitchenWorks : let y := { field7 (order7 .queued .pending) with
      queues := Yard.reset.queues.set 3 [ref7 .pending] }
    (yarded y).ready ∧ (yarded y).canonical = true ∧ y.store.undamaged = true ∧
      y.queues[(3 : StationId)] = [] ++ ref7 .pending :: [] ∧ y.order? 7 = some (order7 .queued .pending) ∧
      y.car? 1234 = some car1234 ∧ y.queues[(2 : StationId)] = [] ∧ (ref7 .making).state = .making ∧
      ((order7 .queued .making).lines.modify 0 fun l => { l with state := .done }).all
        (fun l => decide (l.state = .done)) = true := by decide +kernel

/-- Order 7 of a car that has gone from the table, its first line in the queue of station 3. -/
def lone7 (ln : LineState) : Yard :=
  { field7 (order7 .queued ln) with
    store := { (field7 (order7 .queued ln)).store with cars := [(1, used car4417)] }
    queues := Yard.reset.queues.set 3 [ref7 ln] }

theorem witness_KitchenWorks_carGone : (yarded (lone7 .pending)).ready ∧ (yarded (lone7 .pending)).canonical = true ∧
    (lone7 .pending).store.undamaged = true ∧ (lone7 .pending).queues[(3 : StationId)] = [] ++ ref7 .pending :: [] ∧
    (lone7 .pending).findOrder 7 = some (0, order7 .queued .pending) ∧ (lone7 .pending).car? 1234 = none ∧
    (yarded (lone7 .making)).canonical = true ∧ (lone7 .making).queues[(3 : StationId)] = [] ++ ref7 .making :: [] ∧
    (lone7 .making).findOrder 7 = some (0, order7 .queued .making) ∧ (ref7 .making).state ≠ .pending := by decide +kernel

theorem witness_RunnersTakeOrders : let y := { field7 (order7 .ready .done) with
      readyList := [entry7], rowCounts := [(18, 1)] }
    (yarded y).settled ∧ (yarded y).link.roomy ∧ (yarded y).canonical = true ∧ y.store.undamaged = true ∧
      y.readyList = [] ++ entry7 :: [] ∧ entry7.order = 7 ∧ (y.runners[(5 : RunnerId)]).held = none ∧
      y.findOrder 7 = some (0, order7 .ready .done) ∧ y.findOrder 8 = none ∧ (yarded (taken7 false)).canonical = true ∧
      (taken7 false).runners[(5 : RunnerId)] = holder7 ∧ holder7.timer.isSome = true ∧
      (yarded Yard.reset).yard.readyList = [] ∧ ({ holder7 with held := none, last := some (7, .expired) } : Runner).last =
        some (7, .expired) := by decide +kernel

theorem witness_RunnersTakeOrders_otherLast : let k := { holder7 with held := none, timer := none, last := some (7, .lost) }
    k.held = none ∧ k.last = some (7, .lost) ∧ ∀ c ∈ [ReleaseCause.expired, .lost], k.last ≠ some (8, c) := by decide

/-- The yard with order 7 TAKEN by runner 5 and its car gone from the table. -/
def gone7 : Yard :=
  { taken7 true with store := { (taken7 true).store with cars := [(1, used car4417)] } }

theorem witness_RunnersTakeOrders_carGone : (yarded gone7).canonical = true ∧ gone7.store.undamaged = true ∧
    gone7.findOrder 7 = some (0, { order7 .taken .done with taker := some 5, carGone := true }) ∧
    gone7.car? (order7 .taken .done).car = none ∧ (gone7.runners[(5 : RunnerId)]).held = some 7 ∧
    (gone7.runners[(5 : RunnerId)]).timer.isSome = true ∧ (gone7.runners[(4 : RunnerId)]).held = none ∧
    (∃ e ∈ ({ gone7 with readyList := [entry7] } : Yard).readyList, e.order = 7) := by decide +kernel

theorem witness_RunnersTakeOrders_walk : let y := { lone7 .done with
      store := { (lone7 .done).store with orders := [(0, used (order7 .ready .done))] }, readyList := [entry7] }
    (yarded y).settled ∧ (yarded y).link.roomy ∧ (yarded y).canonical = true ∧ y.store.undamaged = true ∧
      y.findOrder 7 = some (0, order7 .ready .done) ∧ y.car? 1234 = none ∧ y.readyList = [] ++ entry7 :: [] ∧
      (y.runners[(5 : RunnerId)]).held = none ∧ (1 : Nat) = (order7 .ready .done).screen.val := by decide +kernel

theorem witness_StoreTestsAndFaults : let y := Yard.reset.setTest (some (TestRun.fresh .menu))
    (yarded y).ready ∧ y.store.test.isSome = true ∧ (y.menuSlot 0).state = .free ∧ (y.menuSlot 0).failing = false ∧
      Yard.reset.store.test = none ∧ (Slot.blank : Slot Car).quarantine.state = .quarantined ∧
      (y.setTest (some { TestRun.fresh .menu with cursor := 63 })).store.test =
        some { TestRun.fresh .menu with cursor := 63 } ∧
      let z := { Yard.reset with store := { Store.reset with menu := [(63, { used popcorn with badFirst := true })] } }
      (yarded z).ready ∧ z.store.waiting = [] ∧ (z.menuSlot 63).state = .inUse popcorn ∧
        (z.menuSlot 63).badFirst = true := by decide +kernel

/-- The yard with order 7 TAKEN by runner 5, one of its records damaged. -/
def damaged7 (tb : TableId) : Yard :=
  let y := taken7 false
  match tb with
  | .car => y.setCarSlot 0 { used car1234 with badFirst := true }
  | .bay => y.setBaySlot 300 { used { occupant := some 1234, speaker := true } with badSecond := true }
  | .order => y.setOrderSlot 0 { used { order7 .taken .done with taker := some 5 } with badFirst := true, badSecond := true }
  | .menu => y
  | .ticket => y

theorem witness_StoreTestsAndFaults_car : let y := damaged7 .car
    (yarded y).ready ∧ (yarded y).canonical = true ∧ y.store.waiting = [] ∧ y.findCar 1234 = some (0, car1234) ∧
      (y.carSlot 0).damaged .first ∧
      ({ y.store with cars := Tab.put Slot.blank y.store.cars 0 { y.carSlot 0 with state := .quarantined } } : Store).sound
        = true ∧
      (y.runners[(5 : RunnerId)]).held = some 7 ∧ y.order? 7 = some { order7 .taken .done with taker := some 5 } ∧
      (order7 .taken .done).car = 1234 ∧ y.bay? 300 = some { occupant := some 1234, speaker := true } := by
  simp only [Slot.damaged]
  decide +kernel

theorem witness_StoreTestsAndFaults_bay : let y := damaged7 .bay
    (yarded y).ready ∧ (yarded y).canonical = true ∧ y.store.waiting = [] ∧ (y.baySlot 300).damaged .second ∧
      (y.baySlot 300).state = .inUse { occupant := some 1234, speaker := true } ∧
      ({ y.store with bays := Tab.put Slot.blank y.store.bays 300 { y.baySlot 300 with state := .quarantined } } : Store).sound
        = true ∧
      y.findCar 1234 = some (0, car1234) ∧ car1234.state = .parked ∧ car1234.bay = some 300 ∧
      (∀ e ∈ inUse y.store.cars, e.2.bay = some 300 → e.1 = 0) := by
  simp only [Slot.damaged]
  decide +kernel

theorem witness_StoreTestsAndFaults_order : let y := damaged7 .order
    (yarded y).ready ∧ (yarded y).canonical = true ∧ y.store.waiting = [] ∧ (y.orderSlot 0).damaged .both ∧
      y.findOrder 7 = some (0, { order7 .taken .done with taker := some 5 }) ∧
      ({ y.store with orders := Tab.put Slot.blank y.store.orders 0 { y.orderSlot 0 with state := .quarantined } } :
        Store).sound = true ∧
      (y.runners[(5 : RunnerId)]).held = some 7 ∧ (∀ k : RunnerId, k ≠ 5 → (y.runners[k]).held ≠ some 7) ∧
      y.car? 1234 = some car1234 ∧ car1234.bay = some 300 ∧
      (∃ e ∈ ({ y with readyList := [entry7] } : Yard).readyList, e.order = 7) := by
  simp only [Slot.damaged]
  decide +kernel

theorem witness_FramesTurnedAway : run0.settled ∧ run0.link.roomy ∧
    let l := { run0.link with replies := List.replicate 15 (Place.busy 1 0) ++ [Place.request 2 0 Reply.ok] }
    l.resetPending = false ∧ 16 ≤ l.replies.length ∧
      let m := { run0.link with replies := List.replicate 8 (.request 1 0 Reply.ok) }
      m.resetPending = false ∧ 8 ≤ m.requests ∧ m.replies.length < 16 ∧
      ({ run0.link with replies := [.request 0x3B 0 Reply.ok] } : Link).resetPending = true := by decide +kernel

theorem witness_FramesTurnedAway_receiver : run0.link.rx = none ∧ run0.hostLine = [] ∧
    ({ run0 with hostLine := [0xA5#8], link := { run0.link with rx := some [0x00#8] } } : State).settled ∧
    ({ run0 with hostLine := [0x00#8, 0x5A#8] } : State).settled ∧ (∀ b ∈ [0x00#8, 0x5A#8], b ≠ 0xA5#8) ∧ 1024 < (0x04#8).toNat * 256 + (0x01#8).toNat ∧
    (List.replicate 1024 0#8).length ≤ 1024 ∧
    u16 (crc16 (u16 0 ++ u8 0x39 ++ u8 9)).toNat ≠ [0x00#8, 0x00#8] := by decide +kernel

theorem witness_TransmitterTakesTurns : run0.link.tx = .idle ∧ State.reset.link.tx ≠ .idle ∧
    127 = (List.replicate 127 (QueuedReport.mk 0 (.lendEnd 0))).length ∧
    128 ≤ (List.replicate 128 (QueuedReport.mk 0 (.lendEnd 0))).length ∧
    let s := { run0 with link := { run0.link with tx := .reply, replies := [.request 0x3B 9 Reply.ok] } }
    s.settled ∧ s.link.tx = .reply ∧ Reply.ok.result = .ok ∧
      let u := { run0 with link := { run0.link with tx := .reply, replies := [.request 0x3C 9 Reply.ok, .busy 1 2] } }
      u.settled ∧ u.link.replies = .request 0x3C 9 Reply.ok :: [.busy 1 2] := by decide +kernel

theorem witness_NightOpensAndCloses : run0.ready ∧ setup0.ready ∧
    (∀ sc : ScreenId, run0.screens[sc].phase ∈ [ShowState.dark, .ended, .halted]) ∧
    (∀ k : LaneId, run0.lanes[k].state = .closed) ∧
    (shown (reelOne .loaded)).screens[(1 : ScreenId)].phase ∉ [ShowState.dark, .ended, .halted] ∧
    (shown (reelOne .loaded)).screens[(0 : ScreenId)].phase ∈ [ShowState.dark, .ended, .halted] ∧
    ({ setup0 with yard := Yard.reset.setTest (some (TestRun.fresh .menu)) } : State).ready := by decide +kernel

theorem witness_WholePartResets : run0.ready ∧ let y := { Yard.reset with store := { Store.reset with
      cars := [(5, (used car4417).quarantine)], tickets := [(4095, Slot.blank.quarantine)] } }
    y.store.canonical = true ∧ (y.carSlot 5).isQuarantined = true ∧ (y.ticketSlot 4095).isQuarantined = true ∧
      quarantinedAfterReset y.store.cars + quarantinedAfterReset y.store.tickets = 2 := by decide +kernel

theorem witness_StatusChangesNothing : let y := field7 (order7 .queued .pending)
    (yarded y).ready ∧ y.store.undamaged = true ∧ y.store.canonical = true ∧ y.findCar 1 = none ∧ y.findOrder 8 = none ∧
      y.order? 7 = some (order7 .queued .pending) ∧ y.car? 1234 = some car1234 ∧
      (taken7 false).runners[(5 : RunnerId)] = holder7 ∧ (taken7 false).order? 7 =
        some { order7 .taken .done with taker := some 5 } ∧ gone7.car? 1234 = none := by decide +kernel

theorem witness_RequestsRefused : run0.ready ∧ setup0.ready ∧ setup0.link.part = .setup := by decide

end Sys2Proof.Tests
end

section
/-! SUPPORT. What the yard's shared operations do to the held lists (R150, R151): the handling of a lost record takes
entries out and puts none in, every other operation used here leaves the lists as they are, and a release empties its
screen's list. -/

namespace Sys2Proof.Machine

/-! ## Operations that leave the held lists as they are -/

@[simp] theorem Yard.parityFault_held (y : Yard) (t : TableId) (i : Nat) (k : Key) (h : Halves) :
    (y.parityFault t i k h).held = y.held := rfl

@[simp] theorem Yard.modCar_held (y : Yard) (n : Nat) (f : Car → Car) : (y.modCar n f).held = y.held := by
  unfold Yard.modCar; split <;> simp

@[simp] theorem Yard.modBay_held (y : Yard) (b : Nat) (f : Bay → Bay) : (y.modBay b f).held = y.held := by
  unfold Yard.modBay; split <;> simp

@[simp] theorem Yard.modOrder_held (y : Yard) (n : Nat) (f : Order → Order) : (y.modOrder n f).held = y.held := by
  unfold Yard.modOrder; split <;> simp

@[simp] theorem Yard.readCarSlot_id_held (y : Yard) (i : Nat) : (y.readCarSlot id i).2.held = y.held := by
  unfold Yard.readCarSlot; split <;> simp

@[simp] theorem Yard.readCar_id_held (y : Yard) (n : Nat) : (y.readCar id n).2.held = y.held := by
  unfold Yard.readCar; split <;> simp

@[simp] theorem Yard.readBay_id_held (y : Yard) (b : Nat) : (y.readBay id b).2.held = y.held := by
  unfold Yard.readBay; split <;> simp

@[simp] theorem Yard.completeUndelivered_held (y : Yard) (lp : ScreenId) (i : Fin 16) :
    (y.completeUndelivered lp i).held = y.held := rfl

@[simp] theorem Yard.putItem_held (y : Yard) (lp : ScreenId) (it : Item) : (y.putItem lp it).2.held = y.held := by
  unfold Yard.putItem
  split
  · dsimp only; split <;> simp
  · simp

@[simp] theorem Yard.placeLamp_held (y : Yard) (origin : Origin) (bay v : Nat) :
    (y.placeLamp origin bay v).2.held = y.held :=
  Yard.putItem_held y _ _

@[simp] theorem Yard.readMarked_id_held (marked : Yard → Nat → Bool) (y : Yard) (bay : Nat) :
    (y.readMarked marked id bay).2.held = y.held := by
  unfold Yard.readMarked; split <;> simp

@[simp] theorem Yard.placeSpeakersAt_id_held (lp : ScreenId) (y : Yard) (p : Nat) :
    (y.placeSpeakersAt id lp p).held = y.held := by
  unfold Yard.placeSpeakersAt
  dsimp only
  split <;> simp [apply_ite Yard.held]

@[simp] theorem Yard.placeSpeakersOf_id_held (bays : List Nat) (y : Yard) :
    (y.placeSpeakersOf id bays).held = y.held := by
  induction bays generalizing y with
  | nil => rfl
  | cons b bays ih => exact (ih _).trans (Yard.placeSpeakersAt_id_held _ _ _)

@[simp] theorem Yard.placeLampsAt_id_held (lp : ScreenId) (y : Yard) (p : Nat) :
    (y.placeLampsAt id lp p).held = y.held := by
  unfold Yard.placeLampsAt
  dsimp only
  split <;> simp [apply_ite Yard.held]

@[simp] theorem Yard.markLamp_id_held (y : Yard) (bay : Nat) : (y.markLamp id bay).held = y.held := by
  simp [Yard.markLamp]

@[simp] theorem Yard.rowUp_held (y : Yard) (row : Option Nat) : (y.rowUp row).held = y.held := by
  cases row <;> rfl

@[simp] theorem Yard.rowDown_held (y : Yard) (row : Option Nat) : (y.rowDown row).held = y.held := by
  cases row <;> rfl

@[simp] theorem Yard.leaveReady_held (y : Yard) (order : Nat) : (y.leaveReady order).held = y.held := by
  unfold Yard.leaveReady; split <;> simp

@[simp] theorem Yard.bindChange_held (y : Yard) (car : Nat) (bay : Option Nat) :
    (y.bindChange car bay).2.held = y.held := by
  unfold Yard.bindChange
  exact List.foldlRecOn (motive := fun z : Yard => z.held = y.held) _ _ rfl fun z hz e _ => by simpa using hz

@[simp] theorem Yard.setSpeaker_held (y : Yard) (bay : Nat) (on : Bool) : (y.setSpeaker bay on).held = y.held := by
  unfold Yard.setSpeaker
  split
  · dsimp only; split <;> simp
  · rfl

@[simp] theorem Yard.release_held (y : Yard) (car bay : Nat) : (y.release car bay).held = y.held := by
  simp [Yard.release]

@[simp] theorem Yard.unbindToField_held (y : Yard) (car bay : Nat) (cause : CarCause) :
    (y.unbindToField car bay cause).held = y.held := by
  simp [Yard.unbindToField]

@[simp] theorem Yard.checkCapacity_held (y : Yard) (sc : ScreenId) : (y.checkCapacity sc).held = y.held := by
  unfold Yard.checkCapacity
  dsimp only
  split <;> simp

@[simp] theorem Yard.emptyLostBay_held (car : Nat) (y : Yard) (bay : Nat) : (y.emptyLostBay car bay).held = y.held := by
  simp [Yard.emptyLostBay]

@[simp] theorem Yard.emptyBaysOf_held (car : Nat) (bays : List Nat) (y : Yard) :
    (Yard.emptyBaysOf car bays y).2.held = y.held := by
  induction bays generalizing y with
  | nil => rfl
  | cons b bays ih =>
    have hread := Yard.readBay_id_held y b
    unfold Yard.emptyBaysOf
    split
    · split <;> simp_all
    · simp_all

@[simp] theorem Yard.searchCars_id_held (q : Car → Bool) (slots : List Nat) (y : Yard) :
    (Yard.searchCars id q slots y).2.2.held = y.held := by
  induction slots generalizing y with
  | nil => rfl
  | cons i slots ih =>
    have hread := Yard.readCarSlot_id_held y i
    unfold Yard.searchCars
    split
    · split <;> simp_all
    · simp_all
    · simp_all

@[simp] theorem Yard.takeLost_held (y : Yard) (order : Nat) : (y.takeLost order).held = y.held := by
  unfold Yard.takeLost; split <;> simp

@[simp] theorem Yard.carLost_held (y : Yard) (car : Nat) : (y.carLost car).held = y.held := by
  simp [Yard.carLost]

@[simp] theorem Yard.bayLost_held (y : Yard) (bay : Nat) : (y.bayLost bay).held = y.held := by
  have hsearch := Yard.searchCars_id_held (fun c => decide (c.bay = some bay)) y.carSlotsInUse y
  unfold Yard.bayLost
  dsimp only
  split <;> simp_all

/-- Of the handling of a lost order (R194), only its leaving the held list touches the held lists. -/
@[simp] theorem Yard.orderLost_held (y : Yard) (order car : Nat) :
    (y.orderLost order car).held = (y.unhold order).held := by
  have hread (z z' : Yard) (c : Read Car) (h : z.readCar id car = (c, z')) : z'.held = z.held := by
    rw [← Yard.readCar_id_held z car, h]
  unfold Yard.orderLost
  dsimp only
  split
  next c y' hc =>
    have hy' := hread _ _ _ hc
    split <;> simp [hy', apply_ite Yard.held]
  next r y' _ hr => simp [hread _ _ _ hr, apply_ite Yard.held]

@[simp] theorem Yard.enqueueLines_held (y : Yard) (order : Nat) (lines : List Line) (stations : List StationId) :
    (y.enqueueLines order lines stations).held = y.held := by
  unfold Yard.enqueueLines
  exact List.foldlRecOn (motive := fun z : Yard => z.held = y.held) _ _ rfl fun z hz e _ => by simpa using hz

/-! ## Operations that take entries out of the held lists -/

/-- Whether every entry of a yard's held lists stands in the same list of another. -/
def Yard.heldWithin (z y : Yard) : Prop :=
  ∀ sc : ScreenId, z.held[sc] ⊆ y.held[sc]

theorem Yard.heldWithin_of_eq {z y : Yard} (h : z.held = y.held) : z.heldWithin y := fun sc => by rw [h]; exact .refl _

theorem Yard.heldWithin.trans {x y z : Yard} (hzy : z.heldWithin y) (hyx : y.heldWithin x) : z.heldWithin x :=
  fun sc _ he => hyx sc (hzy sc he)

theorem Yard.unhold_held_get (y : Yard) (order : Nat) (sc : ScreenId) :
    (y.unhold order).held[sc] = (y.held[sc]).filter fun e => e.order != order := by
  simp [Yard.unhold]

theorem Yard.unhold_heldWithin (y : Yard) (order : Nat) : (y.unhold order).heldWithin y := fun sc => by
  rw [Yard.unhold_held_get]
  exact List.filter_sublist.subset

/-- The handling of a lost record (R193) puts no order on a held list. -/
theorem Yard.handleLost_heldWithin (y : Yard) (t : TableId) (k : Key) : (y.handleLost t k).heldWithin y := by
  cases t with
  | car => exact Yard.heldWithin_of_eq (Yard.carLost_held y k.number)
  | bay => exact Yard.heldWithin_of_eq (Yard.bayLost_held y k.number)
  | order =>
    exact (Yard.heldWithin_of_eq (Yard.orderLost_held y k.number _)).trans (Yard.unhold_heldWithin y k.number)
  | menu => exact Yard.heldWithin_of_eq rfl
  | ticket => exact Yard.heldWithin_of_eq rfl

theorem Yard.drainWithin_heldWithin (n : Nat) (y : Yard) : (Yard.drainWithin n y).heldWithin y := by
  induction n generalizing y with
  | zero => exact Yard.heldWithin_of_eq rfl
  | succ n ih =>
    unfold Yard.drainWithin
    split
    · exact Yard.heldWithin_of_eq rfl
    · exact (ih _).trans (Yard.handleLost_heldWithin _ _ _)

/-- A read of an order puts no order on a held list, the handlings of a fault it meets included (R192). -/
theorem Yard.readOrder_drain_heldWithin (y : Yard) (n : Nat) : (y.readOrder Yard.drain n).2.heldWithin y := by
  have hslot (i : Nat) : (y.readOrderSlot Yard.drain i).2.heldWithin y := by
    unfold Yard.readOrderSlot
    split
    · exact Yard.heldWithin_of_eq rfl
    · exact Yard.heldWithin_of_eq rfl
    · exact Yard.drainWithin_heldWithin _ _
  unfold Yard.readOrder
  split
  · exact hslot _
  · exact Yard.heldWithin_of_eq rfl

/-! ## A release (R151) -/

/-- An order that is released leaves the held lists, and none joins them. -/
theorem Yard.releaseOne_held (y : Yard) (e x : HeldEntry) (sc : ScreenId) (hx : x ∈ (y.releaseOne e).held[sc]) :
    x ∈ y.held[sc] ∧ x.order ≠ e.order := by
  have hread := Yard.readOrder_drain_heldWithin y e.order
  unfold Yard.releaseOne at hx
  split at hx
  all_goals
    rename_i hr
    rw [hr] at hread
    simp only [Yard.enqueueLines_held, Yard.modOrder_held, Yard.unhold_held_get, List.mem_filter, bne_iff_ne] at hx
    exact ⟨hread sc hx.1, hx.2⟩

/-- Releasing orders one after another, with any count of them, takes every entry of the orders out of a held list. -/
theorem Yard.foldl_releaseOne_held (count : Nat → Yard → HeldEntry → Nat) (sc : ScreenId) (list : List HeldEntry)
    (a : Nat × Yard) (h : ∀ x ∈ a.2.held[sc], ∃ e ∈ list, e.order = x.order) :
    (list.foldl (fun a e => (count a.1 (a.2.releaseOne e) e, a.2.releaseOne e)) a).2.held[sc] = [] := by
  induction list generalizing a with
  | nil => exact List.eq_nil_iff_forall_not_mem.mpr fun x hx => by simpa using h x hx
  | cons e list ih =>
    refine ih _ fun x hx => ?_
    obtain ⟨hmem, hne⟩ := Yard.releaseOne_held _ _ _ _ hx
    obtain ⟨e', he', heq⟩ := h x hmem
    rcases List.mem_cons.mp he' with rfl | he'
    · exact absurd heq.symm hne
    · exact ⟨e', he', heq⟩

/-- A release empties its screen's held list. -/
theorem Yard.releaseHeld_held (y : Yard) (sc : ScreenId) : (y.releaseHeld sc).2.held[sc] = [] := by
  unfold Yard.releaseHeld
  split
  · assumption
  · exact Yard.foldl_releaseOne_held (fun n y e => if (y.findOrder e.order).isSome then n + 1 else n) sc _ _
      fun x hx => ⟨x, hx, rfl⟩

end Sys2Proof.Machine
end

section
/-! SUPPORT. What the operations of Machine/TimelineRules.lean do to a screen's record and what they tell, said once;
and what a timeline's telling leaves of the sound path and the held lists. -/

namespace Sys2Proof.Machine

/-! ## What the other blocks do with what a timeline tells them -/

/-- The old source's part of a switch touches neither the current source nor a pending one. -/
theorem SoundRun.leaveSource_keeps (w : SoundRun) (old : Source) :
    (w.leaveSource old).sd.source = w.sd.source ∧ (w.leaveSource old).sd.ramp = w.sd.ramp := by
  cases old with
  | programme =>
    simp only [SoundRun.leaveSource, SoundRun.closeGap]
    split <;> exact ⟨rfl, rfl⟩
  | onBreak => exact ⟨rfl, rfl⟩
  | mute => exact ⟨rfl, rfl⟩

/-- After the switch point the new source is current and none is pending (R56). -/
theorem SoundRun.switch_source (w : SoundRun) (src : Source) (cause : SourceCause) :
    (w.switch src cause).sd.source = src ∧ (w.switch src cause).sd.ramp = none := by
  simp only [SoundRun.switch]
  split
  · exact ⟨rfl, rfl⟩
  · split <;> exact SoundRun.leaveSource_keeps _ _

/-- A source request is the last one made, whether it is taken at once, pends in a ramp-down or changes nothing
(R55). -/
theorem SoundRun.request_asked (w : SoundRun) (src : Source) (cause : SourceCause) :
    (w.request src cause).sd.asked = src := by
  unfold SoundRun.request
  split
  · rfl
  next hramp =>
    have hnone : w.sd.ramp = none := by simpa using hramp
    split
    · simpa [Sound.asked, hnone]
    · split
      · simp [Sound.asked, SoundRun.switch_source w]
      · rfl

/-- A notice that names a source asks for it (R57). -/
theorem State.effect_notice_asked (sc : ScreenId) (s : State) (st : ShowState) (src : Source)
    (h : noticeSource st = some src) : ((s.effect sc (.notice st)).sound[sc]).asked = src := by
  simp [State.effect, SoundRun.notice, h, SoundRun.request_asked]

/-- Held orders that have been released stay released, whatever a timeline tells after it. -/
theorem State.foldl_effect_held_nil (sc : ScreenId) (es : List Effect) (s : State) (h : s.yard.held[sc] = []) :
    (es.foldl (State.effect sc) s).yard.held[sc] = [] := by
  induction es generalizing s with
  | nil => exact h
  | cons e es ih =>
    refine ih _ ?_
    cases e with
    | report r => exact h
    | notice st => exact h
    | frameEvent f => exact h
    | release => exact Yard.releaseHeld_held _ _

theorem State.foldl_effect_release (sc : ScreenId) (es : List Effect) (s : State) (h : .release ∈ es) :
    (es.foldl (State.effect sc) s).yard.held[sc] = [] := by
  obtain ⟨pre, post, rfl⟩ := List.append_of_mem h
  rw [List.foldl_append, List.foldl_cons]
  exact State.foldl_effect_held_nil _ _ _ (Yard.releaseHeld_held _ _)

/-- A screen's timeline as a step finds it. -/
def State.showRun (s : State) (sc : ScreenId) : ShowRun :=
  { id := sc, sc := s.screens[sc], out := [] }

@[simp] theorem State.showRun_sc (s : State) (sc : ScreenId) : (s.showRun sc).sc = s.screens[sc] := rfl
@[simp] theorem State.showRun_id (s : State) (sc : ScreenId) : (s.showRun sc).id = sc := rfl
@[simp] theorem State.showRun_out (s : State) (sc : ScreenId) : (s.showRun sc).out = [] := rfl

theorem State.onShow_screen (s : State) (sc : ScreenId) (f : ShowRun → ShowRun) :
    (s.onShow sc f).screens[sc] = (f (s.showRun sc)).sc := by
  rw [State.onShow_screens]
  exact Vector.getElem_set_self _

theorem State.onShow_released (s : State) (sc : ScreenId) (f : ShowRun → ShowRun)
    (h : .release ∈ (f (s.showRun sc)).out) : (s.onShow sc f).yard.held[sc] = [] :=
  State.foldl_effect_release _ _ _ h

/-- The source asked for is that of the notice told last. -/
theorem State.onShow_asked (s : State) (sc : ScreenId) (f : ShowRun → ShowRun) (st : ShowState) (src : Source)
    (hf : (f (s.showRun sc)).out.getLast? = some (.notice st)) (h : noticeSource st = some src) :
    ((s.onShow sc f).sound[sc]).asked = src := by
  obtain ⟨es, hes⟩ := List.getLast?_eq_some_iff.mp hf
  unfold State.showRun at hes
  simp only [State.onShow, hes, List.foldl_append, List.foldl_cons, List.foldl_nil]
  exact State.effect_notice_asked _ _ _ _ h

/-- A timeline operation that tells one frame event, then reports. -/
theorem State.onShow_frameEvent (s : State) (sc : ScreenId) (f : ShowRun → ShowRun) (r : Screen) (n : BitVec 32)
    (rs : List Report) (w : SoundRun) (hw : w = SoundRun.frameEvent { id := sc, sd := s.sound[sc], out := [] } n)
    (hf : f (s.showRun sc) = { id := sc, sc := r, out := .frameEvent n :: rs.map Effect.report }) :
    s.onShow sc f = ((s.withScreen sc r).withSound sc w.sd).raiseAll (w.out ++ rs) := by
  have hsound : (s.withScreen sc r).onSound sc (fun v => v.frameEvent n) =
      ((s.withScreen sc r).withSound sc w.sd).raiseAll w.out := by subst hw; rfl
  unfold State.showRun at hf
  simp only [State.onShow, hf, List.foldl_cons, State.foldl_effect_reports, ← State.raiseAll_raiseAll, ← hsound]
  rfl

/-! ## Heads -/

/-- The on-screen head is the one a changeover leaves. -/
theorem Screen.outgoing_of_isOnScreen {sc : Screen} {h : Head} (hon : sc.isOnScreen h = true) : sc.outgoing = h := by
  have hon : sc.onScreen? = some h := by simpa [Screen.isOnScreen] using hon
  unfold Screen.onScreen? at hon
  unfold Screen.outgoing Screen.incoming
  split at hon
  · cases hon
  · split at hon <;> simp_all [otherHead]

@[simp] theorem Screen.setHead_incoming (sc : Screen) (h : Head) (r : HeadRec) :
    (sc.setHead h r).incoming = sc.incoming := by
  simp [Screen.incoming]

/-- A motor or douser command, or a marker, that leaves the lamp and the speed-lost marker alone neither brings a head
into FAULT nor takes it out. -/
theorem HeadRec.fault_iff (x y : HeadRec) (hl : y.lampOk = x.lampOk) (hs : y.speedLost = x.speedLost) :
    y.state = .fault ↔ x.state = .fault := by
  have hx (z : HeadRec) : z.state = .fault ↔ (!z.lampOk || z.speedLost) = true := by
    unfold HeadRec.state
    split
    · simp_all
    · repeat' split
      all_goals simp_all
  rw [hx, hx, hl, hs]

theorem HeadRec.running_iff (x : HeadRec) : x.state = .running ↔
    x.lampOk = true ∧ x.speedLost = false ∧ x.motor = true ∧ x.atSpeed = true ∧ x.runout = false := by
  unfold HeadRec.state
  repeat' split
  all_goals grind

@[simp] theorem ShowRun.mod_sc (w : ShowRun) (f : Screen → Screen) : (w.mod f).sc = f w.sc := rfl
@[simp] theorem ShowRun.mod_id (w : ShowRun) (f : Screen → Screen) : (w.mod f).id = w.id := rfl
@[simp] theorem ShowRun.mod_out (w : ShowRun) (f : Screen → Screen) : (w.mod f).out = w.out := rfl
@[simp] theorem ShowRun.tell_sc (w : ShowRun) (e : Effect) : (w.tell e).sc = w.sc := rfl
@[simp] theorem ShowRun.tell_id (w : ShowRun) (e : Effect) : (w.tell e).id = w.id := rfl
@[simp] theorem ShowRun.tell_out (w : ShowRun) (e : Effect) : (w.tell e).out = w.out ++ [e] := rfl
@[simp] theorem ShowRun.raise_sc (w : ShowRun) (r : Report) : (w.raise r).sc = w.sc := rfl
@[simp] theorem ShowRun.raise_id (w : ShowRun) (r : Report) : (w.raise r).id = w.id := rfl
@[simp] theorem ShowRun.raise_out (w : ShowRun) (r : Report) : (w.raise r).out = w.out ++ [.report r] := rfl

@[simp] theorem ShowRun.modHead_sc (w : ShowRun) (h : Head) (f : HeadRec → HeadRec) :
    (w.modHead h f).sc = w.sc.setHead h (f (w.sc.head h)) := by
  unfold ShowRun.modHead
  dsimp only
  split <;> rfl

@[simp] theorem ShowRun.modHead_id (w : ShowRun) (h : Head) (f : HeadRec → HeadRec) : (w.modHead h f).id = w.id := by
  unfold ShowRun.modHead
  dsimp only
  split <;> rfl

/-- A change of a head that leaves the lamp and the speed-lost marker alone reports nothing (R2). -/
theorem ShowRun.modHead_out (w : ShowRun) (h : Head) (f : HeadRec → HeadRec)
    (hl : (f (w.sc.head h)).lampOk = (w.sc.head h).lampOk)
    (hs : (f (w.sc.head h)).speedLost = (w.sc.head h).speedLost) : (w.modHead h f).out = w.out := by
  have hiff := HeadRec.fault_iff _ _ hl hs
  unfold ShowRun.modHead
  dsimp only
  rw [if_neg fun hcond => hcond.2 (hiff.mpr hcond.1), ShowRun.mod_out]

@[simp] theorem ShowRun.motor_sc (w : ShowRun) (h : Head) (on : Bool) : (w.motor h on).sc =
    w.sc.setHead h { w.sc.head h with motor := on, speedLost := (w.sc.head h).speedLost && on } :=
  ShowRun.modHead_sc _ _ _

@[simp] theorem ShowRun.motor_id (w : ShowRun) (h : Head) (on : Bool) : (w.motor h on).id = w.id :=
  ShowRun.modHead_id _ _ _

@[simp] theorem ShowRun.douser_sc (w : ShowRun) (h : Head) (on : Bool) :
    (w.douser h on).sc = w.sc.setHead h { w.sc.head h with douser := on } :=
  ShowRun.modHead_sc _ _ _

@[simp] theorem ShowRun.douser_id (w : ShowRun) (h : Head) (on : Bool) : (w.douser h on).id = w.id :=
  ShowRun.modHead_id _ _ _

@[simp] theorem ShowRun.clearStop_sc (w : ShowRun) (h : Head) :
    (w.clearStop h).sc = w.sc.setHead h { w.sc.head h with stopAtRunout := false } :=
  ShowRun.modHead_sc _ _ _

@[simp] theorem ShowRun.clearStop_id (w : ShowRun) (h : Head) : (w.clearStop h).id = w.id :=
  ShowRun.modHead_id _ _ _

@[simp] theorem Screen.setHead_setHead (sc : Screen) (h : Head) (x y : HeadRec) :
    (sc.setHead h x).setHead h y = sc.setHead h y := by cases h <;> rfl

@[simp] theorem ShowRun.startMotor_sc (w : ShowRun) (h : Head) : (w.startMotor h).sc =
    w.sc.setHead h { w.sc.head h with motor := true, stopAtRunout := false } := by
  simp [ShowRun.startMotor]

@[simp] theorem ShowRun.startMotor_id (w : ShowRun) (h : Head) : (w.startMotor h).id = w.id := by
  simp [ShowRun.startMotor]

/-- Commanding a motor on takes no head out of FAULT, so it reports nothing (R1, R2). -/
@[simp] theorem ShowRun.startMotor_out (w : ShowRun) (h : Head) : (w.startMotor h).out = w.out := by
  unfold ShowRun.startMotor ShowRun.clearStop ShowRun.motor
  rw [ShowRun.modHead_out _ _ _ rfl rfl, ShowRun.modHead_out _ _ _ rfl (Bool.and_true _)]

/-! ## Show states -/

/-- Whatever the show state was, it is now the one entered. -/
@[simp] theorem ShowRun.enter_sc (w : ShowRun) (st : ShowState) (cause : ShowCause) :
    (w.enter st cause).sc = { w.sc with phase := st } := by
  unfold ShowRun.enter
  dsimp only
  split
  next h => rw [← h]
  next => cases st <;> rfl

@[simp] theorem ShowRun.enter_id (w : ShowRun) (st : ShowState) (cause : ShowCause) : (w.enter st cause).id = w.id := by
  unfold ShowRun.enter
  dsimp only
  split
  next => rfl
  next => cases st <;> rfl

/-- What has been told stays told. -/
theorem ShowRun.mem_enter_out (w : ShowRun) (st : ShowState) (cause : ShowCause) {e : Effect} (he : e ∈ w.out) :
    e ∈ (w.enter st cause).out := by
  unfold ShowRun.enter
  dsimp only
  split
  next => exact he
  next => cases st <;> simp [he]

/-- A change to a show state that names a source sends, last, the notice of the state (R4). -/
theorem ShowRun.enter_last (w : ShowRun) (st : ShowState) (cause : ShowCause) (h : w.sc.phase ≠ st) (src : Source)
    (hsrc : noticeSource st = some src) : (w.enter st cause).out.getLast? = some (.notice st) := by
  unfold ShowRun.enter
  dsimp only
  rw [if_neg h]
  cases st with
  | playing | onBreak | ended | halted | dark => simp
  | loaded | starting | held => cases hsrc

/-- A change to a show state that names no source reports the change and no more (R4). -/
theorem ShowRun.enter_out_quiet (w : ShowRun) (st : ShowState) (cause : ShowCause) (h : w.sc.phase ≠ st)
    (hsrc : noticeSource st = none) :
    (w.enter st cause).out = w.out ++ [.report (.showState w.id w.sc.phase st w.sc.reel cause)] := by
  unfold ShowRun.enter
  dsimp only
  rw [if_neg h]
  cases st with
  | playing | onBreak | ended | halted | dark => cases hsrc
  | loaded | starting | held => rfl

@[simp] theorem ShowRun.shutDown_sc (w : ShowRun) : w.shutDown.sc = w.sc.stopped := by
  simp [ShowRun.shutDown, Screen.stopped, HeadRec.stopped, Screen.setHead, Screen.head]

/-- The end of a show leaves both heads stopped and ordering closed (R26). -/
@[simp] theorem ShowRun.endShow_sc (w : ShowRun) (cause : ShowCause) :
    (w.endShow cause).sc = { w.sc.stopped with phase := .ended, orderingOpen := false } := by
  simp [ShowRun.endShow]

/-- The end of a show releases the held orders (R26). -/
theorem ShowRun.endShow_releases (w : ShowRun) (cause : ShowCause) : .release ∈ (w.endShow cause).out :=
  ShowRun.mem_enter_out _ _ _ (by simp)

/-- The end of a show sends, last, the notice of ENDED (R26). -/
theorem ShowRun.endShow_last (w : ShowRun) (cause : ShowCause) (h : w.sc.phase ≠ .ended) :
    (w.endShow cause).out.getLast? = some (.notice .ended) :=
  ShowRun.enter_last _ .ended cause (by simpa [Screen.stopped] using h) .mute rfl

end Sys2Proof.Machine
end

section
/-! PROOF. STOP SHOW and CLEAR SHOW in every show state and part state (R13, R26, R27, R31). -/

namespace Sys2Proof.Machine

/-! ## Requests to one screen's timeline -/

theorem withFin_val (n : Nat) (i : Fin n) (body : Fin n → State → Reply × State) : withFin n i.val body = body i := by
  funext s
  simp [withFin, finOf]

theorem inRun_run (body : State → Reply × State) (s : State) (h : s.link.part = .run) : inRun body s = body s :=
  if_pos h

theorem inRun_setup (body : State → Reply × State) (s : State) (h : s.link.part = .setup) :
    inRun body s = refused .state s := by
  simp [inRun, h]

theorem showBody_taken (sc : ScreenId) (f : ShowRun → Bool × ShowRun) (s : State) (h : (f (s.showRun sc)).1 = true) :
    showBody sc f s = (Reply.ok, s.onShow sc fun w => (f w).2) :=
  if_pos h

theorem showBody_refused (sc : ScreenId) (f : ShowRun → Bool × ShowRun) (s : State)
    (h : (f (s.showRun sc)).1 = false) : showBody sc f s = refused .state s :=
  if_neg (Bool.eq_false_iff.mp h)

/-- A request that finds room and is refused changes nothing but the reply list. -/
theorem request_refused (kind tag : Nat) (body : State → Reply × State) (s : State) (r : Result) (h : s.ready)
    (hb : body s = refused r s) : request kind tag body s = .next (s.answered kind tag (Reply.refuse r) []) :=
  request_answers_quietly kind tag body s s _ h.2 hb h.1

/-- A request that finds room and is taken leaves the blocks as its body leaves them, with its reply at the tail of the
reply list. -/
theorem request_taken (kind tag : Nat) (body : State → Reply × State) (s t : State) (r : Reply) (h : s.link.roomy)
    (hb : body s = (r, t)) : ∃ u, request kind tag body s = .next u ∧ u.screens = t.screens ∧ u.sound = t.sound ∧
      u.yard.held = t.yard.held ∧ u.link.replies = t.link.replies ++ [.request kind tag r] := by
  refine ⟨_, request_next kind tag body s, ?_⟩
  simp [request_roomy kind tag body s h, hb]

/-- A request that a screen's timeline takes: the screen is as the timeline leaves it, and the reply is OK. -/
theorem request_show_taken (kind tag : Nat) (body : State → Reply × State) (s : State) (sc : ScreenId)
    (f : ShowRun → ShowRun) (h : s.link.roomy) (hb : body s = (Reply.ok, s.onShow sc f)) :
    ∃ u, request kind tag body s = .next u ∧ u.screens[sc] = (f (s.showRun sc)).sc ∧
      u.sound = (s.onShow sc f).sound ∧ u.yard.held = (s.onShow sc f).yard.held ∧
      u.link.replies = s.link.replies ++ [.request kind tag Reply.ok] := by
  obtain ⟨u, hu, hscreens, hsound, hheld, hreplies⟩ := request_taken kind tag body s _ _ h hb
  exact ⟨u, hu, by rw [hscreens, State.onShow_screen], hsound, hheld, by rw [hreplies, State.onShow_link]⟩

/-! ## What the timeline does with them -/

theorem exec_stopShow (tag : Nat) (sc : ScreenId) (s : State) :
    exec (.stopShow tag sc.val) s = request 0x04 tag (inRun (showBody sc ShowRun.takeStop)) s := by
  change request 0x04 tag (withFin 4 sc.val fun sc => inRun (showBody sc ShowRun.takeStop)) s = _
  rw [withFin_val]

theorem exec_clearShow (tag : Nat) (sc : ScreenId) (s : State) :
    exec (.clearShow tag sc.val) s = request 0x05 tag (showBody sc ShowRun.takeClear) s := by
  change request 0x05 tag (withFin 4 sc.val fun sc => showBody sc ShowRun.takeClear) s = _
  rw [withFin_val]

theorem ShowRun.takeStop_running (w : ShowRun) (h : w.sc.phase ∈ [ShowState.playing, .onBreak, .held]) :
    w.takeStop = (true, w.endShow .stopShow) := by
  simp only [List.mem_cons, List.not_mem_nil, or_false] at h
  obtain h | h | h := h <;> simp [ShowRun.takeStop, h]

theorem ShowRun.takeStop_starting (w : ShowRun) (h : w.sc.phase = .starting) : w.takeStop =
    (true, ((w.mod fun sc => { sc with startTimer := none }).motor .a false).enter .loaded .stopShow) := by
  simp [ShowRun.takeStop, h]

theorem ShowRun.takeStop_elsewhere (w : ShowRun) (h : w.sc.phase ∈ [ShowState.dark, .loaded, .ended, .halted]) :
    w.takeStop = (false, w) := by
  simp only [List.mem_cons, List.not_mem_nil, or_false] at h
  obtain h | h | h | h := h <;> simp [ShowRun.takeStop, h]

theorem ShowRun.takeClear_ended (w : ShowRun) (h : w.sc.phase = .ended) : w.takeClear =
    (true, (w.mod fun sc => { sc with
      active := none, staged := none, reel := 0, frame := 0, f := 0, leadFired := false, breakWindow := false,
      orderingOpen := true }).enter .dark .clearShow) :=
  if_pos h

theorem ShowRun.takeClear_elsewhere (w : ShowRun) (h : w.sc.phase ≠ .ended) : w.takeClear = (false, w) :=
  if_neg h

/-! ## The requests -/

/-- STOP SHOW of a show that runs ends it (R26). -/
theorem exec_stopShow_running (s : State) (tag : Nat) (sc : ScreenId) (hs : s.ready) (hrun : s.link.part = .run)
    (h : s.screens[sc].phase ∈ [ShowState.playing, .onBreak, .held]) : ∃ t, exec (.stopShow tag sc.val) s = .next t ∧
      t.screens[sc] = { s.screens[sc].stopped with phase := .ended, orderingOpen := false } ∧ t.yard.held[sc] = [] ∧
      t.sound[sc].asked = .mute ∧ t.link.replies = s.link.replies ++ [.request 0x04 tag Reply.ok] := by
  have htake : (s.showRun sc).takeStop = (true, (s.showRun sc).endShow .stopShow) :=
    ShowRun.takeStop_running _ h
  have hne : (s.showRun sc).sc.phase ≠ .ended := by
    rw [State.showRun_sc]
    intro he
    simp only [he] at h
    exact absurd h (by decide)
  obtain ⟨t, ht, hscreen, hsound, hheld, hreplies⟩ := request_show_taken 0x04 tag
    (inRun (showBody sc ShowRun.takeStop)) s sc _ hs.2
    ((inRun_run _ _ hrun).trans (showBody_taken sc ShowRun.takeStop s (by rw [htake])))
  refine ⟨t, (exec_stopShow tag sc s).trans ht, ?_, ?_, ?_, hreplies⟩
  · simp only [hscreen, htake, ShowRun.endShow_sc, State.showRun_sc]
  · rw [hheld]
    exact State.onShow_released _ _ _ (by simp only [htake, ShowRun.endShow_releases])
  · rw [hsound]
    exact State.onShow_asked _ _ _ .ended _ (by simp only [htake, ShowRun.endShow_last _ _ hne]) rfl

/-- STOP SHOW in STARTING takes the start back (R13). -/
theorem exec_stopShow_starting (s : State) (tag : Nat) (sc : ScreenId) (hs : s.ready) (hrun : s.link.part = .run)
    (h : s.screens[sc].phase = .starting) : ∃ t, exec (.stopShow tag sc.val) s = .next t ∧
      t.screens[sc] = { s.screens[sc] with
        headA := { s.screens[sc].headA with motor := false, speedLost := false }, startTimer := none
        phase := .loaded } ∧
      t.link.replies = s.link.replies ++ [.request 0x04 tag Reply.ok] := by
  have htake := ShowRun.takeStop_starting (s.showRun sc) h
  obtain ⟨t, ht, hscreen, -, -, hreplies⟩ := request_show_taken 0x04 tag
    (inRun (showBody sc ShowRun.takeStop)) s sc _ hs.2
    ((inRun_run _ _ hrun).trans (showBody_taken sc ShowRun.takeStop s (by rw [htake])))
  refine ⟨t, (exec_stopShow tag sc s).trans ht, ?_, hreplies⟩
  rw [hscreen, htake]
  simp [Screen.setHead, Screen.head]

/-- STOP SHOW is refused in SETUP and where there is no show to stop. -/
theorem exec_stopShow_refused (s : State) (tag : Nat) (sc : ScreenId) (hs : s.ready)
    (h : s.link.part = .setup ∨ s.screens[sc].phase ∈ [ShowState.dark, .loaded, .ended, .halted]) :
    exec (.stopShow tag sc.val) s = .next (s.answered 0x04 tag (Reply.refuse .state) []) := by
  rw [exec_stopShow]
  refine request_refused _ _ _ _ _ hs ?_
  cases hpart : s.link.part with
  | setup => exact inRun_setup _ _ hpart
  | run =>
    have hphase := h.resolve_left (by simp [hpart])
    exact (inRun_run _ _ hpart).trans
      (showBody_refused _ _ _ (by rw [ShowRun.takeStop_elsewhere (s.showRun sc) hphase]))

/-- CLEAR SHOW in ENDED empties the screen's sets and leaves it DARK (R27), in SETUP as in RUN. -/
theorem exec_clearShow_ended (s : State) (tag : Nat) (sc : ScreenId) (hs : s.ready) (h : s.screens[sc].phase = .ended) :
    ∃ t, exec (.clearShow tag sc.val) s = .next t ∧
      t.screens[sc] = { s.screens[sc] with
        active := none, staged := none, reel := 0, frame := 0, f := 0, leadFired := false, breakWindow := false,
        orderingOpen := true, phase := .dark } ∧
      t.sound[sc].asked = .mute ∧ t.link.replies = s.link.replies ++ [.request 0x05 tag Reply.ok] := by
  have htake := ShowRun.takeClear_ended (s.showRun sc) h
  obtain ⟨t, ht, hscreen, hsound, -, hreplies⟩ := request_show_taken 0x05 tag (showBody sc ShowRun.takeClear) s sc _
    hs.2 (showBody_taken sc ShowRun.takeClear s (by rw [htake]))
  refine ⟨t, (exec_clearShow tag sc s).trans ht, ?_, ?_, hreplies⟩
  · rw [hscreen, htake]
    simp
  · rw [hsound]
    refine State.onShow_asked _ _ _ .dark _ ?_ rfl
    simp only [htake]
    exact ShowRun.enter_last _ .dark .clearShow (by rw [ShowRun.mod_sc, State.showRun_sc, h]; decide) .mute rfl

/-- CLEAR SHOW is refused everywhere else. -/
theorem exec_clearShow_refused (s : State) (tag : Nat) (sc : ScreenId) (hs : s.ready)
    (h : s.screens[sc].phase ≠ .ended) :
    exec (.clearShow tag sc.val) s = .next (s.answered 0x05 tag (Reply.refuse .state) []) := by
  rw [exec_clearShow]
  exact request_refused _ _ _ _ _ hs
    (showBody_refused _ _ _ (by rw [ShowRun.takeClear_elsewhere (s.showRun sc) h]))

/-- Settles O24, by one rule for each request and show state. -/
theorem stopAndClearShow : Obligations.StopAndClearShow := by
  unfold Obligations.StopAndClearShow
  rintro s tag sc r hs rfl
  exact ⟨exec_stopShow_running s tag sc hs, exec_stopShow_starting s tag sc hs, exec_stopShow_refused s tag sc hs,
    exec_clearShow_ended s tag sc hs, exec_clearShow_refused s tag sc hs⟩

end Sys2Proof.Machine
end

section
/-! SUPPORT. How the cues of a frame fire, what a changeover with and without a break length does, and what a frame
pulse comes to (R5 to R8, R11, R14, R16, R17). -/

namespace Sys2Proof.Machine

/-! ## Firing without a CHANGEOVER -/

@[simp] theorem Screen.markFired_phase (r : Screen) (i : Nat) : (r.markFired i).phase = r.phase := rfl
@[simp] theorem Screen.markFired_reel (r : Screen) (i : Nat) : (r.markFired i).reel = r.reel := rfl
@[simp] theorem Screen.markFired_incoming (r : Screen) (i : Nat) : (r.markFired i).incoming = r.incoming := rfl
@[simp] theorem Screen.markFired_outgoing (r : Screen) (i : Nat) : (r.markFired i).outgoing = r.outgoing := rfl
@[simp] theorem Screen.markFired_head (r : Screen) (i : Nat) (h : Head) : (r.markFired i).head h = r.head h := by
  cases h <;> rfl

/-- Fire a cue that is no CHANGEOVER: its marker is set, then it has its effect (R5, R8). -/
def ShowRun.fireEffect (w : ShowRun) (e : Nat × Cue) : ShowRun :=
  (w.mod fun r => r.markFired e.1).cueEffect e.2

theorem ShowRun.fireCue_effect (done : ShowRun → ShowRun) (w : ShowRun) (e : Nat × Cue) (h : e.2.kind ≠ .changeover) :
    ShowRun.fireCue done w e = w.fireEffect e := by
  unfold ShowRun.fireCue
  dsimp only
  split
  next hkind => exact absurd hkind h
  next => rfl

theorem ShowRun.foldl_fireCue_effect (done : ShowRun → ShowRun) (due : List (Nat × Cue)) (w : ShowRun)
    (h : noChangeover due) : due.foldl (ShowRun.fireCue done) w = due.foldl ShowRun.fireEffect w :=
  List.foldl_ext _ _ _ fun v e he => ShowRun.fireCue_effect done v e (h e he)

/-- The screen record after a cue depends on the screen record alone, not on what has been told. -/
theorem ShowRun.fireEffect_sc_congr (w v : ShowRun) (e : Nat × Cue) (h : w.sc = v.sc) :
    (w.fireEffect e).sc = (v.fireEffect e).sc := by
  unfold ShowRun.fireEffect ShowRun.cueEffect
  split <;> simp [h]

theorem ShowRun.foldl_fireEffect_sc_congr (due : List (Nat × Cue)) (w v : ShowRun) (h : w.sc = v.sc) :
    (due.foldl ShowRun.fireEffect w).sc = (due.foldl ShowRun.fireEffect v).sc := by
  induction due generalizing w v with
  | nil => exact h
  | cons e due ih => exact ih _ _ (ShowRun.fireEffect_sc_congr w v e h)

/-- A cue that is no CHANGEOVER changes neither the show state nor the reel. -/
theorem ShowRun.fireEffect_keeps (w : ShowRun) (e : Nat × Cue) :
    (w.fireEffect e).sc.phase = w.sc.phase ∧ (w.fireEffect e).sc.reel = w.sc.reel := by
  unfold ShowRun.fireEffect ShowRun.cueEffect
  split <;> simp

theorem ShowRun.foldl_fireEffect_keeps (due : List (Nat × Cue)) (w : ShowRun) :
    (due.foldl ShowRun.fireEffect w).sc.phase = w.sc.phase ∧ (due.foldl ShowRun.fireEffect w).sc.reel = w.sc.reel := by
  induction due generalizing w with
  | nil => exact ⟨rfl, rfl⟩
  | cons e due ih =>
    obtain ⟨hphase, hreel⟩ := ih (w.fireEffect e)
    obtain ⟨hphase', hreel'⟩ := w.fireEffect_keeps e
    exact ⟨hphase.trans hphase', hreel.trans hreel'⟩

/-- With no CHANGEOVER due, the cues of a frame leave the screen as `Screen.cuesFired` says. -/
theorem ShowRun.fireDue_sc (n frame : Nat) (w : ShowRun) (sc : ScreenId) (h : noChangeover (w.sc.due frame)) :
    (ShowRun.fireDue (n + 1) frame w).sc = w.sc.cuesFired sc frame := by
  rw [ShowRun.fireDue, ShowRun.foldl_fireCue_effect _ _ _ h]
  exact ShowRun.foldl_fireEffect_sc_congr _ w { id := sc, sc := w.sc, out := [] } rfl

theorem ShowRun.fireDue_nil (n frame : Nat) (w : ShowRun) (h : w.sc.due frame = []) :
    ShowRun.fireDue (n + 1) frame w = w := by
  rw [ShowRun.fireDue, h, List.foldl_nil]

/-! ## Firing a CHANGEOVER -/

/-- A CHANGEOVER after other cues of its frame fires on what they leave. -/
theorem ShowRun.fireDue_changeover (n frame : Nat) (w : ShowRun) (pre : List (Nat × Cue)) (i cueFrame len : Nat)
    (h : w.sc.due frame = pre ++ [(i, ⟨.changeover, cueFrame, len⟩)]) (hpre : noChangeover pre) :
    ShowRun.fireDue (n + 1) frame w = ShowRun.changeover (fun w => ShowRun.fireDue n 0 w.complete) len
      ((pre.foldl ShowRun.fireEffect w).mod fun r => r.markFired i) := by
  rw [ShowRun.fireDue, h, List.foldl_append, ShowRun.foldl_fireCue_effect _ _ _ hpre]
  rfl

theorem ShowRun.changeover_running (done : ShowRun → ShowRun) (w : ShowRun)
    (h : (w.sc.head w.sc.incoming).state = .running) : ShowRun.changeover done 0 w = done w := by
  simp [ShowRun.changeover, ShowRun.isRunning, h]

theorem ShowRun.changeover_break (done : ShowRun → ShowRun) (len : Nat) (w : ShowRun) (h : 0 < len) :
    ShowRun.changeover done len w = w.enterBreak len :=
  if_neg h.ne'

/-- The wait for the incoming head, in full (R16, R19). -/
theorem ShowRun.holdForIncoming_eq (w : ShowRun) (x : HeadRec) (hphase : w.sc.phase ≠ .held)
    (hx : x = { w.sc.head w.sc.incoming with motor := true, stopAtRunout := false }) :
    w.holdForIncoming = { id := w.id
                          sc := { w.sc.setHead w.sc.incoming x with
                            phase := .held, heldHead := some w.sc.incoming, countdown := none }
                          out := w.out ++ [.report (.changeoverLate w.id w.sc.reel x.state),
                            .report (.showState w.id w.sc.phase .held w.sc.reel .changeover)] } := by
  have hsc : (w.holdForIncoming).sc = { w.sc.setHead w.sc.incoming x with
      phase := .held, heldHead := some w.sc.incoming, countdown := none } := by
    subst hx
    cases hinc : w.sc.incoming <;> simp [ShowRun.holdForIncoming, hinc, Screen.setHead, Screen.head]
  have hout : (w.holdForIncoming).out = w.out ++ [.report (.changeoverLate w.id w.sc.reel x.state),
      .report (.showState w.id w.sc.phase .held w.sc.reel .changeover)] := by
    subst hx
    refine (ShowRun.enter_out_quiet _ .held _ ?_ rfl).trans ?_
    · simpa using hphase
    · cases w.sc.incoming <;> simp [Screen.setHead, Screen.head]
  have hid : (w.holdForIncoming).id = w.id := by simp [ShowRun.holdForIncoming]
  rw [← hsc, ← hout, ← hid]

/-- A changeover with no break length waits for an incoming head that is not RUNNING even with its motor on. -/
theorem ShowRun.changeover_late (done : ShowRun → ShowRun) (w : ShowRun) (x : HeadRec) (hphase : w.sc.phase ≠ .held)
    (hx : x = { w.sc.head w.sc.incoming with motor := true, stopAtRunout := false })
    (hhead : (w.sc.head w.sc.incoming).state ≠ .running) (hrun : x.state ≠ .running) :
    ShowRun.changeover done 0 w = w.holdForIncoming := by
  have hafter : w.holdForIncoming.isRunning w.holdForIncoming.sc.incoming = false := by
    have hinc : Screen.incoming { w.sc.setHead w.sc.incoming x with
        phase := .held, heldHead := some w.sc.incoming, countdown := none } = w.sc.incoming :=
      Screen.setHead_incoming _ _ _
    have hhd : Screen.head { w.sc.setHead w.sc.incoming x with
        phase := .held, heldHead := some w.sc.incoming, countdown := none } w.sc.incoming = x := by
      cases w.sc.incoming <;> rfl
    rw [ShowRun.holdForIncoming_eq w x hphase hx, hinc, ShowRun.isRunning, hhd]
    exact decide_eq_false hrun
  have hbefore : w.isRunning w.sc.incoming = false := decide_eq_false hhead
  simp only [ShowRun.changeover, if_true, hbefore, hafter, Bool.false_eq_true, if_false]

/-! ## Completion (R11, R14) -/

theorem Screen.changeover_heads (r : Screen) :
    (r.incoming = .a ∧ r.outgoing = .b) ∨ (r.incoming = .b ∧ r.outgoing = .a) := by
  unfold Screen.outgoing
  cases r.incoming
  · exact .inl ⟨rfl, rfl⟩
  · exact .inr ⟨rfl, rfl⟩

/-- The completion examines the staged slot against the reel number (R11). -/
theorem ShowRun.activate_sc (w : ShowRun) : w.activate.sc = { w.sc with
    staged := none, leadFired := false
    active := w.sc.staged.bind fun cs =>
      if cs.reel = w.sc.reel then some { cs with cues := cs.cues.map fun c => (c.1, false) } else none } := by
  unfold ShowRun.activate
  dsimp only
  split
  next h => simp [h]
  next cs h => split <;> simp_all

theorem Screen.completed_markFired (r : Screen) (i : Nat) : (r.markFired i).completed = r.completed := by
  simp only [Screen.completed, Screen.markFired_head, Screen.markFired_outgoing, Screen.markFired_incoming]
  cases r.outgoing <;> cases r.incoming <;> rfl

/-- A head's state does not depend on its douser (R1). -/
theorem HeadRec.state_douser (x : HeadRec) (d : Bool) : ({ x with douser := d } : HeadRec).state = x.state := rfl

/-- The outgoing head's motor at a completion: left on, with the stop-at-runout marker, where the head is RUNNING, and
off otherwise (R14, R15). -/
theorem ShowRun.outgoing_at_completion (w : ShowRun) (h : Head) :
    (if w.isRunning h then w.modHead h fun r => { r with stopAtRunout := true } else w.motor h false).sc =
      w.sc.setHead h { w.sc.head h with
        motor := decide ((w.sc.head h).state = .running), speedLost := false
        stopAtRunout := decide ((w.sc.head h).state = .running) || (w.sc.head h).stopAtRunout } := by
  by_cases hrun : (w.sc.head h).state = .running
  · obtain ⟨-, hspeed, hmotor, -, -⟩ := (HeadRec.running_iff _).mp hrun
    have hsame (x : HeadRec) (hs : x.speedLost = false) (hm : x.motor = true) :
        ({ x with stopAtRunout := true } : HeadRec) =
          { x with motor := true, speedLost := false, stopAtRunout := true } := by
      cases x; simp_all
    simp [ShowRun.isRunning, hrun, hsame _ hspeed hmotor]
  · simp [ShowRun.isRunning, hrun]

theorem ShowRun.complete_sc (w : ShowRun) : w.complete.sc = w.sc.completed := by
  unfold ShowRun.complete Screen.completed
  obtain ⟨hinc, hout⟩ | ⟨hinc, hout⟩ := w.sc.changeover_heads
  all_goals
    rw [hinc, hout]
    simp only [ShowRun.enter_sc, ShowRun.mod_sc, ShowRun.douser_sc, ShowRun.clearStop_sc, ShowRun.activate_sc,
      ShowRun.outgoing_at_completion, Screen.setHead, Screen.head, HeadRec.state_douser]
    rfl

/-! ## The entry into BREAK (R17) -/

/-- A screen after a CHANGEOVER with a break length: the outgoing head dark and stopped, the countdown loaded, the
incoming motor on at once where the break is no longer than the motor lead. -/
def Screen.breakEntered (r : Screen) (len : Nat) : Screen :=
  let d := r.setHead r.outgoing { r.head r.outgoing with douser := false, motor := false, speedLost := false }
  let d := { d with countdown := some (len * 1000) }
  let d := if len ≤ d.leadSetting then
      d.setHead d.incoming { d.head d.incoming with motor := true, stopAtRunout := false } else d
  { d with phase := .onBreak }

theorem Screen.incoming_countdown (r : Screen) (c : Option Nat) :
    Screen.incoming { r with countdown := c } = r.incoming :=
  rfl

theorem ShowRun.enterBreak_sc (w : ShowRun) (len : Nat) : (w.enterBreak len).sc = w.sc.breakEntered len := by
  simp only [ShowRun.enterBreak, ShowRun.enter_sc, apply_ite ShowRun.sc, ShowRun.tell_sc, ite_self,
    ShowRun.startMotor_sc, ShowRun.mod_sc, ShowRun.motor_sc, ShowRun.douser_sc, Screen.setHead_setHead,
    Screen.head_setHead, Bool.and_false]
  rfl

@[simp] theorem Screen.breakEntered_phase (r : Screen) (len : Nat) : (r.breakEntered len).phase = .onBreak := rfl

@[simp] theorem Screen.breakEntered_reel (r : Screen) (len : Nat) : (r.breakEntered len).reel = r.reel := by
  simp [Screen.breakEntered, apply_ite Screen.reel]

@[simp] theorem Screen.breakEntered_f (r : Screen) (len : Nat) : (r.breakEntered len).f = r.f := by
  simp [Screen.breakEntered, apply_ite Screen.f]

@[simp] theorem Screen.breakEntered_active (r : Screen) (len : Nat) : (r.breakEntered len).active = r.active := by
  simp [Screen.breakEntered, apply_ite Screen.active]

@[simp] theorem Screen.breakEntered_countdown (r : Screen) (len : Nat) :
    (r.breakEntered len).countdown = some (len * 1000) := by
  simp [Screen.breakEntered, apply_ite Screen.countdown]

/-- The outgoing head stands dark and stopped in BREAK. -/
theorem Screen.breakEntered_outgoing (r : Screen) (len : Nat) :
    ((r.breakEntered len).head r.outgoing).motor = false ∧ ((r.breakEntered len).head r.outgoing).douser = false := by
  unfold Screen.breakEntered
  dsimp only
  obtain ⟨hinc, hout⟩ | ⟨hinc, hout⟩ := r.changeover_heads
  all_goals
    rw [hout]
    simp only [Screen.incoming_countdown, Screen.setHead_incoming, hinc]
    split <;> exact ⟨rfl, rfl⟩

/-- The incoming motor is on in BREAK at once where the break is no longer than the motor lead, and as it was
otherwise. -/
theorem Screen.breakEntered_incoming (r : Screen) (len : Nat) : ((r.breakEntered len).head r.incoming).motor =
    if len ≤ r.leadSetting then true else (r.head r.incoming).motor := by
  unfold Screen.breakEntered
  dsimp only
  obtain ⟨hinc, hout⟩ | ⟨hinc, hout⟩ := r.changeover_heads
  all_goals
    rw [hout]
    simp only [Screen.incoming_countdown, Screen.setHead_incoming, hinc]
    rw [Screen.setHead_leadSetting]
    split <;> rfl

/-- A break releases the held orders where the break lead has not done so (R17). -/
theorem ShowRun.enterBreak_releases (w : ShowRun) (len : Nat) (h : w.sc.leadFired = false) :
    .release ∈ (w.enterBreak len).out := by
  unfold ShowRun.enterBreak
  exact ShowRun.mem_enter_out _ _ _ (by simp [h, apply_ite ShowRun.out])

/-- A break sends, last, the notice of BREAK (R17). -/
theorem ShowRun.enterBreak_last (w : ShowRun) (len : Nat) (h : w.sc.phase ≠ .onBreak) :
    (w.enterBreak len).out.getLast? = some (.notice .onBreak) := by
  refine ShowRun.enter_last _ .onBreak _ ?_ .onBreak rfl
  simpa [apply_ite ShowRun.sc, apply_ite Screen.phase] using h

/-! ## A frame pulse -/

/-- A screen after a counted pulse: the frame in reel raised, staying at 65,535, and F raised, wrapping (R5). -/
def Screen.counted (r : Screen) : Screen :=
  { r with frame := if r.frame < 65535 then r.frame + 1 else r.frame, f := r.f + 1 }

theorem ShowRun.pulse_uncounted (w : ShowRun) (h : Head) (hn : ¬(w.sc.phase = .playing ∧ w.sc.isOnScreen h = true)) :
    w.pulse h = w :=
  if_neg hn

theorem ShowRun.pulse_counted (w : ShowRun) (h : Head) (hphase : w.sc.phase = .playing)
    (hon : w.sc.isOnScreen h = true) : w.pulse h =
      ShowRun.fireDue 3 w.sc.counted.frame ((w.mod Screen.counted).tell (.frameEvent w.sc.counted.f)) :=
  if_pos ⟨hphase, hon⟩

end Sys2Proof.Machine
end

section
/-! PROOF. Which frame pulses count, what a counted pulse moves, and the cues and the changeover it fires (R5 to R8,
R14, R16, R17). -/

namespace Sys2Proof.Machine

theorem exec_framePulse (sc : ScreenId) (h : Head) (s : State) :
    exec (.framePulse sc h) s = .next (s.onShow sc fun w => w.pulse h).finish := rfl

/-- A pulse that is not of the on-screen head in PLAYING moves nothing (R6). -/
theorem exec_framePulse_uncounted (s : State) (sc : ScreenId) (h : Head) (hs : s.settled)
    (hn : ¬(s.screens[sc].phase = .playing ∧ s.screens[sc].isOnScreen h = true)) :
    exec (.framePulse sc h) s = .next (s.reported []) := by
  have hshow := State.onShow_reports s sc (fun w => w.pulse h) s.screens[sc] []
    (ShowRun.pulse_uncounted (s.showRun sc) h hn)
  rw [exec_framePulse, hshow, State.withScreen_same, State.finish_raiseAll s [] hs]

section counted

variable (s : State) (sc : ScreenId) (h : Head) (hphase : s.screens[sc].phase = .playing)
  (hon : s.screens[sc].isOnScreen h = true)

/-- A screen's timeline as a counted pulse leaves it when its cues are about to fire: the record moved on and the frame
event told. -/
def State.pulsed (s : State) (sc : ScreenId) : ShowRun :=
  ((s.showRun sc).mod Screen.counted).tell (.frameEvent s.screens[sc].counted.f)

theorem State.pulsed_sc : (s.pulsed sc).sc = s.screens[sc].counted := rfl

theorem State.pulsed_markFired_phase (i : Nat) :
    ((s.pulsed sc).mod fun r => r.markFired i).sc.phase = s.screens[sc].phase := rfl

include hphase hon

theorem pulse_showRun :
    (s.showRun sc).pulse h = ShowRun.fireDue 3 s.screens[sc].counted.frame (s.pulsed sc) :=
  ShowRun.pulse_counted (s.showRun sc) h hphase hon

/-- A counted pulse leaves the screen as the firing of the frame's cues does. -/
theorem exec_framePulse_screen : ∃ t, exec (.framePulse sc h) s = .next t ∧
    t.screens[sc] = (ShowRun.fireDue 3 s.screens[sc].counted.frame (s.pulsed sc)).sc :=
  ⟨_, exec_framePulse sc h s, by rw [State.finish_screens, State.onShow_screen, pulse_showRun s sc h hphase hon]⟩

/-- A counted pulse that beside its frame event tells reports only. -/
theorem exec_framePulse_reports (hs : s.settled) (r : Screen) (rs : List Report) (w : SoundRun)
    (hw : w = SoundRun.frameEvent { id := sc, sd := s.sound[sc], out := [] } (s.screens[sc].f + 1))
    (hfire : ShowRun.fireDue 3 s.screens[sc].counted.frame (s.pulsed sc) =
      { id := sc, sc := r, out := .frameEvent (s.screens[sc].f + 1) :: rs.map Effect.report }) :
    exec (.framePulse sc h) s =
      .next (((s.withScreen sc r).withSound sc w.sd).reported (w.out ++ rs)) := by
  have hshow := State.onShow_frameEvent s sc (fun w => w.pulse h) r _ rs w hw
    ((pulse_showRun s sc h hphase hon).trans hfire)
  rw [exec_framePulse, hshow, State.finish_raiseAll ((s.withScreen sc r).withSound sc w.sd) _ hs]

/-- With no cue due, a counted pulse moves the two counts and sends its frame event (R5). -/
theorem exec_framePulse_no_cue (hs : s.settled) (hdue : s.screens[sc].due s.screens[sc].counted.frame = [])
    (w : SoundRun) (hw : w = SoundRun.frameEvent { id := sc, sd := s.sound[sc], out := [] } (s.screens[sc].f + 1)) :
    exec (.framePulse sc h) s =
      .next (((s.withScreen sc s.screens[sc].counted).withSound sc w.sd).reported w.out) := by
  have hexec := exec_framePulse_reports s sc h hphase hon hs s.screens[sc].counted [] w hw
    (ShowRun.fireDue_nil 2 _ (s.pulsed sc) hdue)
  rwa [List.append_nil] at hexec

/-- The cues due at the new frame, none of them a CHANGEOVER, fire in list order (R5, R8). -/
theorem exec_framePulse_cues (hdue : noChangeover (s.screens[sc].due s.screens[sc].counted.frame)) :
    ∃ t, exec (.framePulse sc h) s = .next t ∧
      t.screens[sc] = s.screens[sc].counted.cuesFired sc s.screens[sc].counted.frame := by
  obtain ⟨t, ht, hscreen⟩ := exec_framePulse_screen s sc h hphase hon
  exact ⟨t, ht, hscreen.trans (ShowRun.fireDue_sc 2 _ (s.pulsed sc) sc hdue)⟩

section changeover

variable (i cueFrame len : Nat)
  (hdue : s.screens[sc].due s.screens[sc].counted.frame = [(i, ⟨.changeover, cueFrame, len⟩)])

omit hphase hon in
include hdue in
theorem fireDue_pulsed : ShowRun.fireDue 3 s.screens[sc].counted.frame (s.pulsed sc) =
    ShowRun.changeover (fun w => ShowRun.fireDue 2 0 w.complete) len ((s.pulsed sc).mod fun r => r.markFired i) :=
  ShowRun.fireDue_changeover 2 _ (s.pulsed sc) [] i cueFrame len hdue fun _ he => absurd he List.not_mem_nil

include hdue

/-- A CHANGEOVER with no break length, the incoming head RUNNING, completes the changeover (R14, R16), and the frame-0
cues of the new reel fire (R7). -/
theorem exec_framePulse_completes (hlen : len = 0)
    (hrun : (s.screens[sc].head s.screens[sc].incoming).state = .running) :
    ∃ t w, exec (.framePulse sc h) s = .next t ∧ w.sc = s.screens[sc].counted.completed ∧
      t.screens[sc] = (ShowRun.fireDue 2 0 w).sc := by
  subst hlen
  obtain ⟨t, ht, hscreen⟩ := exec_framePulse_screen s sc h hphase hon
  have hfire := (fireDue_pulsed s sc i cueFrame 0 hdue).trans
    (ShowRun.changeover_running _ ((s.pulsed sc).mod fun r => r.markFired i) (by
      rw [ShowRun.mod_sc, Screen.markFired_incoming, Screen.markFired_head]
      exact hrun))
  refine ⟨t, _, ht, ?_, hscreen.trans (congrArg ShowRun.sc hfire)⟩
  rw [ShowRun.complete_sc, ShowRun.mod_sc, Screen.completed_markFired, State.pulsed_sc]

/-- A CHANGEOVER with no break length, the incoming head not RUNNING, holds the screen for it (R16). -/
theorem exec_framePulse_holds (hs : s.settled) (hlen : len = 0) (x : HeadRec)
    (hx : x = { s.screens[sc].head s.screens[sc].incoming with motor := true, stopAtRunout := false })
    (hhead : (s.screens[sc].head s.screens[sc].incoming).state ≠ .running) (hrun : x.state ≠ .running) (w : SoundRun)
    (hw : w = SoundRun.frameEvent { id := sc, sd := s.sound[sc], out := [] } (s.screens[sc].f + 1)) :
    exec (.framePulse sc h) s = .next (((s.withScreen sc
      { (s.screens[sc].counted.markFired i).setHead s.screens[sc].incoming x with
        phase := .held, heldHead := some s.screens[sc].incoming, countdown := none }).withSound sc w.sd).reported
      (w.out ++ [.changeoverLate sc s.screens[sc].reel x.state,
        .showState sc .playing .held s.screens[sc].reel .changeover])) := by
  subst hlen
  have hmarked : (((s.pulsed sc).mod fun r => r.markFired i).sc.head
      ((s.pulsed sc).mod fun r => r.markFired i).sc.incoming) = s.screens[sc].head s.screens[sc].incoming :=
    Screen.markFired_head _ _ _
  have hplaying := (s.pulsed_markFired_phase sc i).trans hphase
  have hnot : ((s.pulsed sc).mod fun r => r.markFired i).sc.phase ≠ .held := by rw [hplaying]; decide
  refine exec_framePulse_reports s sc h hphase hon hs _ _ w hw ?_
  rw [fireDue_pulsed s sc i cueFrame 0 hdue,
    ShowRun.changeover_late _ _ x hnot (by rw [hmarked]; exact hx) (by rw [hmarked]; exact hhead) hrun,
    ShowRun.holdForIncoming_eq _ x hnot (by rw [hmarked]; exact hx), hplaying]
  rfl

/-- A CHANGEOVER with a break length takes the screen to BREAK (R17). -/
theorem exec_framePulse_breaks (hlen : 0 < len) : ∃ t, exec (.framePulse sc h) s = .next t ∧
    t.screens[sc] = (s.screens[sc].counted.markFired i).breakEntered len ∧
    (s.screens[sc].leadFired = false → t.yard.held[sc] = []) ∧ t.sound[sc].asked = .onBreak := by
  have hpulse : (s.showRun sc).pulse h = ((s.pulsed sc).mod fun r => r.markFired i).enterBreak len :=
    (pulse_showRun s sc h hphase hon).trans
      ((fireDue_pulsed s sc i cueFrame len hdue).trans (ShowRun.changeover_break _ _ _ hlen))
  have hnot : ((s.pulsed sc).mod fun r => r.markFired i).sc.phase ≠ .onBreak := by
    rw [s.pulsed_markFired_phase, hphase]; decide
  refine ⟨_, exec_framePulse sc h s, ?_, fun hlead => ?_, ?_⟩
  · rw [State.finish_screens, State.onShow_screen, hpulse, ShowRun.enterBreak_sc, ShowRun.mod_sc, State.pulsed_sc]
  · rw [State.finish_yard]
    refine State.onShow_released s sc (fun w => w.pulse h) ?_
    rw [hpulse]
    exact ShowRun.enterBreak_releases _ len hlead
  · rw [State.finish_sound]
    refine State.onShow_asked s sc (fun w => w.pulse h) .onBreak .onBreak ?_ rfl
    rw [hpulse]
    exact ShowRun.enterBreak_last _ len hnot

end changeover

end counted

/-- After a completion a CHANGEOVER with a break length among the frame-0 cues starts the break of the new reel (R7,
R17). -/
theorem ShowRun.fireDue_inBreak (n : Nat) (w : ShowRun) (pre : List (Nat × Cue)) (k long : Nat)
    (hdue : w.sc.due 0 = pre ++ [(k, ⟨.changeover, 0, long⟩)]) (hpre : noChangeover pre) (hlong : 0 < long) :
    (ShowRun.fireDue (n + 1) 0 w).sc.inBreak w.sc.reel long := by
  rw [ShowRun.fireDue_changeover n 0 w pre k 0 long hdue hpre, ShowRun.changeover_break _ _ _ hlong,
    ShowRun.enterBreak_sc]
  refine ⟨Screen.breakEntered_phase _ _, ?_, Screen.breakEntered_countdown _ _⟩
  rw [Screen.breakEntered_reel, ShowRun.mod_sc, Screen.markFired_reel]
  exact (ShowRun.foldl_fireEffect_keeps pre w).2

/-- Settles O18, by the branches of the pulse and, of a CHANGEOVER due, of its break length and the incoming head. -/
theorem framePulseCounts : Obligations.FramePulseCounts := by
  unfold Obligations.FramePulseCounts
  rintro s sc h r n hs rfl rfl
  refine ⟨exec_framePulse_uncounted s sc h hs,
    fun hphase hon => exec_framePulse_no_cue s sc h hphase hon hs, fun hphase hon m hm => ?_⟩
  obtain rfl : m = s.screens[sc].counted := hm
  refine ⟨exec_framePulse_cues s sc h hphase hon, fun i len hdue => ⟨fun hlen hrun => ?_,
    exec_framePulse_holds s sc h hphase hon i _ len hdue hs, fun hlen => ?_⟩⟩
  · obtain ⟨t, w, ht, hw, hscreen⟩ := exec_framePulse_completes s sc h hphase hon i _ len hdue hlen hrun
    refine ⟨fun hquiet => ⟨t, ht, ?_⟩, fun pre k long hpre hnone hlong => ⟨t, ht, ?_⟩⟩
    · rw [hscreen, ShowRun.fireDue_sc 1 0 w sc (by rwa [hw]), hw]
    · have hbreak := ShowRun.fireDue_inBreak 1 w pre k long (by rwa [hw]) hnone hlong
      rw [hw] at hbreak
      rwa [hscreen]
  · obtain ⟨t, ht, hscreen, hheld, hasked⟩ := exec_framePulse_breaks s sc h hphase hon i _ len hdue hlen
    have hout := Screen.breakEntered_outgoing (s.screens[sc].counted.markFired i) len
    have hinc := Screen.breakEntered_incoming (s.screens[sc].counted.markFired i) len
    rw [← hscreen] at hout hinc
    have houth : (s.screens[sc].counted.markFired i).outgoing = h := Screen.outgoing_of_isOnScreen hon
    rw [houth] at hout
    refine ⟨t, ht, ?_, ?_, ?_, ?_, ?_, hout.1, hout.2, hinc, hheld, hasked⟩
    all_goals rw [hscreen]
    · rfl
    · rw [Screen.breakEntered_countdown]
    · rw [Screen.breakEntered_f]; rfl
    · rw [Screen.breakEntered_reel]; rfl
    · rw [Screen.breakEntered_active]; rfl

end Sys2Proof.Machine
end

section
/-! SUPPORT. What the parts of a frame event do to the servo, to the counts and to what is reported, said once: the end
of an underrun gap, a capture, a jump, a rate setting and the lock run (R42 to R46, R52). -/

namespace Sys2Proof.Machine

/-! ## Plain updates of a sound path in a step -/

@[simp] theorem SoundRun.raise_id (w : SoundRun) (r : Report) : (w.raise r).id = w.id := rfl
@[simp] theorem SoundRun.raise_sd (w : SoundRun) (r : Report) : (w.raise r).sd = w.sd := rfl
@[simp] theorem SoundRun.raise_out (w : SoundRun) (r : Report) : (w.raise r).out = w.out ++ [r] := rfl

@[simp] theorem SoundRun.mod_id (w : SoundRun) (g : Sound → Sound) : (w.mod g).id = w.id := rfl
@[simp] theorem SoundRun.mod_sd (w : SoundRun) (g : Sound → Sound) : (w.mod g).sd = g w.sd := rfl
@[simp] theorem SoundRun.mod_out (w : SoundRun) (g : Sound → Sound) : (w.mod g).out = w.out := rfl

@[simp] theorem SoundRun.modServo_id (w : SoundRun) (g : Servo → Servo) : (w.modServo g).id = w.id := rfl
@[simp] theorem SoundRun.modServo_sd (w : SoundRun) (g : Servo → Servo) :
    (w.modServo g).sd = { w.sd with servo := g w.sd.servo } := rfl
@[simp] theorem SoundRun.modServo_out (w : SoundRun) (g : Servo → Servo) : (w.modServo g).out = w.out := rfl

@[simp] theorem SoundRun.endEvent_servo (w : SoundRun) (e : Option Int) : (w.endEvent e).sd.servo =
    { w.sd.servo with error := e, coastGap := some 250, coastLimit := none } := rfl
@[simp] theorem SoundRun.endEvent_jumps (w : SoundRun) (e : Option Int) : (w.endEvent e).sd.jumps = w.sd.jumps := rfl
@[simp] theorem SoundRun.endEvent_out (w : SoundRun) (e : Option Int) : (w.endEvent e).out = w.out := rfl

/-! ## The end of an underrun gap (R52) -/

/-- A sound path with no open gap has none to close. -/
theorem SoundRun.closeGap_none {w : SoundRun} (h : w.sd.servo.gap = none) : w.closeGap = w := by
  simp only [SoundRun.closeGap, h]

/-- An open gap is closed, counted and reported. -/
theorem SoundRun.closeGap_some {w : SoundRun} {start : BitVec 32} {n : Nat} (h : w.sd.servo.gap = some (start, n)) :
    w.closeGap = { w with
      sd := { w.sd with servo := { w.sd.servo with gap := none }, underruns := satInc w.sd.underruns }
      out := w.out ++ [.underrun w.id start n] } := by
  simp only [SoundRun.closeGap, h]
  rfl

@[simp] theorem SoundRun.closeGap_id (w : SoundRun) : w.closeGap.id = w.id := by
  unfold SoundRun.closeGap; split <;> rfl

@[simp] theorem SoundRun.closeGap_jumps (w : SoundRun) : w.closeGap.sd.jumps = w.sd.jumps := by
  unfold SoundRun.closeGap; split <;> rfl

/-- Of the servo only the gap is touched. -/
@[simp] theorem SoundRun.closeGap_servo (w : SoundRun) : w.closeGap.sd.servo = { w.sd.servo with gap := none } := by
  rcases hgap : w.sd.servo.gap with _ | ⟨start, n⟩
  · rw [SoundRun.closeGap_none hgap, ← hgap]
  · rw [SoundRun.closeGap_some hgap]

/-! ## A capture (R43) -/

theorem SoundRun.capture_servo (w : SoundRun) (f : BitVec 32) : (w.capture f).sd.servo =
    { w.sd.servo with
      state := .track, p := w.sd.servo.targetOf f, a := 0, r := 0, lockRun := 0, error := none, gap := none
      coastGap := some 250, coastLimit := none } := by
  simp [SoundRun.capture, Servo.moveTo]

theorem SoundRun.capture_underruns (w : SoundRun) (f : BitVec 32) :
    (w.capture f).sd.underruns = w.closeGap.sd.underruns := rfl

theorem SoundRun.capture_out (w : SoundRun) (f : BitVec 32) : (w.capture f).out =
    w.closeGap.out ++ [.syncCapture w.id w.sd.servo.state (w.sd.servo.targetOf f)] := by
  simp [SoundRun.capture]

/-! ## A jump (R44): one out of LOCKED differs from any other by a report only -/

theorem SoundRun.jump_servo (w : SoundRun) (f : BitVec 32) : (w.jump f).sd.servo =
    { w.sd.servo with
      state := .track, p := w.sd.servo.targetOf f, a := 0, r := 0, lockRun := 0
      error := some (w.sd.servo.errorOf f), gap := none, coastGap := some 250, coastLimit := none } := by
  simp only [SoundRun.jump]
  split <;> simp [Servo.moveTo]

theorem SoundRun.jump_jumps (w : SoundRun) (f : BitVec 32) : (w.jump f).sd.jumps = satInc w.sd.jumps := by
  simp only [SoundRun.jump]
  split <;> simp

theorem SoundRun.jump_underruns (w : SoundRun) (f : BitVec 32) :
    (w.jump f).sd.underruns = w.closeGap.sd.underruns := by
  simp only [SoundRun.jump]
  split <;> rfl

theorem SoundRun.jump_out (w : SoundRun) (f : BitVec 32) : (w.jump f).out =
    w.closeGap.out ++ .syncJump w.id (w.sd.servo.errorOf f) w.sd.servo.state ::
      (if w.sd.servo.state = .locked then [.lockLost w.id (w.sd.servo.errorOf f)] else []) := by
  simp only [SoundRun.jump]
  split <;> simp

/-! ## The lock run (R46) -/

/-- A small error lengthens the run, and in TRACK a full run locks. -/
theorem SoundRun.lockRun_small {w : SoundRun} {e : Int} (h : e.natAbs ≤ 48) : w.lockRun e =
    if w.sd.servo.state = .track ∧ 23 ≤ w.sd.servo.lockRun then
      (w.modServo fun v => { v with state := .locked, lockRun := min (v.lockRun + 1) 24 }).raise (.syncLocked w.id)
    else w.modServo fun v => { v with lockRun := min (v.lockRun + 1) 24 } := by
  have hfull : min (w.sd.servo.lockRun + 1) 24 = 24 ↔ 23 ≤ w.sd.servo.lockRun := by omega
  simp only [SoundRun.lockRun, if_pos h, hfull]
  rfl

/-- A large error ends the run, and the lock with it. -/
theorem SoundRun.lockRun_large {w : SoundRun} {e : Int} (h : ¬e.natAbs ≤ 48) : w.lockRun e =
    if w.sd.servo.state = .locked then
      (w.modServo fun v => { v with state := .track, lockRun := 0 }).raise (.lockLost w.id e)
    else w.modServo fun v => { v with lockRun := 0 } := by
  simp only [SoundRun.lockRun, if_neg h]
  rfl

/-- The servo after the lock-run rule, which is met in TRACK or LOCKED. -/
theorem SoundRun.lockRun_servo (w : SoundRun) (e : Int)
    (hst : w.sd.servo.state = .track ∨ w.sd.servo.state = .locked) : (w.lockRun e).sd.servo =
      { w.sd.servo with
        lockRun := if e.natAbs ≤ 48 then min (w.sd.servo.lockRun + 1) 24 else 0
        state := if e.natAbs ≤ 48 ∧ (w.sd.servo.state = .locked ∨ 23 ≤ w.sd.servo.lockRun) then .locked
          else .track } := by
  by_cases h : e.natAbs ≤ 48
  · rw [SoundRun.lockRun_small h]
    by_cases hn : 23 ≤ w.sd.servo.lockRun <;> rcases hst with hst | hst <;> simp [h, hn, hst]
  · rw [SoundRun.lockRun_large h]
    rcases hst with hst | hst <;> simp [h, hst]

/-- The report of the lock-run rule, which is met in TRACK or LOCKED. -/
theorem SoundRun.lockRun_out (w : SoundRun) (e : Int)
    (hst : w.sd.servo.state = .track ∨ w.sd.servo.state = .locked) : (w.lockRun e).out = w.out ++
      (if e.natAbs ≤ 48 then
        (if w.sd.servo.state ≠ .locked ∧ 23 ≤ w.sd.servo.lockRun then [.syncLocked w.id] else [])
       else if w.sd.servo.state = .locked then [.lockLost w.id e] else []) := by
  by_cases h : e.natAbs ≤ 48
  · rw [SoundRun.lockRun_small h]
    by_cases hn : 23 ≤ w.sd.servo.lockRun <;> rcases hst with hst | hst <;> simp [h, hn, hst]
  · rw [SoundRun.lockRun_large h]
    rcases hst with hst | hst <;> simp [h, hst]

/-! ## A rate setting (R45) -/

/-- A rate setting in TRACK or LOCKED: the rate, the lock run, the end of the event. -/
theorem SoundRun.setRate_tracking {w : SoundRun} (f : BitVec 32)
    (hst : w.sd.servo.state = .track ∨ w.sd.servo.state = .locked) : w.setRate f =
      ((w.modServo fun v => { v with r := v.rateFor (w.sd.servo.errorOf f) }).lockRun
        (w.sd.servo.errorOf f)).endEvent (some (w.sd.servo.errorOf f)) := by
  have hcoast : w.sd.servo.state ≠ .coast := by rcases hst with hst | hst <;> simp [hst]
  simp only [SoundRun.setRate, if_neg hcoast]

/-- A rate setting in COAST goes to TRACK, with its report, before the lock run. -/
theorem SoundRun.setRate_coast {w : SoundRun} (f : BitVec 32) (hst : w.sd.servo.state = .coast) : w.setRate f =
    (((w.modServo fun v => { v with state := .track, r := v.rateFor (w.sd.servo.errorOf f) }).raise
      (.syncTrack w.id (w.sd.servo.errorOf f))).lockRun
        (w.sd.servo.errorOf f)).endEvent (some (w.sd.servo.errorOf f)) := by
  simp only [SoundRun.setRate, if_pos hst]
  rfl

/-- The servo after a rate setting, which is met in TRACK, LOCKED or COAST. -/
theorem SoundRun.setRate_servo (w : SoundRun) (f : BitVec 32)
    (hst : (w.sd.servo.state = .track ∨ w.sd.servo.state = .locked) ∨ w.sd.servo.state = .coast) (e : Int)
    (he : e = w.sd.servo.errorOf f) : (w.setRate f).sd.servo =
      { w.sd.servo with
        r := w.sd.servo.rateFor e
        lockRun := if e.natAbs ≤ 48 then min (w.sd.servo.lockRun + 1) 24 else 0
        state := if e.natAbs ≤ 48 ∧ (w.sd.servo.state = .locked ∨ 23 ≤ w.sd.servo.lockRun) then .locked else .track
        error := some e, coastGap := some 250, coastLimit := none } := by
  subst he
  rcases hst with hst | hst
  · rw [SoundRun.setRate_tracking f hst, SoundRun.endEvent_servo, SoundRun.lockRun_servo]
    · rfl
    · exact hst
  · rw [SoundRun.setRate_coast f hst, SoundRun.endEvent_servo,
      SoundRun.lockRun_servo ((w.modServo _).raise _) _ (.inl rfl)]
    simp [hst]

/-- The reports of a rate setting, which is met in TRACK, LOCKED or COAST. -/
theorem SoundRun.setRate_out (w : SoundRun) (f : BitVec 32)
    (hst : (w.sd.servo.state = .track ∨ w.sd.servo.state = .locked) ∨ w.sd.servo.state = .coast) (e : Int)
    (he : e = w.sd.servo.errorOf f) : (w.setRate f).out =
      w.out ++ (if w.sd.servo.state = .coast then [.syncTrack w.id e] else []) ++
        (if e.natAbs ≤ 48 then
          (if w.sd.servo.state ≠ .locked ∧ 23 ≤ w.sd.servo.lockRun then [.syncLocked w.id] else [])
         else if w.sd.servo.state = .locked then [.lockLost w.id e] else []) := by
  subst he
  rcases hst with hst | hst
  · have hcoast : w.sd.servo.state ≠ .coast := by rcases hst with hst | hst <;> simp [hst]
    rw [SoundRun.setRate_tracking f hst, SoundRun.endEvent_out, SoundRun.lockRun_out, if_neg hcoast,
      List.append_nil]
    · rfl
    · exact hst
  · rw [SoundRun.setRate_coast f hst, SoundRun.endEvent_out,
      SoundRun.lockRun_out ((w.modServo _).raise _) _ (.inl rfl)]
    simp [hst]

/-! ## Which of them a frame event is (R42) -/

theorem SoundRun.frameEvent_discarded {w : SoundRun} (f : BitVec 32) (h : w.sd.source ≠ .programme) :
    w.frameEvent f = w :=
  if_neg h

theorem SoundRun.frameEvent_capture {w : SoundRun} (f : BitVec 32) (h : w.sd.source = .programme)
    (hst : w.sd.servo.state = .silent ∨ w.sd.servo.state = .capture) : w.frameEvent f = w.capture f := by
  rcases hst with hst | hst <;> simp only [SoundRun.frameEvent, if_pos h, hst]

/-- From TRACK, LOCKED and COAST an error beyond the window makes the event a jump, and any other a rate setting. -/
theorem SoundRun.frameEvent_moving {w : SoundRun} (f : BitVec 32) (h : w.sd.source = .programme)
    (hst : (w.sd.servo.state = .track ∨ w.sd.servo.state = .locked) ∨ w.sd.servo.state = .coast) : w.frameEvent f =
      if w.sd.servo.settings.window < (w.sd.servo.errorOf f).natAbs then w.jump f else w.setRate f := by
  rcases hst with (hst | hst) | hst <;> simp only [SoundRun.frameEvent, if_pos h, hst]

end Sys2Proof.Machine
end

section
/-! PROOF. What a frame event acted on does: the capture, the jump and the rate setting (R42 to R46). -/

namespace Sys2Proof.Machine

/-- Settles O29, by the source, the servo's state and the error against the window. -/
theorem frameEventMovesTheServo : Obligations.FrameEventMovesTheServo := by
  unfold Obligations.FrameEventMovesTheServo
  rintro w f t e v rfl ht he
  obtain rfl : t = w.sd.servo.targetOf f := ht
  obtain rfl : e = w.sd.servo.errorOf f := he
  have hmoving (hst : w.sd.servo.state ∈ [ServoState.track, .locked, .coast]) :
      (w.sd.servo.state = .track ∨ w.sd.servo.state = .locked) ∨ w.sd.servo.state = .coast := by
    simpa [or_assoc] using hst
  refine ⟨SoundRun.frameEvent_discarded f, fun hsrc hst u hu => ?capture, fun hsrc hst hwin u hu => ?jump,
    fun hsrc hst hwin u hu => ?rate⟩
  case capture =>
    rw [SoundRun.frameEvent_capture f hsrc (by simpa using hst)] at hu ⊢
    rw [SoundRun.capture_servo] at hu
    subst hu
    refine ⟨rfl, rfl, rfl, rfl, rfl, rfl, rfl, rfl, rfl, fun hgap => ?_, fun start n hgap => ?_⟩
    · rw [SoundRun.capture_out, SoundRun.closeGap_none hgap]
    · simp [SoundRun.capture_underruns, SoundRun.capture_out, SoundRun.closeGap_some hgap]
  case jump =>
    rw [SoundRun.frameEvent_moving f hsrc (hmoving hst), if_pos hwin] at hu ⊢
    rw [SoundRun.jump_servo] at hu
    subst hu
    refine ⟨rfl, rfl, rfl, rfl, rfl, rfl, rfl, rfl, rfl, SoundRun.jump_jumps w f, fun gap hgap => ?_⟩
    rw [SoundRun.jump_out, SoundRun.jump_underruns]
    obtain ⟨hnone, rfl, -⟩ | ⟨start, n, hsome, rfl⟩ := hgap
    · simp [SoundRun.closeGap_none hnone, hnone]
    · simp [SoundRun.closeGap_some hsome]
  case rate =>
    rw [SoundRun.frameEvent_moving f hsrc (hmoving hst), if_neg (Nat.not_lt.mpr hwin)] at hu ⊢
    rw [SoundRun.setRate_servo w f (hmoving hst) _ rfl] at hu
    subst hu
    exact ⟨rfl, rfl, rfl, rfl, rfl, rfl, rfl, rfl, SoundRun.setRate_out w f (hmoving hst) _ rfl⟩

end Sys2Proof.Machine
end

section
/-! PROOFS. The two laws of the yard that every step keeps, the stock law (R137) and the canonical form of the sparse
tables, carried through every operation of the blocks that share the yard: one lemma for each operation. -/

namespace Sys2Proof.Machine

/-- The laws of the yard that every step keeps; and, carried with them through every operation, that the reports raised
so far in a step stand ahead of those that follow. -/
inductive YardLaw where
  | stock | tables
  | raised (reports : List Report)

/-- What a law asks of the yard. -/
def Yard.obeys (y : Yard) : YardLaw → Prop
  | .stock => ∀ e ∈ y.store.menu, ∀ m, e.2.record? = some m → m.balanced
  | .tables => y.loops.toList.all LoopRec.canonical = true ∧ y.store.canonical = true ∧ Tab.wf none y.limits = true ∧
      Tab.wf false y.spkMarks = true ∧ Tab.wf 0 y.rowCounts = true ∧ Tab.wf false y.lampMarks = true
  | .raised reports => reports <+: y.raised

/-- Whether a law binds from one step to the next; the reports raised bind within a step alone. -/
def YardLaw.lasts : YardLaw → Prop
  | .stock => True
  | .tables => True
  | .raised _ => False

/-! ## The tables themselves -/

theorem Tab.mem_put {α : Type} [DecidableEq α] {d : α} {t : Tab α} {i : Nat} {v : α} {e : Nat × α}
    (h : e ∈ Tab.put d t i v) : e ∈ t ∨ e = (i, v) := by
  induction t with
  | nil =>
    unfold Tab.put at h
    split at h <;> simp_all
  | cons a t ih =>
    obtain ⟨k, w⟩ := a
    unfold Tab.put at h
    grind

theorem Tab.get_mem {α : Type} (d : α) (t : Tab α) (i : Nat) : Tab.get d t i = d ∨ (i, Tab.get d t i) ∈ t := by
  induction t with
  | nil => exact .inl rfl
  | cons a t ih =>
    obtain ⟨k, w⟩ := a
    unfold Tab.get
    grind

theorem Tab.mem_mapEntries {α : Type} [DecidableEq α] {d : α} {f : Nat → α → α} {t : Tab α} {e : Nat × α}
    (h : e ∈ Tab.mapEntries d f t) : ∃ a ∈ t, e = (a.1, f a.1 a.2) := by
  simp only [Tab.mapEntries, List.mem_filter, List.mem_map] at h
  obtain ⟨⟨a, ha, rfl⟩, -⟩ := h
  exact ⟨a, ha, rfl⟩

theorem Store.canonical_iff (st : Store) : st.canonical = true ↔
    Tab.wf Slot.blank st.cars = true ∧ Tab.wf Slot.blank st.bays = true ∧ Tab.wf Slot.blank st.orders = true ∧
      Tab.wf Slot.blank st.menu = true ∧ Tab.wf Slot.blank st.tickets = true := by
  simp only [Store.canonical, Bool.and_eq_true, and_assoc]

theorem LoopRec.canonical_iff (l : LoopRec) :
    l.canonical = true ↔ Tab.wf Post.reset l.posts = true ∧ Tab.wf false l.rows = true := by
  simp only [LoopRec.canonical, Bool.and_eq_true]

theorem LoopRec.canonical_setPost {l : LoopRec} (h : l.canonical = true) (p : Nat) (e : Post) :
    (l.setPost p e).canonical = true := by
  rw [LoopRec.canonical_iff] at h ⊢
  exact ⟨Tab.wf_put h.1 p e, h.2⟩

theorem Slot.record_write {ρ : Type} (sl : Slot ρ) (r : ρ) : (sl.write r).record? = some r := rfl
theorem Slot.record_quarantine {ρ : Type} (sl : Slot ρ) : sl.quarantine.record? = none := rfl
theorem Slot.record_release {ρ : Type} (sl : Slot ρ) : sl.release.record? = none := rfl

/-! ## The tally moves keep an item balanced (R137) -/

/-- A move of units between the tallies of an item that keeps them balanced. -/
def balancedMove (f : MenuItem → MenuItem) : Prop :=
  ∀ m, m.balanced → (f m).balanced

theorem MenuItem.balanced_iff (m : MenuItem) : m.balanced ↔
    (m.mode = .finite → m.loaded = m.remaining + m.pending + m.sold + m.waste ∧ m.loaded ≤ 65535) ∧
    (m.mode = .unlimited → m.loaded = 0 ∧ m.remaining = 0 ∧ m.pending ≤ 65535 ∧ m.sold ≤ 65535 ∧ m.waste ≤ 65535) := by
  unfold MenuItem.balanced
  cases m.mode <;> simp

theorem balancedMove_orderMove (k : Nat) : balancedMove (·.orderMove k) := by
  intro m h
  rw [MenuItem.balanced_iff] at h ⊢
  unfold MenuItem.orderMove raiseTally
  cases hm : m.mode <;> simp [hm] at h ⊢ <;> omega

theorem balancedMove_startMove (k : Nat) : balancedMove (·.startMove k) := by
  intro m h
  rw [MenuItem.balanced_iff] at h ⊢
  unfold MenuItem.startMove raiseTally
  cases hm : m.mode <;> simp [hm] at h ⊢ <;> omega

theorem balancedMove_returnMove (k : Nat) : balancedMove (·.returnMove k) := by
  intro m h
  rw [MenuItem.balanced_iff] at h ⊢
  unfold MenuItem.returnMove
  cases hm : m.mode <;> simp [hm] at h ⊢ <;> omega

theorem balancedMove_spoilMove (k : Nat) : balancedMove (·.spoilMove k) := by
  intro m h
  rw [MenuItem.balanced_iff] at h ⊢
  unfold MenuItem.spoilMove raiseTally
  cases hm : m.mode <;> simp [hm] at h ⊢ <;> omega

theorem balancedMove_writeOff (k : Nat) : balancedMove (·.writeOff k) := by
  intro m h
  rw [MenuItem.balanced_iff] at h ⊢
  unfold MenuItem.writeOff
  cases hm : m.mode <;> simp [hm] at h ⊢ <;> omega

theorem balancedMove_closeNight : balancedMove MenuItem.closeNight := by
  intro m h
  rw [MenuItem.balanced_iff] at h ⊢
  unfold MenuItem.closeNight
  cases hm : m.mode <;> simp [hm] at h ⊢ <;> omega

theorem newItem_balanced (st : StationId) (price : Nat) (available : Bool) (mode : StockMode) :
    (newItem st price available mode).balanced := by
  cases mode <;> simp [newItem, MenuItem.balanced]

theorem balancedMove_redefine (st : StationId) (price : Nat) (available : Bool) (mode : StockMode) :
    balancedMove (·.redefine st price available mode) := by
  intro m h
  dsimp only [MenuItem.redefine]
  split
  · exact h
  · exact newItem_balanced ..

section laws
variable {L : YardLaw} {y z : Yard}

/-! ## Single writes -/

theorem Yard.obeys.raise (h : y.obeys L) {r : Report} : (y.raise r).obeys L := by
  cases L with
  | stock => exact h
  | tables => exact h
  | raised => exact h.trans (List.prefix_append _ _)

theorem Yard.obeys.setCarSlot (h : y.obeys L) {i : Nat} {sl : Slot Car} : (y.setCarSlot i sl).obeys L := by
  cases L with
  | stock => exact h
  | raised => exact h
  | tables =>
    obtain ⟨hl, hst, hr⟩ := h
    rw [Store.canonical_iff] at hst
    exact ⟨hl, (Store.canonical_iff _).2 ⟨Tab.wf_put hst.1 i sl, hst.2⟩, hr⟩

theorem Yard.obeys.setBaySlot (h : y.obeys L) {i : Nat} {sl : Slot Bay} : (y.setBaySlot i sl).obeys L := by
  cases L with
  | stock => exact h
  | raised => exact h
  | tables =>
    obtain ⟨hl, hst, hr⟩ := h
    obtain ⟨hc, hb, hst⟩ := (Store.canonical_iff _).1 hst
    exact ⟨hl, (Store.canonical_iff _).2 ⟨hc, Tab.wf_put hb i sl, hst⟩, hr⟩

theorem Yard.obeys.setOrderSlot (h : y.obeys L) {i : Nat} {sl : Slot Order} : (y.setOrderSlot i sl).obeys L := by
  cases L with
  | stock => exact h
  | raised => exact h
  | tables =>
    obtain ⟨hl, hst, hr⟩ := h
    obtain ⟨hc, hb, ho, hst⟩ := (Store.canonical_iff _).1 hst
    exact ⟨hl, (Store.canonical_iff _).2 ⟨hc, hb, Tab.wf_put ho i sl, hst⟩, hr⟩

theorem Yard.obeys.setTicketSlot (h : y.obeys L) {i : Nat} {sl : Slot Ticket} :
    (y.setTicketSlot i sl).obeys L := by
  cases L with
  | stock => exact h
  | raised => exact h
  | tables =>
    obtain ⟨hl, hst, hr⟩ := h
    obtain ⟨hc, hb, ho, hm, ht⟩ := (Store.canonical_iff _).1 hst
    exact ⟨hl, (Store.canonical_iff _).2 ⟨hc, hb, ho, hm, Tab.wf_put ht i sl⟩, hr⟩

theorem Yard.obeys.setMenuSlot (h : y.obeys L) {i : Nat} {sl : Slot MenuItem}
    (hsl : L = .stock → ∀ m, sl.record? = some m → m.balanced) : (y.setMenuSlot i sl).obeys L := by
  cases L with
  | stock =>
    intro e he m hm
    rcases Tab.mem_put he with he | rfl
    · exact h e he m hm
    · exact hsl rfl m hm
  | raised => exact h
  | tables =>
    obtain ⟨hl, hst, hr⟩ := h
    obtain ⟨hc, hb, ho, hm, ht⟩ := (Store.canonical_iff _).1 hst
    exact ⟨hl, (Store.canonical_iff _).2 ⟨hc, hb, ho, Tab.wf_put hm i sl, ht⟩, hr⟩

theorem Yard.obeys.modLoop (h : y.obeys L) {lp : ScreenId} {f : LoopRec → LoopRec}
    (hf : (y.loops[lp]).canonical = true → (f y.loops[lp]).canonical = true) : (y.modLoop lp f).obeys L := by
  cases L with
  | stock => exact h
  | raised => exact h
  | tables =>
    obtain ⟨hl, hr⟩ := h
    refine ⟨?_, hr⟩
    rw [List.all_eq_true] at hl ⊢
    intro l hmem
    simp only [Yard.modLoop, Vector.mem_toList_iff] at hmem
    rcases Vector.mem_or_eq_of_mem_set hmem with hmem | rfl
    · exact hl l (Vector.mem_toList_iff.2 hmem)
    · exact hf (hl _ (Vector.mem_toList_iff.2 (Vector.getElem_mem _)))

theorem Yard.obeys.setSpkMark (h : y.obeys L) {b : Nat} {m : Bool} : (y.setSpkMark b m).obeys L := by
  cases L with
  | stock => exact h
  | raised => exact h
  | tables =>
    obtain ⟨hl, hst, hli, hs, hr⟩ := h
    exact ⟨hl, hst, hli, Tab.wf_put hs b m, hr⟩

theorem Yard.obeys.setLampMark (h : y.obeys L) {b : Nat} {m : Bool} : (y.setLampMark b m).obeys L := by
  cases L with
  | stock => exact h
  | raised => exact h
  | tables =>
    obtain ⟨hl, hst, hli, hs, hr, hm⟩ := h
    exact ⟨hl, hst, hli, hs, hr, Tab.wf_put hm b m⟩

theorem Yard.obeys.startLimit (h : y.obeys L) {n : Nat} : (y.startLimit n).obeys L := by
  cases L with
  | stock => exact h
  | raised => exact h
  | tables =>
    obtain ⟨hl, hst, hli, hr⟩ := h
    exact ⟨hl, hst, Tab.wf_put hli n _, hr⟩

theorem Yard.obeys.stopLimit (h : y.obeys L) {n : Nat} : (y.stopLimit n).obeys L := by
  cases L with
  | stock => exact h
  | raised => exact h
  | tables =>
    obtain ⟨hl, hst, hli, hr⟩ := h
    exact ⟨hl, hst, Tab.wf_put hli n _, hr⟩

/-- The row counts may become any table in canonical form. -/
theorem Yard.obeys.withRowCounts (h : y.obeys L) {t : Tab Nat} (ht : Tab.wf 0 y.rowCounts = true → Tab.wf 0 t = true) :
    ({ y with rowCounts := t } : Yard).obeys L := by
  cases L with
  | stock => exact h
  | raised => exact h
  | tables =>
    obtain ⟨hl, hst, hli, hs, hr, hm⟩ := h
    exact ⟨hl, hst, hli, hs, ht hr, hm⟩

theorem Yard.obeys.setRunner (h : y.obeys L) {r : RunnerId} {k : Runner} : (y.setRunner r k).obeys L := by
  cases L <;> exact h
theorem Yard.obeys.setAdmitted (h : y.obeys L) {sc : ScreenId} {n : Nat} : (y.setAdmitted sc n).obeys L := by
  cases L <;> exact h
theorem Yard.obeys.setTest (h : y.obeys L) {t : Option TestRun} : (y.setTest t).obeys L := by
  cases L <;> exact h
theorem Yard.obeys.dequeueOrder (h : y.obeys L) {n : Nat} : (y.dequeueOrder n).obeys L := by cases L <;> exact h
theorem Yard.obeys.unhold (h : y.obeys L) {n : Nat} : (y.unhold n).obeys L := by cases L <;> exact h
theorem Yard.obeys.hold (h : y.obeys L) {sc : ScreenId} {e : HeldEntry} : (y.hold sc e).obeys L := by
  cases L <;> exact h
theorem Yard.obeys.enqueue (h : y.obeys L) {st : StationId} {r : LineRef} : (y.enqueue st r).obeys L := by
  cases L <;> exact h
theorem Yard.obeys.dequeue (h : y.obeys L) {st : StationId} {o l : Nat} : (y.dequeue st o l).obeys L := by
  cases L <;> exact h
theorem Yard.obeys.markRef (h : y.obeys L) {st : StationId} {o l : Nat} {x : LineState} :
    (y.markRef st o l x).obeys L := by cases L <;> exact h
/-- The ready list is bound by neither law. -/
theorem Yard.obeys.withReadyList (h : y.obeys L) {l : List ReadyEntry} :
    ({ y with readyList := l } : Yard).obeys L := by cases L <;> exact h
theorem Yard.obeys.withLastOrder (h : y.obeys L) {n : Nat} : ({ y with lastOrder := n } : Yard).obeys L := by
  cases L <;> exact h
theorem Yard.obeys.withLastCar (h : y.obeys L) {n : Nat} : ({ y with lastCar := n } : Yard).obeys L := by
  cases L <;> exact h
theorem Yard.obeys.parityFault (h : y.obeys L) {t : TableId} {i : Nat} {k : Key} {hv : Halves} :
    (y.parityFault t i k hv).obeys L := by
  refine Yard.obeys.raise ?_
  cases L <;> exact h

/-- A fold keeps a law that each of its steps keeps. -/
theorem Yard.obeys.foldl {α : Type} (h : y.obeys L) {f : Yard → α → Yard}
    (hf : ∀ y a, Yard.obeys y L → (f y a).obeys L) {as : List α} : (as.foldl f y).obeys L := by
  induction as generalizing y with
  | nil => exact h
  | cons a as ih => exact ih (hf y a h)

/-! ## Writes and frees of records, and reads (R190, R191) -/

theorem Yard.obeys.modCar (h : y.obeys L) {n : Nat} {f : Car → Car} : (y.modCar n f).obeys L := by
  unfold Yard.modCar
  split
  · exact h.setCarSlot
  · exact h
theorem Yard.obeys.modOrder (h : y.obeys L) {n : Nat} {f : Order → Order} : (y.modOrder n f).obeys L := by
  unfold Yard.modOrder
  split
  · exact h.setOrderSlot
  · exact h
theorem Yard.obeys.modBay (h : y.obeys L) {n : Nat} {f : Bay → Bay} : (y.modBay n f).obeys L := by
  unfold Yard.modBay
  split
  · exact h.setBaySlot
  · exact h
theorem Yard.obeys.freeCar (h : y.obeys L) {n : Nat} : (y.freeCar n).obeys L := by
  unfold Yard.freeCar
  split
  · exact h.setCarSlot
  · exact h
theorem Yard.obeys.freeOrder (h : y.obeys L) {n : Nat} : (y.freeOrder n).obeys L := by
  unfold Yard.freeOrder
  split
  · exact h.setOrderSlot
  · exact h
theorem Yard.obeys.freeTicket (h : y.obeys L) {n : Nat} : (y.freeTicket n).obeys L := by
  unfold Yard.freeTicket
  split
  · exact h.setTicketSlot
  · exact h

theorem Yard.balanced_of_item (h : y.obeys .stock) {i : Nat} {m : MenuItem} (hm : y.item? i = some m) :
    m.balanced := by
  unfold Yard.item? Yard.menuSlot at hm
  rcases Tab.get_mem Slot.blank y.store.menu i with hd | hmem
  · rw [hd] at hm
    cases hm
  · exact h _ hmem m hm

theorem Yard.obeys.modItem (h : y.obeys L) {i : Nat} {f : MenuItem → MenuItem}
    (hf : ∀ m, y.item? i = some m → m.balanced → (f m).balanced) : (y.modItem i f).obeys L := by
  unfold Yard.modItem
  split
  · next m hm =>
    refine h.setMenuSlot fun hL x hx => ?_
    subst hL
    obtain rfl : f m = x := Option.some.inj hx
    exact hf m hm (Yard.balanced_of_item h hm)
  · exact h

/-- A way of settling lost records, as a read is given it, that keeps the law. -/
def YardLaw.keptBy (L : YardLaw) (settle : Yard → Yard) : Prop :=
  ∀ y : Yard, y.obeys L → (settle y).obeys L

theorem YardLaw.keptBy_id : L.keptBy id := fun _ h => h

section reads
variable {settle : Yard → Yard}

theorem Yard.obeys.readCarSlot (h : y.obeys L) (hs : L.keptBy settle) {i : Nat} :
    (y.readCarSlot settle i).2.obeys L := by
  unfold Yard.readCarSlot
  split
  · exact h
  · exact h
  · exact hs _ h.setCarSlot.parityFault
theorem Yard.obeys.readBay (h : y.obeys L) (hs : L.keptBy settle) {i : Nat} : (y.readBay settle i).2.obeys L := by
  unfold Yard.readBay
  split
  · exact h
  · exact h
  · exact hs _ h.setBaySlot.parityFault
theorem Yard.obeys.readOrderSlot (h : y.obeys L) (hs : L.keptBy settle) {i : Nat} :
    (y.readOrderSlot settle i).2.obeys L := by
  unfold Yard.readOrderSlot
  split
  · exact h
  · exact h
  · exact hs _ h.setOrderSlot.parityFault
theorem Yard.obeys.readTicketSlot (h : y.obeys L) (hs : L.keptBy settle) {i : Nat} :
    (y.readTicketSlot settle i).2.obeys L := by
  unfold Yard.readTicketSlot
  split
  · exact h
  · exact h
  · exact hs _ h.setTicketSlot.parityFault
theorem Yard.obeys.readItem (h : y.obeys L) (hs : L.keptBy settle) {i : Nat} : (y.readItem settle i).2.obeys L := by
  unfold Yard.readItem
  split
  · exact h
  · exact h
  · exact hs _ (h.setMenuSlot fun _ m hm => by rw [Slot.record_quarantine] at hm; cases hm).parityFault
theorem Yard.obeys.readCar (h : y.obeys L) (hs : L.keptBy settle) {n : Nat} : (y.readCar settle n).2.obeys L := by
  unfold Yard.readCar
  split
  · exact h.readCarSlot hs
  · exact h
theorem Yard.obeys.readOrder (h : y.obeys L) (hs : L.keptBy settle) {n : Nat} : (y.readOrder settle n).2.obeys L := by
  unfold Yard.readOrder
  split
  · exact h.readOrderSlot hs
  · exact h
theorem Yard.obeys.readTicket (h : y.obeys L) (hs : L.keptBy settle) {n : Nat} :
    (y.readTicket settle n).2.obeys L := by
  unfold Yard.readTicket
  split
  · exact h.readTicketSlot hs
  · exact h
theorem Yard.obeys.searchCars (h : y.obeys L) (hs : L.keptBy settle) {q : Car → Bool} {is : List Nat} :
    (Yard.searchCars settle q is y).2.2.obeys L := by
  fun_induction Yard.searchCars settle q is y <;> grind [Yard.obeys.readCarSlot]

end reads

/-! ## Outbound slots, speakers and lamps (R75, R76, R128, R156) -/

theorem Yard.obeys.completeUndelivered (h : y.obeys L) {lp : ScreenId} {i : Fin 16} :
    (y.completeUndelivered lp i).obeys L := by
  unfold Yard.completeUndelivered
  exact (h.modLoop fun hl => hl).raise

theorem LoopRec.canonical_mergeSide {l : LoopRec} (h : l.canonical = true) (it : Item) (side1 : Bool) :
    (l.mergeSide it side1).2.canonical = true := by
  unfold LoopRec.mergeSide
  split
  · exact h
  · split <;> exact h

theorem Yard.obeys.putItem (h : y.obeys L) {lp : ScreenId} {it : Item} : (y.putItem lp it).2.obeys L := by
  unfold Yard.putItem
  split
  · dsimp only
    split
    · exact (h.modLoop fun hl => hl).completeUndelivered
    · exact h.modLoop fun hl => hl
  · exact h.modLoop fun hl => LoopRec.canonical_mergeSide (LoopRec.canonical_mergeSide hl _ _) _ _

theorem Yard.obeys.placeLamp (h : y.obeys L) {o : Origin} {bay v : Nat} : (y.placeLamp o bay v).2.obeys L :=
  h.putItem

theorem Yard.obeys.placePassing (h : y.obeys L) {bay v : Nat} : (y.placePassing bay v).obeys L := by
  have hp := h.placeLamp (o := .oe) (bay := bay) (v := v)
  unfold Yard.placePassing
  split
  · grind
  · grind [Yard.obeys.setLampMark]

theorem Yard.obeys.placeRestingNow (h : y.obeys L) {bay : Nat} {occupant : Option Nat} :
    (y.placeRestingNow bay occupant).obeys L :=
  h.placeLamp.setLampMark

theorem Yard.obeys.markBays (h : y.obeys L) {bays : List Nat} : (y.markBays bays).obeys L :=
  h.foldl fun _ _ h => h.setSpkMark.setLampMark

theorem Yard.obeys.ite_setSpkMark (h : y.obeys L) {c : Bool} {b : Nat} {m : Bool} :
    (if c then y.setSpkMark b m else y).obeys L := by
  cases c
  · exact h
  · exact h.setSpkMark

theorem Yard.obeys.ite_setLampMark (h : y.obeys L) {c : Bool} {b : Nat} {m : Bool} :
    (if c then y.setLampMark b m else y).obeys L := by
  cases c
  · exact h
  · exact h.setLampMark

section placing
variable {settle : Yard → Yard}

theorem Yard.obeys.readMarked (h : y.obeys L) (hs : L.keptBy settle) {marked : Yard → Nat → Bool} {b : Nat} :
    (y.readMarked marked settle b).2.obeys L := by
  unfold Yard.readMarked
  split
  · exact h.readBay hs
  · exact h

theorem Yard.obeys.placeSpeakersAt (h : y.obeys L) (hs : L.keptBy settle) {lp : ScreenId} {p : Nat} :
    (y.placeSpeakersAt settle lp p).obeys L := by
  unfold Yard.placeSpeakersAt
  extract_lets b0 b1 r0 r1 w m0 m1
  have hw : w.obeys L := (h.readMarked hs).readMarked hs
  split
  · exact (hw.putItem.ite_setSpkMark).ite_setSpkMark
  · exact hw

theorem Yard.obeys.placeLampsAt (h : y.obeys L) (hs : L.keptBy settle) {lp : ScreenId} {p : Nat} :
    (y.placeLampsAt settle lp p).obeys L := by
  unfold Yard.placeLampsAt
  extract_lets b0 b1 r0 r1 w m0 m1
  have hw : w.obeys L := (h.readMarked hs).readMarked hs
  split
  · exact (hw.putItem.ite_setLampMark).ite_setLampMark
  · exact hw

theorem Yard.obeys.placeSpeakersOf (h : y.obeys L) (hs : L.keptBy settle) {bays : List Nat} :
    (y.placeSpeakersOf settle bays).obeys L :=
  h.foldl fun _ _ h => h.placeSpeakersAt hs

theorem Yard.obeys.placeAllSpeakers (h : y.obeys L) (hs : L.keptBy settle) {lp : ScreenId} :
    (y.placeAllSpeakers settle lp).obeys L :=
  h.foldl fun _ _ h => h.placeSpeakersAt hs

theorem Yard.obeys.placeAllLamps (h : y.obeys L) (hs : L.keptBy settle) {lp : ScreenId} :
    (y.placeAllLamps settle lp).obeys L :=
  h.foldl fun _ _ h => h.placeLampsAt hs

theorem Yard.obeys.markLamp (h : y.obeys L) (hs : L.keptBy settle) {bay : Nat} : (y.markLamp settle bay).obeys L :=
  h.setLampMark.placeLampsAt hs

theorem Yard.obeys.resendPost (h : y.obeys L) (hs : L.keptBy settle) {lp : ScreenId} {p : Nat} :
    (y.resendPost settle lp p).obeys L := by
  unfold Yard.resendPost
  exact (h.markBays.placeSpeakersAt hs).placeLampsAt hs

theorem Yard.obeys.resendLoop (h : y.obeys L) (hs : L.keptBy settle) {lp : ScreenId} :
    (y.resendLoop settle lp).obeys L := by
  unfold Yard.resendLoop
  exact (h.markBays.placeAllSpeakers hs).placeAllLamps hs

theorem Yard.obeys.resendOverflow (h : y.obeys L) (hs : L.keptBy settle) {lp : ScreenId} :
    (y.resendOverflow settle lp).obeys L := by
  unfold Yard.resendOverflow
  exact (h.placeAllSpeakers hs).placeAllLamps hs

theorem Yard.obeys.afterFree (h : y.obeys L) (hs : L.keptBy settle) {lp : ScreenId} :
    (y.afterFree settle lp).obeys L := by
  unfold Yard.afterFree
  split
  · exact (h.modLoop fun hl => hl).resendOverflow hs
  · exact h

end placing

/-! ## The ready list and unbinding (R127, R167 to R171) -/

theorem Yard.obeys.rowUp (h : y.obeys L) {row : Option Nat} : (y.rowUp row).obeys L := by
  cases row with
  | none => exact h
  | some r => exact h.withRowCounts fun hr => Tab.wf_put hr r _

theorem Yard.obeys.rowDown (h : y.obeys L) {row : Option Nat} : (y.rowDown row).obeys L := by
  cases row with
  | none => exact h
  | some r => exact h.withRowCounts fun hr => Tab.wf_put hr r _

theorem Yard.obeys.leaveReady (h : y.obeys L) {n : Nat} : (y.leaveReady n).obeys L := by
  unfold Yard.leaveReady
  split
  · exact h.withReadyList.rowDown
  · exact h
theorem Yard.obeys.joinTail (h : y.obeys L) {e : ReadyEntry} : (y.joinTail e).obeys L := h.withReadyList.rowUp
theorem Yard.obeys.joinHead (h : y.obeys L) {e : ReadyEntry} : (y.joinHead e).obeys L := h.withReadyList.rowUp

theorem Yard.obeys.recount (h : y.obeys L) : y.recount.obeys L := by
  refine h.withRowCounts fun _ => ?_
  refine List.foldlRecOn (motive := fun t : Tab Nat => Tab.wf 0 t = true) _ _ rfl fun t ht e _ => ?_
  cases e.row with
  | none => exact ht
  | some r => exact Tab.wf_put ht r _

theorem Yard.obeys.bindChange (h : y.obeys L) {car : Nat} {bay : Option Nat} : (y.bindChange car bay).2.obeys L :=
  (h.foldl fun _ _ h => h.rowDown.rowUp).withReadyList

theorem Yard.obeys.setSpeaker (h : y.obeys L) {bay : Nat} {on : Bool} : (y.setSpeaker bay on).obeys L := by
  unfold Yard.setSpeaker
  split
  · dsimp only
    split
    · exact h.modBay.setSpkMark
    · exact h.modBay
  · exact h

theorem Yard.obeys.release (h : y.obeys L) {car bay : Nat} : (y.release car bay).obeys L :=
  h.modBay.setSpeaker.modCar.placeLamp.bindChange
theorem Yard.obeys.unbindToField (h : y.obeys L) {car bay : Nat} {cause : CarCause} :
    (y.unbindToField car bay cause).obeys L :=
  h.release.modCar.startLimit.raise
theorem Yard.obeys.checkCapacity (h : y.obeys L) {sc : ScreenId} : (y.checkCapacity sc).obeys L := by
  unfold Yard.checkCapacity
  dsimp only
  split
  · refine Yard.obeys.raise ?_
    cases L <;> exact h
  · exact h

/-! ## Lost records (R133, R187, R192 to R195) -/

theorem Yard.obeys.emptyLostBay (h : y.obeys L) {car bay : Nat} : (Yard.emptyLostBay car y bay).obeys L :=
  h.modBay.setSpeaker.placeLamp.bindChange

theorem Yard.obeys.emptyBaysOf (h : y.obeys L) {car : Nat} {bs : List Nat} :
    (Yard.emptyBaysOf car bs y).2.obeys L := by
  fun_induction Yard.emptyBaysOf car bs y <;>
    grind [Yard.obeys.readBay, YardLaw.keptBy_id, Yard.obeys.emptyLostBay]

theorem Yard.obeys.carLost (h : y.obeys L) {car : Nat} : (y.carLost car).obeys L :=
  (h.emptyBaysOf.stopLimit.raise).placeSpeakersOf YardLaw.keptBy_id

theorem Yard.obeys.bayLost (h : y.obeys L) {bay : Nat} : (y.bayLost bay).obeys L := by
  have hsr := h.searchCars YardLaw.keptBy_id (q := fun c => decide (c.bay = some bay)) (is := y.carSlotsInUse)
  unfold Yard.bayLost
  refine ((Yard.obeys.setSpkMark ?_).placeSpeakersOf YardLaw.keptBy_id).checkCapacity
  split
  · grind [Yard.obeys.unbindToField]
  · grind

theorem Yard.obeys.takeLost (h : y.obeys L) {n : Nat} : (y.takeLost n).obeys L := by
  unfold Yard.takeLost
  split
  · exact h.setRunner.raise
  · exact h

theorem Yard.obeys.orderLost (h : y.obeys L) {order car : Nat} : (y.orderLost order car).obeys L := by
  unfold Yard.orderLost
  extract_lets u v w
  have hv : v.obeys L := by
    dsimp only [v]
    split
    · exact h.unhold.dequeueOrder.leaveReady.recount
    · exact h.unhold.dequeueOrder
  have hr := hv.takeLost (n := order) |>.readCar YardLaw.keptBy_id (n := car)
  split
  · split <;> grind [Yard.obeys.markLamp, Yard.obeys.modCar, YardLaw.keptBy_id]
  · grind

theorem Yard.obeys.handleLost (h : y.obeys L) {t : TableId} {k : Key} : (y.handleLost t k).obeys L := by
  cases t with
  | car => exact h.carLost
  | bay => exact h.bayLost
  | order => exact h.orderLost
  | menu => exact h
  | ticket => exact h

theorem Yard.obeys.drainWithin (h : y.obeys L) {n : Nat} : (Yard.drainWithin n y).obeys L := by
  induction n generalizing y with
  | zero => exact h
  | succ n ih =>
    unfold Yard.drainWithin
    split
    · exact h
    · next rest _ =>
      have hw : ({ y with store := { y.store with waiting := rest } } : Yard).obeys L := by cases L <;> exact h
      exact ih hw.handleLost

theorem YardLaw.keptBy_drain : L.keptBy Yard.drain := fun _ h => h.drainWithin

end laws

end Sys2Proof.Machine
end

section
/-! PROOFS. The operations of the Order Engine, the Car Table and the Loop Poller keep the laws of the yard. -/

namespace Sys2Proof.Machine

section laws
variable {L : YardLaw} {y z : Yard}

/-! ## Reads that settle lost records (R192) -/

theorem Yard.obeys.readCarD (h : y.obeys L) {n : Nat} : (y.readCar Yard.drain n).2.obeys L :=
  h.readCar YardLaw.keptBy_drain
theorem Yard.obeys.readBayD (h : y.obeys L) {n : Nat} : (y.readBay Yard.drain n).2.obeys L :=
  h.readBay YardLaw.keptBy_drain
theorem Yard.obeys.readOrderD (h : y.obeys L) {n : Nat} : (y.readOrder Yard.drain n).2.obeys L :=
  h.readOrder YardLaw.keptBy_drain
theorem Yard.obeys.readItemD (h : y.obeys L) {n : Nat} : (y.readItem Yard.drain n).2.obeys L :=
  h.readItem YardLaw.keptBy_drain
theorem Yard.obeys.afterFreeD (h : y.obeys L) {lp : ScreenId} : (y.afterFree Yard.drain lp).obeys L :=
  h.afterFree YardLaw.keptBy_drain

theorem Yard.obeys.ite {c : Prop} [Decidable c] {a b : Yard} (ha : a.obeys L) (hb : b.obeys L) :
    (if c then a else b).obeys L := by
  split
  · exact ha
  · exact hb

/-! ## The Order Engine (R143 to R155, R172) -/

theorem Yard.obeys.moveTally (h : y.obeys L) {f : MenuItem → MenuItem} (hf : balancedMove f) {i : Nat} :
    (y.moveTally f i).2.obeys L := by
  have hr := h.readItemD (n := i)
  unfold Yard.moveTally
  split
  · next heq =>
    rw [heq] at hr
    exact hr.modItem fun m _ => hf m
  · grind

theorem Yard.obeys.moveLines (h : y.obeys L) {move : Nat → MenuItem → MenuItem} (hf : ∀ n, balancedMove (move n))
    {ls : List Line} : (Yard.moveLines move y ls).2.obeys L := by
  induction ls generalizing y with
  | nil => exact h
  | cons l ls ih => exact ih (h.moveTally (hf l.qty))

theorem Yard.obeys.settleLines (h : y.obeys L) {ls : List Line} : (y.settleLines ls).2.obeys L :=
  (h.moveLines balancedMove_returnMove).moveLines balancedMove_spoilMove

theorem Yard.obeys.enqueueLines (h : y.obeys L) {n : Nat} {ls : List Line} {sts : List StationId} :
    (y.enqueueLines n ls sts).obeys L :=
  h.foldl fun _ _ h => h.enqueue

theorem Yard.obeys.releaseOne (h : y.obeys L) {e : HeldEntry} : (y.releaseOne e).obeys L := by
  have hr := h.readOrderD (n := e.order)
  unfold Yard.releaseOne
  split
  · next heq =>
    rw [heq] at hr
    exact hr.unhold.modOrder.enqueueLines
  · grind [Yard.obeys.unhold]

theorem Yard.obeys.releaseHeld (h : y.obeys L) {sc : ScreenId} : (y.releaseHeld sc).2.obeys L := by
  unfold Yard.releaseHeld
  split
  · exact h
  · refine Yard.obeys.raise ?_
    refine List.foldlRecOn (motive := fun a : Nat × Yard => a.2.obeys L) _ _ h fun a ha e _ => ?_
    exact ha.releaseOne

theorem Yard.obeys.dropOpenOrder (h : y.obeys L) {car order : Nat} : (y.dropOpenOrder car order).obeys L := h.modCar

theorem Yard.obeys.leaveLists (h : y.obeys L) {order : Nat} : (y.leaveLists order).obeys L :=
  h.unhold.dequeueOrder.leaveReady

theorem Yard.obeys.cancelOrder (h : y.obeys L) {o : Order} {cause : CancelCause} :
    (y.cancelOrder o cause).obeys L := by
  unfold Yard.cancelOrder
  extract_lets w
  have hw : w.obeys L := h.leaveLists.settleLines
  have hr := hw.readCarD (n := o.car)
  refine (Yard.obeys.freeOrder ?_).raise
  refine hw.ite ?_
  split
  · grind [Yard.obeys.dropOpenOrder]
  · grind

theorem Yard.obeys.voidOrder (h : y.obeys L) {o : Order} {cause : VoidCause} : (y.voidOrder o cause).obeys L :=
  h.leaveLists.settleLines.freeOrder.raise

theorem Yard.obeys.settleGone (h : y.obeys L) {o : Order} {cause : VoidCause} : (y.settleGone o cause).obeys L :=
  h.cancelOrder.ite h.voidOrder

theorem Yard.obeys.departedOrder (h : y.obeys L) {order : Nat} : (y.departedOrder order).obeys L := by
  have hr := h.readOrderD (n := order)
  unfold Yard.departedOrder
  split
  · next heq =>
    rw [heq] at hr
    exact hr.modOrder.ite hr.settleGone
  · grind

theorem Yard.obeys.readItems (h : y.obeys L) {is : List Nat} : (y.readItems is).2.obeys L := by
  induction is generalizing y with
  | nil => exact h
  | cons i is ih => exact ih h.readItemD

theorem Yard.obeys.readOccupant (h : y.obeys L) {bay : Nat} : (y.readOccupant bay).2.obeys L := by
  have hr := h.readBayD (n := bay)
  unfold Yard.readOccupant
  split
  · split <;> grind [Yard.obeys.readCarD]
  · grind

theorem Yard.obeys.orderMoves (h : y.obeys L) {ls : List WireLine} : (y.orderMoves ls).obeys L := by
  refine h.foldl fun y l h => ?_
  split
  · next m hm =>
    have hmod : (y.modItem l.item fun _ => m.orderMove l.qty).obeys L := h.modItem fun x hx hb => by
      rw [hm] at hx
      obtain rfl := Option.some.inj hx
      exact balancedMove_orderMove _ _ hb
    exact hmod.raise.ite hmod
  · exact h

theorem Yard.obeys.acceptOrder (h : y.obeys L) {site : Site} {bay slot : Nat} {c : Car}
    {items : List (Nat × Read MenuItem)} {mode : OrderMode} {lines : List WireLine} {source : OrderSource} :
    (y.acceptOrder site bay slot c items mode lines source).2.obeys L := by
  unfold Yard.acceptOrder
  extract_lets n total first o u v w
  have hv : v.obeys L := h.withLastOrder.setOrderSlot.orderMoves.modCar
  exact (hv.hold.ite hv.enqueueLines).raise

theorem Yard.obeys.intake (h : y.obeys L) {site : Site} {bay : Nat} {mode : OrderMode} {lines : List WireLine}
    {source : OrderSource} : (y.intake site bay mode lines source).2.obeys L := by
  have hr := (h.readOccupant (bay := bay)).readItems (is := itemsOf lines)
  unfold Yard.intake
  dsimp only
  split
  · exact hr
  · exact hr.acceptOrder
  · exact hr

theorem Yard.obeys.postOrder (h : y.obeys L) {site : Site} {bay : Nat} {mode : OrderMode} {lines : List WireLine} :
    (y.postOrder site bay mode lines).obeys L := by
  have hi := h.intake (site := site) (bay := bay) (mode := mode) (lines := lines) (source := .post)
  unfold Yard.postOrder
  split
  · grind [Yard.obeys.placePassing]
  · grind [Yard.obeys.placePassing, Yard.obeys.raise]

theorem Yard.obeys.readLineItems (h : y.obeys L) {o : Read Order} : (y.readLineItems o).2.obeys L := by
  cases o with
  | whole o => exact h.readItems
  | absent => exact h
  | fault => exact h

theorem Yard.obeys.postCancel (h : y.obeys L) {site : Site} {bay order : Nat} :
    (y.postCancel site bay order).obeys L := by
  unfold Yard.postCancel
  dsimp only
  have hr := ((h.readOccupant (bay := bay)).readOrderD (n := order)).readLineItems
    (o := ((y.readOccupant bay).2.readOrder Yard.drain order).1)
  split
  · exact hr.cancelOrder.placeRestingNow
  · exact hr.placePassing.raise
  · exact hr

/-! ## The Car Table (R118 to R133) -/

theorem Yard.obeys.createCar (h : y.obeys L) {slot ticket : Nat} {cls : TicketClass} {sc : ScreenId} {ln : LaneId}
    {minute : Nat} : (y.createCar slot ticket cls sc ln minute).2.obeys L :=
  h.withLastCar.setCarSlot.setAdmitted

theorem Yard.obeys.removeEntering (h : y.obeys L) {car : Nat} {sc : ScreenId} : (y.removeEntering car sc).obeys L := by
  have hr := h.readCarD (n := car)
  unfold Yard.removeEntering
  split
  · next heq =>
    rw [heq] at hr
    exact hr.freeCar.setAdmitted.ite hr
  · grind

theorem Yard.obeys.crossEntry (h : y.obeys L) {car : Nat} : (y.crossEntry car).2.obeys L := by
  have hr := h.readCarD (n := car)
  unfold Yard.crossEntry
  split
  · next heq =>
    rw [heq] at hr
    exact hr.modCar.startLimit.ite hr
  · grind

theorem Yard.obeys.returnCar (h : y.obeys L) {car : Nat} : (y.returnCar car).obeys L := by
  have hr := h.readCarD (n := car)
  unfold Yard.returnCar
  split
  · next heq =>
    rw [heq] at hr
    exact hr.modCar.startLimit.raise.ite hr
  · grind

theorem Yard.obeys.makeLeaving (h : y.obeys L) {c : Car} : (y.makeLeaving c).obeys L := h.modCar.stopLimit.raise

theorem Yard.obeys.placeSpeakersOfD (h : y.obeys L) {bays : List Nat} :
    (y.placeSpeakersOf Yard.drain bays).obeys L := h.placeSpeakersOf YardLaw.keptBy_drain

theorem Yard.obeys.exitRead (h : y.obeys L) {ticket : Nat} : (y.exitRead ticket).2.obeys L := by
  have hs := h.searchCars YardLaw.keptBy_drain (q := fun c => c.ticket == ticket) (is := y.carSlotsInUse)
  unfold Yard.exitRead
  split
  · next c _ z heq =>
    rw [heq] at hs
    have hz : z.obeys L := hs
    split
    · exact hz.makeLeaving
    · next bay _ _ =>
      have hb := hz.readBayD (n := bay)
      split
      · grind
      · next heq =>
        rw [heq] at hb
        exact (hb.release.placeSpeakersOf YardLaw.keptBy_drain).makeLeaving
    · exact hz.makeLeaving
    · exact hz
    · exact hz
  · grind

theorem Yard.obeys.departBay (h : y.obeys L) {c : Car} : (y.departBay c).obeys L := by
  unfold Yard.departBay
  split
  · next bay _ =>
    have hb := h.readBayD (n := bay)
    split
    · grind
    · next heq =>
      rw [heq] at hb
      exact hb.release.placeSpeakersOf YardLaw.keptBy_drain
  · exact h

theorem Yard.obeys.depart (h : y.obeys L) {c : Car} {cause : DepartCause} : (y.depart c cause).obeys L := by
  unfold Yard.depart
  exact ((h.departBay.foldl fun _ _ h => h.departedOrder).setAdmitted.stopLimit.freeCar).raise

theorem Yard.obeys.crossExit (h : y.obeys L) {car : Nat} : (y.crossExit car).obeys L := by
  have hr := h.readCarD (n := car)
  unfold Yard.crossExit
  split
  · next heq =>
    rw [heq] at hr
    exact hr.depart.ite hr
  · grind

theorem Yard.obeys.checkinReads (h : y.obeys L) {bay code : Nat} : (y.checkinReads bay code).2.obeys L := by
  unfold Yard.checkinReads
  extract_lets n rc rb ro
  have hrc : rc.2.obeys L := by
    dsimp only [rc]
    split
    · exact h.readCarD
    · exact h
  have hrb : rb.2.obeys L := hrc.readBayD
  have hro : ro.2.obeys L := by
    dsimp only [ro]
    split
    · exact hrb.readCarD
    · exact hrb
  split
  · exact hro.readBayD
  · exact hro

theorem Yard.obeys.bind (h : y.obeys L) {site : Site} {c : Car} {bay : Nat} {displaced : Option Nat} {wish : Bool} :
    (y.bind site c bay displaced wish).obeys L := by
  unfold Yard.bind
  extract_lets old u v w x
  clear_value old
  have hu : u.obeys L := by
    dsimp only [u]
    split
    · exact h.unbindToField
    · exact h
  have hv : v.obeys L := by
    dsimp only [v]
    split
    · exact hu.release
    · exact hu
  exact ((hv.modBay.modCar.stopLimit.bindChange.setSpeaker).placeSpeakersOf YardLaw.keptBy_drain).placeLamp.raise

theorem Yard.obeys.checkin (h : y.obeys L) {site : Site} {bay code : Nat} {wish : Bool} :
    (y.checkin site bay code wish).obeys L := by
  have hr := h.checkinReads (bay := bay) (code := code)
  unfold Yard.checkin
  dsimp only
  split
  · exact hr.bind
  · exact hr.placeLamp.raise
  · exact hr

theorem Yard.obeys.openBay (h : y.obeys L) {bay : Nat} : (y.openBay bay).2.obeys L := by
  unfold Yard.openBay
  split
  · exact h
  · split
    · exact h.setBaySlot
    · exact h

theorem Yard.obeys.closeBay (h : y.obeys L) {bay : Nat} : (y.closeBay bay).obeys L := by
  have hb := h.readBayD (n := bay)
  unfold Yard.closeBay
  split
  · next b z heq =>
    rw [heq] at hb
    have hz : z.obeys L := hb
    extract_lets w
    have hw : w.obeys L := by
      dsimp only [w]
      split
      · next car _ =>
        have hc := hz.readCarD (n := car)
        split
        · grind [Yard.obeys.unbindToField]
        · grind
      · exact hz
    exact hw.setBaySlot.ite hw
  · grind

theorem Yard.obeys.setBays (h : y.obeys L) {plan : List (Nat × Bool)} : (y.setBays plan).2.obeys L := by
  induction plan generalizing y with
  | nil => exact h
  | cons e rest ih =>
    obtain ⟨bay, opens⟩ := e
    cases opens with
    | true => exact ih h.openBay
    | false => exact ih h.closeBay

theorem Yard.obeys.sitePlan (h : y.obeys L) {sc : ScreenId} {plan : List Bool} : (y.sitePlan sc plan).2.obeys L := by
  unfold Yard.sitePlan
  generalize fieldBays sc = bays
  exact (h.setBays.checkCapacity).placeSpeakersOf YardLaw.keptBy_drain

theorem Yard.obeys.limitExpired (h : y.obeys L) {car : Nat} : (y.limitExpired car).obeys L := by
  have hr := (h.stopLimit (n := car)).readCarD (n := car)
  unfold Yard.limitExpired
  split
  · exact h
  · split
    · next heq =>
      rw [heq] at hr
      exact hr.modCar.raise.ite hr
    · grind

/-! ## The Loop Poller (R65 to R90) -/

theorem Yard.obeys.deliver (h : y.obeys L) {site : Site} {lp : ScreenId} {post : Nat} {rec : KeyRecord} :
    (y.deliver site lp post rec).obeys L := by
  cases rec with
  | checkin => exact h.checkin
  | order => exact h.postOrder
  | cancel => exact h.postCancel
  | help => exact h.raise

theorem Yard.obeys.takeRecord (h : y.obeys L) {site : Site} {lp : ScreenId} {post : Nat} {bytes : List Byte} :
    (y.takeRecord site lp post bytes).obeys L := by
  unfold Yard.takeRecord
  split
  · exact h
  · next seq rest =>
    refine (h.modLoop fun hl => hl).ite ((h.modLoop fun hl => hl).ite ?_)
    have hp : (y.modLoop lp fun l => l.setPost post { l.post post with lastSeq := some seq.toNat }).obeys L :=
      h.modLoop fun hl => LoopRec.canonical_setPost hl _ _
    dsimp only
    split
    · exact hp.modLoop fun hl => hl
    · refine (hp.modLoop fun hl => ?_).deliver
      rw [LoopRec.canonical_iff] at hl ⊢
      exact ⟨hl.1, Tab.wf_put hl.2 _ _⟩

theorem Yard.obeys.sendOutcome (h : y.obeys L) {lp : ScreenId} {i : Fin 16} {e : Ending} :
    (y.sendOutcome lp i e).obeys L := by
  unfold Yard.sendOutcome
  extract_lets l sl
  cases e with
  | good =>
    have hp : (y.modLoop lp fun l =>
        (l.setPost sl.post ((l.post sl.post).deliver sl)).setSlot i OutSlot.empty).obeys L :=
      h.modLoop fun hl => LoopRec.canonical_setPost hl _ _
    exact (hp.raise.ite hp).afterFreeD
  | error => exact h.completeUndelivered.afterFreeD.ite (h.modLoop fun hl => hl)

theorem Yard.obeys.dropSlots (h : y.obeys L) {lp : ScreenId} {post : Nat} : (y.dropSlots lp post).obeys L :=
  h.foldl fun _ _ h => h.completeUndelivered.afterFreeD.ite h

theorem Yard.obeys.countOutcome (h : y.obeys L) {lp : ScreenId} {post : Nat} {e : Ending} :
    (y.countOutcome lp post e).obeys L := by
  unfold Yard.countOutcome
  extract_lets p errors conf newly w x
  refine Yard.obeys.ite ?_ h
  have hw : w.obeys L := h.modLoop fun hl => LoopRec.canonical_setPost hl _ _
  have hx : x.obeys L := hw.raise.ite hw
  exact hx.dropSlots.ite hx

theorem Yard.obeys.probeOutcome (h : y.obeys L) {lp : ScreenId} {post : Nat} {e : Ending} :
    (y.probeOutcome lp post e).obeys L := by
  cases e with
  | good =>
    exact (h.modLoop fun hl => LoopRec.canonical_setPost hl _ _).raise.resendPost YardLaw.keptBy_drain
  | error => exact h.modLoop fun hl => LoopRec.canonical_setPost hl _ _

theorem Yard.obeys.grantLoan (h : y.obeys L) {lp : ScreenId} : (y.grantLoan lp).obeys L := by
  unfold Yard.grantLoan
  exact (h.modLoop fun hl => hl).raise.ite h

theorem Yard.obeys.endTransaction (h : y.obeys L) {site : Site} {lp : ScreenId} {t : Transaction} {e : Ending}
    {record : List Byte} : (y.endTransaction site lp t e record).obeys L := by
  unfold Yard.endTransaction
  extract_lets u v w p x
  have hu : u.obeys L := h.modLoop fun hl => hl
  have hv : v.obeys L := by
    dsimp only [v]
    split
    · exact hu.sendOutcome
    · exact hu
  have hw : w.obeys L := by
    dsimp only [w]
    split
    · exact hv
    · exact hv.modLoop fun hl => hl
  exact (hw.probeOutcome.ite hw.countOutcome).takeRecord.grantLoan

theorem LoopRec.canonical_dropRepeat {l : LoopRec} (h : l.canonical = true) (slot : Option (Fin 16)) :
    (l.dropRepeat slot).canonical = true := by
  cases slot <;> exact h

theorem Yard.obeys.takeAgain (h : y.obeys L) {site : Site} {lp : ScreenId} {t : Transaction} :
    (y.takeAgain site lp t).obeys L := by
  have hc : (y.modLoop lp fun l => { l with current := none }).obeys L := h.modLoop fun hl => hl
  unfold Yard.takeAgain
  exact h.endTransaction.ite ((hc.modLoop fun hl => LoopRec.canonical_dropRepeat hl _).grantLoan.ite
    (hc.modLoop fun hl => hl))

theorem Yard.obeys.takeWait (h : y.obeys L) {site : Site} {lp : ScreenId} {t : Transaction} {n : Nat} :
    (y.takeWait site lp t n).obeys L := by
  unfold Yard.takeWait
  exact h.endTransaction.ite (h.modLoop fun hl => hl)

theorem Yard.obeys.takeResponse (h : y.obeys L) {site : Site} {lp : ScreenId} {bytes : List Byte} :
    (y.takeResponse site lp bytes).obeys L := by
  unfold Yard.takeResponse
  split
  · exact h
  · split
    · split
      · exact h.endTransaction
      · exact h.takeAgain
      · exact h.takeWait
      · exact h.endTransaction
      · exact h.endTransaction
    · exact h

theorem Yard.obeys.windowExpired (h : y.obeys L) {site : Site} {lp : ScreenId} : (y.windowExpired site lp).obeys L := by
  unfold Yard.windowExpired
  split
  · split
    · exact h.endTransaction
    · exact h
    · exact h
  · exact h

theorem Yard.obeys.requestRises (h : y.obeys L) {lp : ScreenId} : (y.requestRises lp).obeys L := by
  unfold Yard.requestRises
  extract_lets l u v w
  have hu : u.obeys L := h.modLoop fun hl => hl
  have hv : v.obeys L := hu.modLoop fun hl => hl
  have hw : w.obeys L := by
    dsimp only [w]
    split
    · exact hv.modLoop fun hl => LoopRec.canonical_dropRepeat hl _
    · exact hv
  exact h.ite (hu.raise.ite (hw.grantLoan.ite hu))

theorem Yard.obeys.endLoan (h : y.obeys L) {lp : ScreenId} : (y.endLoan lp).obeys L := by
  unfold Yard.endLoan
  exact (h.modLoop fun hl => hl).raise.resendLoop YardLaw.keptBy_drain

theorem Yard.obeys.requestFalls (h : y.obeys L) {lp : ScreenId} : (y.requestFalls lp).obeys L := by
  unfold Yard.requestFalls
  extract_lets l u
  have hu : u.obeys L := h.modLoop fun hl => hl
  refine h.ite ?_
  split
  · exact hu
  · exact hu.modLoop fun hl => hl
  · exact hu.endLoan
  · exact hu.endLoan

theorem Yard.obeys.lendExpired (h : y.obeys L) {lp : ScreenId} : (y.lendExpired lp).obeys L := by
  unfold Yard.lendExpired
  exact (h.modLoop fun hl => hl).raise.ite h

theorem Yard.obeys.hear (h : y.obeys L) {site : Site} {lp : ScreenId} {bytes : List Byte} :
    (y.hear site lp bytes).obeys L := by
  unfold Yard.hear
  refine Yard.obeys.ite ?_ h
  split
  · exact h.takeRecord.ite h
  · exact h

theorem Yard.obeys.setPresence (h : y.obeys L) {lp : ScreenId} {post : Nat} {present : Bool} :
    (y.setPresence lp post present).obeys L := by
  unfold Yard.setPresence
  exact h.ite ((h.modLoop fun hl => LoopRec.canonical_setPost hl _ _).ite
    (h.modLoop fun hl => LoopRec.canonical_setPost hl _ _).dropSlots)

theorem Yard.obeys.postMap (h : y.obeys L) {lp : ScreenId} {presence : List Bool} : (y.postMap lp presence).obeys L :=
  h.foldl fun _ _ h => h.setPresence

theorem LoopRec.canonical_loopReset {l : LoopRec} (h : l.canonical = true) : l.loopReset.canonical = true := by
  rw [LoopRec.canonical_iff] at h ⊢
  exact ⟨Tab.wf_mapEntries (fun _ => Post.loopReset) h.1, rfl⟩

theorem LoopRec.canonical_pollSearch (n p : Nat) {l : LoopRec} (h : l.canonical = true) :
    (LoopRec.pollSearch n p l).2.canonical = true := by
  fun_induction LoopRec.pollSearch n p l <;> grind [LoopRec.canonical_setPost]

theorem LoopRec.canonical_startPoll {l : LoopRec} (h : l.canonical = true) : l.startPoll.canonical = true := by
  have hs := LoopRec.canonical_pollSearch 512 l.cursor h
  unfold LoopRec.startPoll
  split
  · next heq => rw [heq] at hs; exact hs
  · next heq =>
    rw [heq] at hs
    split <;> exact hs

theorem LoopRec.canonical_start {l : LoopRec} (h : l.canonical = true) : l.start.canonical = true := by
  unfold LoopRec.start
  split
  · unfold LoopRec.choose
    split
    · exact h
    · exact LoopRec.canonical_setPost h _ _
    · split
      · exact h
      · exact LoopRec.canonical_startPoll h
    · exact LoopRec.canonical_startPoll h
  · exact h

theorem LoopRec.canonical_openWindow {l : LoopRec} (h : l.canonical = true) : l.openWindow.canonical = true := by
  unfold LoopRec.openWindow
  split
  · split <;> exact h
  · exact h

theorem LoopRec.canonical_recoveryExpired {l : LoopRec} (h : l.canonical = true) (post : Nat) :
    (l.recoveryExpired post).canonical = true := by
  unfold LoopRec.recoveryExpired
  split
  · exact LoopRec.canonical_setPost h _ _
  · exact h

theorem LoopRec.canonical_tick {l : LoopRec} (h : l.canonical = true) : l.tick.canonical = true := by
  rw [LoopRec.canonical_iff] at h ⊢
  exact ⟨Tab.wf_mapEntries (fun _ (p : Post) => { p with recovery := tickTimer p.recovery }) h.1, h.2⟩

end laws

end Sys2Proof.Machine
end

section
/-! PROOFS. A lane's operations keep the lane's laws (R93, R99 to R108) and those of the yard. -/

namespace Sys2Proof.Machine

/-! ## What the shared operations of a lane leave alone -/

@[simp] theorem GateRun.raise_lane (w : GateRun) (r : Report) : (w.raise r).lane = w.lane := rfl
@[simp] theorem GateRun.raise_id (w : GateRun) (r : Report) : (w.raise r).id = w.id := rfl
@[simp] theorem GateRun.mod_lane (w : GateRun) (f : Lane → Lane) : (w.mod f).lane = f w.lane := rfl
@[simp] theorem GateRun.mod_yard (w : GateRun) (f : Lane → Lane) : (w.mod f).yard = w.yard := rfl
@[simp] theorem GateRun.mod_id (w : GateRun) (f : Lane → Lane) : (w.mod f).id = w.id := rfl
@[simp] theorem GateRun.count_lane (w : GateRun) (f : LaneCounts → LaneCounts) :
    (w.count f).lane = { w.lane with counts := f w.lane.counts } := rfl
@[simp] theorem GateRun.count_yard (w : GateRun) (f : LaneCounts → LaneCounts) : (w.count f).yard = w.yard := rfl
@[simp] theorem GateRun.count_id (w : GateRun) (f : LaneCounts → LaneCounts) : (w.count f).id = w.id := rfl
@[simp] theorem GateRun.answer_lane (w : GateRun) (a : ReaderAnswer) :
    (w.answer a).lane = { w.lane with answer := some a } := rfl
@[simp] theorem GateRun.answer_yard (w : GateRun) (a : ReaderAnswer) : (w.answer a).yard = w.yard := rfl
@[simp] theorem GateRun.lift_lane (w : GateRun) : w.lift.lane = w.lane.setBarrier .up := rfl
@[simp] theorem GateRun.lift_yard (w : GateRun) : w.lift.yard = w.yard := rfl
@[simp] theorem GateRun.lift_id (w : GateRun) : w.lift.id = w.id := rfl
@[simp] theorem GateRun.lower_lane (w : GateRun) :
    w.lower.lane = if Detector.isOccupied w.lane.barrierLoop then w.lane else w.lane.setBarrier .down := rfl
@[simp] theorem GateRun.lower_yard (w : GateRun) : w.lower.yard = w.yard := rfl
@[simp] theorem GateRun.lower_id (w : GateRun) : w.lower.id = w.id := rfl

@[simp] theorem GateRun.detectorReports_lane (w : GateRun) (loop : LaneLoop) (old new : Detector) :
    (w.detectorReports loop old new).lane = w.lane := by
  unfold GateRun.detectorReports
  split
  · rfl
  · split <;> rfl

@[simp] theorem GateRun.giveBack_lane (w : GateRun) : w.giveBack.lane = w.lane := by
  unfold GateRun.giveBack
  split <;> rfl

@[simp] theorem GateRun.giveBack_id (w : GateRun) : w.giveBack.id = w.id := by
  unfold GateRun.giveBack
  split <;> rfl

theorem GateRun.settleCrossing_lane (w : GateRun) : ∃ c, w.settleCrossing.lane = { w.lane with counts := c } := by
  unfold GateRun.settleCrossing
  split
  · dsimp only
    split <;> exact ⟨_, rfl⟩
  · exact ⟨_, rfl⟩
  · exact ⟨_, rfl⟩
  · exact ⟨w.lane.counts, rfl⟩

/-! ## The lane's laws -/

theorem Lane.lawful_iff (l : Lane) : l.lawful ↔
    (Detector.isOccupied l.barrierLoop = true → l.command = .up) ∧
    (l.state = .opening ∨ l.state = .passing ∨ l.state = .stalled → l.command = .up) ∧
    (l.pending ≠ .absent → l.state = .opening ∨ l.state = .passing ∨ l.state = .stalled) ∧
    (l.dwell.isSome = true → l.state = .opening) ∧ (l.stall.isSome = true → l.state = .passing) ∧
    (l.exitRead.isSome = true → l.state = .present) := by
  simp only [Lane.lawful, List.mem_cons, List.not_mem_nil, or_false]

/-- A lane in which nobody is let through, with no timer running but the exit read timer in PRESENT. -/
def Lane.idle (l : Lane) : Prop :=
  (Detector.isOccupied l.barrierLoop = true → l.command = .up) ∧ l.pending = .absent ∧ l.dwell.isSome = false ∧ l.stall.isSome = false

theorem Lane.isOccupied_setBarrier (l : Lane) (b : Barrier) : (l.setBarrier b).command = b ∧
    ∃ t, l.setBarrier b = { l with command := b, travel := t } := by
  unfold Lane.setBarrier
  split
  · next h => exact ⟨h, l.travel, by rw [← h]⟩
  · exact ⟨rfl, _, rfl⟩

theorem Lane.lawful_answer {l : Lane} (h : l.lawful) (a : Option ReaderAnswer) :
    ({ l with answer := a } : Lane).lawful := h

section lanes
variable {w : GateRun}

theorem GateRun.enterEmpty_lawful (h : w.lane.idle) (he : w.lane.exitRead.isSome = false) : w.enterEmpty.lane.lawful := by
  obtain ⟨hb, hp, hd, hs⟩ := h
  unfold GateRun.enterEmpty GateRun.close
  split <;> simp [Lane.lawful_iff, hp, hd, hs, he] <;> exact hb

theorem GateRun.enterPresent_lawful (h : w.lane.idle) : w.enterPresent.lane.lawful := by
  obtain ⟨hb, hp, hd, hs⟩ := h
  simp [Lane.lawful_iff, GateRun.enterPresent, hp, hd, hs]
  exact hb

theorem GateRun.enterIdle_lawful (h : w.lane.idle) (he : w.lane.exitRead.isSome = false) : w.enterIdle.lane.lawful := by
  unfold GateRun.enterIdle
  split
  · exact GateRun.enterPresent_lawful h
  · exact GateRun.enterEmpty_lawful h he

theorem GateRun.lower_barrier (h : Detector.isOccupied w.lane.barrierLoop = true → w.lane.command = .up) :
    Detector.isOccupied w.lower.lane.barrierLoop = true → w.lower.lane.command = .up := by
  simp only [GateRun.lower_lane]
  unfold Lane.setBarrier
  grind

theorem GateRun.lower_keeps (w : GateRun) :
    ∃ b t, w.lower.lane = { w.lane with command := b, travel := t } := by
  simp only [GateRun.lower_lane]
  unfold Lane.setBarrier
  split
  · exact ⟨_, _, rfl⟩
  · split <;> exact ⟨_, _, rfl⟩

theorem GateRun.withdraw_lawful (h : w.lane.lawful) (ho : w.lane.state = .opening) (cause : WithdrawCause) :
    (w.withdraw cause).lane.lawful := by
  rw [Lane.lawful_iff] at h
  obtain ⟨hb, -, -, -, hs, he⟩ := h
  have hlow := GateRun.lower_barrier hb
  obtain ⟨b, t, hl⟩ := w.lower_keeps
  unfold GateRun.withdraw
  refine GateRun.enterIdle_lawful ⟨?_, rfl, rfl, ?_⟩ ?_
  · simpa using hlow
  · simp only [GateRun.raise_lane, GateRun.count_lane, GateRun.mod_lane, GateRun.giveBack_lane, hl]
    grind
  · simp only [GateRun.raise_lane, GateRun.count_lane, GateRun.mod_lane, GateRun.giveBack_lane, hl]
    grind

theorem GateRun.enterPassing_lawful (hc : w.lane.command = .up) : w.enterPassing.lane.lawful := by
  simp [Lane.lawful_iff, GateRun.enterPassing, hc]

theorem GateRun.tailgate_lawful (hc : w.lane.command = .up) : w.tailgate.lane.lawful := by
  simp [Lane.lawful_iff, GateRun.tailgate, GateRun.enterPassing, hc]

theorem GateRun.enterOpening_lawful (p : Pending) (hs : w.lane.stall.isSome = false) : (w.enterOpening p).lane.lawful := by
  obtain ⟨hu, t, ht⟩ := w.lane.isOccupied_setBarrier .up
  simp [Lane.lawful_iff, GateRun.enterOpening, ht, hs]

theorem GateRun.completeCrossing_lawful (h : w.lane.lawful)
    (ho : w.lane.state = .passing ∨ w.lane.state = .stalled) : w.completeCrossing.lane.lawful := by
  rw [Lane.lawful_iff] at h
  obtain ⟨hb, -, -, hd, -, he⟩ := h
  obtain ⟨c, hc⟩ := w.settleCrossing_lane
  have hlow : Detector.isOccupied w.settleCrossing.lower.lane.barrierLoop = true →
      w.settleCrossing.lower.lane.command = .up := GateRun.lower_barrier (by rw [hc]; exact hb)
  obtain ⟨b, t, hl⟩ := w.settleCrossing.lower_keeps
  unfold GateRun.completeCrossing
  dsimp only
  rw [apply_ite GateRun.lane]
  simp only [GateRun.raise_lane, ite_self, GateRun.mod_lane, Lane.lawful_iff]
  grind

theorem GateRun.armingMoved_lawful (h : w.lane.lawful) (old new : Detector) : (w.armingMoved old new).lane.lawful := by
  have hl := h
  rw [Lane.lawful_iff] at hl
  obtain ⟨hb, hup, hp, hd, hs, he⟩ := hl
  unfold GateRun.armingMoved
  cases hst : w.lane.state with
  | empty =>
    dsimp only
    split
    · exact GateRun.enterPresent_lawful (by grind [Lane.idle])
    · exact h
  | present =>
    dsimp only
    split
    · exact GateRun.enterEmpty_lawful (by grind [Lane.idle, GateRun.mod_lane]) rfl
    · exact h
  | opening =>
    dsimp only
    split
    · exact GateRun.withdraw_lawful h hst _
    · rw [Lane.lawful_iff]
      grind [GateRun.mod_lane]
  | closed => exact h
  | passing => exact h
  | closing => exact h
  | stalled => exact h

theorem GateRun.arming_lawful (h : w.lane.lawful) (d : Detector) : (w.arming d).lane.lawful := by
  unfold GateRun.arming
  dsimp only
  split
  · exact h
  · refine GateRun.armingMoved_lawful ?_ _ _
    rw [GateRun.detectorReports_lane]
    exact h

theorem GateRun.barrierLoop_lawful (h : w.lane.lawful) (d : Detector) : (w.barrierLoop d).lane.lawful := by
  have hl := h
  rw [Lane.lawful_iff] at hl
  obtain ⟨hb, hup, hp, hd, hs, he⟩ := hl
  unfold GateRun.barrierLoop
  extract_lets old v
  have hv : v.lane = { w.lane with barrierLoop := d } := by simp [v]
  split
  · exact h
  · split
    · obtain ⟨hu, t, ht⟩ := v.lane.isOccupied_setBarrier .up
      have hlift : v.lift.lane = { w.lane with barrierLoop := d, command := .up, travel := t } := by
        rw [GateRun.lift_lane, ht, hv]
      have hlaw : v.lift.lane.lawful := by
        rw [Lane.lawful_iff, hlift]
        grind
      unfold GateRun.barrierOccupied
      split
      · exact GateRun.tailgate_lawful (by rw [hlift])
      · exact GateRun.tailgate_lawful (by rw [hlift])
      · exact GateRun.tailgate_lawful (by rw [hlift])
      · exact GateRun.enterPassing_lawful (by rw [hlift])
      · exact hlaw
      · exact hlaw
      · exact hlaw
    · next hin =>
      have hlaw : v.lane.lawful := by
        rw [Lane.lawful_iff, hv]
        grind
      split
      · unfold GateRun.barrierCleared
        split
        · next hc =>
          obtain ⟨b, t, hlow⟩ := v.lower_keeps
          have hbar := GateRun.lower_barrier (w := v) ((Lane.lawful_iff _).1 hlaw).1
          rw [Lane.lawful_iff] at hlaw ⊢
          grind
        · next hc => exact GateRun.completeCrossing_lawful hlaw (.inl hc)
        · next hc => exact GateRun.completeCrossing_lawful hlaw (.inr hc)
        · exact hlaw
        · exact hlaw
        · exact hlaw
        · exact hlaw
      · exact hlaw

theorem GateRun.feedback_lawful (h : w.lane.lawful) (f : Feedback) : (w.feedback f).lane.lawful := by
  unfold GateRun.feedback
  extract_lets old u v
  have hv : ∃ t, v.lane = { w.lane with feedback := f, travel := t } := by
    dsimp only [v]
    split
    · exact ⟨_, rfl⟩
    · split <;> exact ⟨_, rfl⟩
  obtain ⟨t, hv⟩ := hv
  have hlaw : v.lane.lawful := by rw [hv]; exact h
  split
  · exact h
  · split
    · rw [Lane.lawful_iff] at hlaw
      exact GateRun.enterIdle_lawful (by grind [Lane.idle]) (by grind)
    · exact hlaw

theorem GateRun.travelExpired_lawful (h : w.lane.lawful) : w.travelExpired.lane.lawful := by
  unfold GateRun.travelExpired
  split
  · exact h
  · dsimp only
    split <;> exact h

theorem GateRun.dwellExpired_lawful (h : w.lane.lawful) : w.dwellExpired.lane.lawful := by
  unfold GateRun.dwellExpired
  split
  · next hd => exact GateRun.withdraw_lawful h hd.1 _
  · exact h

theorem GateRun.stallExpired_lawful (h : w.lane.lawful) : w.stallExpired.lane.lawful := by
  unfold GateRun.stallExpired
  split
  · rw [Lane.lawful_iff] at h ⊢
    grind [GateRun.raise_lane, GateRun.mod_lane]
  · exact h

theorem GateRun.exitReadExpired_lawful (h : w.lane.lawful) : w.exitReadExpired.lane.lawful := by
  unfold GateRun.exitReadExpired
  split
  · rw [Lane.lawful_iff] at h
    exact Lane.lawful_answer (GateRun.enterOpening_lawful _ (by grind)) _
  · exact h

theorem GateRun.credential_lawful (h : w.lane.lawful) (c : Credential) : (w.credential c).lane.lawful := by
  have hs : w.lane.state = .present → w.lane.stall.isSome = false := by
    rw [Lane.lawful_iff] at h
    grind
  unfold GateRun.credential
  split
  · split
    · next hst =>
      split
      · unfold GateRun.readExit
        split
        · exact h
        · split
          · exact Lane.lawful_answer (GateRun.enterOpening_lawful _ (hs hst)) _
          · exact h
      · unfold GateRun.decideAdmission GateRun.admitCar
        dsimp only
        split
        · exact Lane.lawful_answer (GateRun.enterOpening_lawful _ (hs hst)) _
        · exact h
        · exact h
    all_goals exact h
  · exact h

theorem GateRun.openLane_lawful (h : w.lane.lawful) : w.openLane.lane.lawful := by
  have hl := h
  rw [Lane.lawful_iff] at hl
  unfold GateRun.openLane
  split
  · split
    · next hb => exact GateRun.enterPassing_lawful (hl.1 hb)
    · exact GateRun.enterIdle_lawful (by grind [Lane.idle]) (by grind)
  · exact h

theorem GateRun.closeLane_lawful (h : w.lane.lawful) : w.closeLane.2.lane.lawful := by
  have hl := h
  rw [Lane.lawful_iff] at hl
  unfold GateRun.closeLane
  split
  · exact h
  · rw [Lane.lawful_iff]
    grind [GateRun.close, GateRun.raise_lane, GateRun.mod_lane]
  · rw [Lane.lawful_iff]
    grind [GateRun.mod_lane]
  all_goals exact h

end lanes

theorem Lane.deviceReset_lawful (l : Lane) : l.deviceReset.lawful := by
  simp only [Lane.lawful_iff, Lane.deviceReset, Lane.reset]
  grind

theorem Lane.tick_lawful {l : Lane} (h : l.lawful) : l.tick.lawful := by
  have ht : ∀ t, (tickTimer t).isSome = t.isSome := fun t => by cases t <;> rfl
  rw [Lane.lawful_iff] at h ⊢
  simpa only [Lane.tick, ht] using h

/-! ## The yard's laws under the operations of a lane -/

section yards
variable {L : YardLaw} {w : GateRun}

theorem GateRun.raise_obeys (h : w.yard.obeys L) (r : Report) : (w.raise r).yard.obeys L := Yard.obeys.raise h

theorem GateRun.detectorReports_obeys (h : w.yard.obeys L) (loop : LaneLoop) (old new : Detector) :
    (w.detectorReports loop old new).yard.obeys L := by
  unfold GateRun.detectorReports
  split
  · exact Yard.obeys.raise h
  · split
    · exact Yard.obeys.raise h
    · exact h

theorem GateRun.enterEmpty_obeys (h : w.yard.obeys L) : w.enterEmpty.yard.obeys L := by
  unfold GateRun.enterEmpty
  split
  · exact Yard.obeys.raise h
  · exact h

theorem GateRun.enterIdle_obeys (h : w.yard.obeys L) : w.enterIdle.yard.obeys L := by
  unfold GateRun.enterIdle
  split
  · exact h
  · exact GateRun.enterEmpty_obeys h

theorem GateRun.giveBack_obeys (h : w.yard.obeys L) : w.giveBack.yard.obeys L := by
  unfold GateRun.giveBack
  split
  · exact (Yard.obeys.removeEntering h).freeTicket
  · exact Yard.obeys.returnCar h
  · exact h
  · exact h

theorem GateRun.withdraw_obeys (h : w.yard.obeys L) (cause : WithdrawCause) : (w.withdraw cause).yard.obeys L := by
  unfold GateRun.withdraw
  exact GateRun.enterIdle_obeys (Yard.obeys.raise (GateRun.giveBack_obeys (w := w.lower) h))

theorem GateRun.settleCrossing_obeys (h : w.yard.obeys L) : w.settleCrossing.yard.obeys L := by
  unfold GateRun.settleCrossing
  split
  · dsimp only
    split
    · exact (Yard.obeys.crossEntry h).raise
    · exact Yard.obeys.crossEntry h
  · exact Yard.obeys.crossExit h
  · exact h
  · exact h

theorem GateRun.completeCrossing_obeys (h : w.yard.obeys L) : w.completeCrossing.yard.obeys L := by
  unfold GateRun.completeCrossing
  dsimp only
  split
  · exact Yard.obeys.raise (GateRun.settleCrossing_obeys h)
  · exact GateRun.settleCrossing_obeys h

theorem GateRun.arming_obeys (h : w.yard.obeys L) (d : Detector) : (w.arming d).yard.obeys L := by
  unfold GateRun.arming
  extract_lets old
  split
  · exact h
  · have hr := GateRun.detectorReports_obeys (w := w.mod fun l => { l with arming := d }) h .arming old d
    unfold GateRun.armingMoved
    split
    · split <;> exact hr
    · split
      · exact GateRun.enterEmpty_obeys hr
      · exact hr
    · split
      · exact GateRun.withdraw_obeys hr _
      · exact hr
    all_goals exact hr

theorem GateRun.barrierLoop_obeys (h : w.yard.obeys L) (d : Detector) : (w.barrierLoop d).yard.obeys L := by
  unfold GateRun.barrierLoop
  extract_lets old v
  have hv : v.yard.obeys L := GateRun.detectorReports_obeys (w := w.mod fun l => { l with barrierLoop := d }) h ..
  split
  · exact h
  · split
    · unfold GateRun.barrierOccupied
      split
      · exact Yard.obeys.raise hv
      · exact Yard.obeys.raise hv
      · exact Yard.obeys.raise hv
      all_goals exact hv
    · split
      · unfold GateRun.barrierCleared
        split
        · exact hv
        · exact GateRun.completeCrossing_obeys hv
        · exact GateRun.completeCrossing_obeys hv
        all_goals exact hv
      · exact hv

theorem GateRun.feedback_obeys (h : w.yard.obeys L) (f : Feedback) : (w.feedback f).yard.obeys L := by
  unfold GateRun.feedback
  extract_lets old u v
  have hv : v.yard.obeys L := by
    dsimp only [v]
    split
    · exact h
    · split
      · exact Yard.obeys.raise h
      · exact h
  split
  · exact h
  · split
    · exact GateRun.enterIdle_obeys hv
    · exact hv

theorem GateRun.travelExpired_obeys (h : w.yard.obeys L) : w.travelExpired.yard.obeys L := by
  unfold GateRun.travelExpired
  split
  · exact h
  · dsimp only
    split
    · exact h
    · exact Yard.obeys.raise h

theorem GateRun.dwellExpired_obeys (h : w.yard.obeys L) : w.dwellExpired.yard.obeys L := by
  unfold GateRun.dwellExpired
  split
  · exact GateRun.withdraw_obeys h _
  · exact h

theorem GateRun.stallExpired_obeys (h : w.yard.obeys L) : w.stallExpired.yard.obeys L := by
  unfold GateRun.stallExpired
  split
  · exact Yard.obeys.raise h
  · exact h

theorem GateRun.exitReadExpired_obeys (h : w.yard.obeys L) : w.exitReadExpired.yard.obeys L := by
  unfold GateRun.exitReadExpired
  split <;> exact h

theorem Yard.obeys.ticketReads {y : Yard} (h : y.obeys L) {ticket : Nat} : (y.ticketReads ticket).2.obeys L := by
  unfold Yard.ticketReads
  exact (h.readTicket YardLaw.keptBy_drain).searchCars YardLaw.keptBy_drain

theorem GateRun.credential_obeys (h : w.yard.obeys L) (c : Credential) : (w.credential c).yard.obeys L := by
  unfold GateRun.credential
  split
  · split
    · split
      · have hx := Yard.obeys.exitRead h (ticket := c.ticket)
        unfold GateRun.readExit
        split
        · exact h
        · split
          · next heq => rw [heq] at hx; exact hx
          · next heq => rw [heq] at hx; exact hx
      · have ht := Yard.obeys.ticketReads h (ticket := c.ticket)
        unfold GateRun.decideAdmission GateRun.admitCar
        dsimp only
        split
        · exact ht.createCar.setTicketSlot.raise
        · exact ht.raise
        · exact ht
    all_goals exact h
  · exact h

theorem GateRun.openLane_obeys (h : w.yard.obeys L) : w.openLane.yard.obeys L := by
  unfold GateRun.openLane
  split
  · split
    · exact h
    · exact GateRun.enterIdle_obeys h
  · exact h

theorem GateRun.closeLane_obeys (h : w.yard.obeys L) : w.closeLane.2.yard.obeys L := by
  unfold GateRun.closeLane
  split
  · exact h
  · exact Yard.obeys.raise h
  all_goals exact h

end yards

end Sys2Proof.Machine
end

section
/-! PROOFS. The operations of a sound path keep its ranges (R41, R45, R50, R53, R54) and the canonical form of its rings. -/

namespace Sys2Proof.Machine

/-- The laws of a sound path that every step keeps. -/
inductive SoundLaw where
  | ranges | rings

/-- What a law asks of a sound path. -/
def Sound.obeys (sd : Sound) : SoundLaw → Prop
  | .ranges => sd.lawful
  | .rings => Tab.wf none sd.prog = true ∧ Tab.wf none sd.brk = true

/-! ## The servo -/

theorem clampRate_natAbs (rmax : Nat) (r : Int) : (clampRate rmax r).natAbs ≤ rmax := by
  unfold clampRate clampInt
  omega

theorem Servo.rateFor_natAbs (v : Servo) (e : Int) : (v.rateFor e).natAbs ≤ v.settings.rmax := by
  unfold Servo.rateFor
  split
  · simp
  · exact clampRate_natAbs _ _

theorem Servo.lawful_advance {v : Servo} (h : v.lawful) (sd : Sound) : (v.advance sd).2.lawful := by
  obtain ⟨hs, hr, ha, hl⟩ := h
  have hmax := hs.2.2.2.2.1
  unfold Servo.advance
  dsimp only
  split
  · refine ⟨hs, hr, ?_, hl⟩
    dsimp only
    omega
  · split
    · refine ⟨hs, hr, ?_, hl⟩
      dsimp only
      omega
    · refine ⟨hs, hr, ?_, hl⟩
      dsimp only
      omega

theorem servoSettings_inRange (offset : Int) (window deadband gain rmax limit : Nat) :
    (servoSettings offset window deadband gain rmax limit).inRange := by
  unfold servoSettings ServoSettings.inRange clampInt clampNat clampTimer
  dsimp only
  refine ⟨by omega, by omega, by omega, by omega, by omega, ?_⟩
  split
  · exact .inl rfl
  · right
    omega

theorem ServoSettings.defaults_inRange : ServoSettings.defaults.inRange := by
  unfold ServoSettings.inRange ServoSettings.defaults
  decide

theorem Servo.lawful_setSettings {v : Servo} (h : v.lawful) {st : ServoSettings} (hst : st.inRange) :
    (v.setSettings st).lawful :=
  ⟨hst, clampRate_natAbs _ _, h.2.2⟩

theorem Servo.lawful_pickUp {v : Servo} (h : v.lawful) : v.pickUp.lawful := by
  unfold Servo.pickUp
  split <;> exact h

theorem saturate_range (x : Int) : -32768 ≤ saturate x ∧ saturate x ≤ 32767 := by
  unfold saturate clampInt
  omega

theorem scale_in16 (level : Nat) (s : Stereo) : in16 (scale level s) :=
  ⟨saturate_range _, saturate_range _⟩

section paths
variable {L : SoundLaw} {w : SoundRun}

/-! ## Changes that neither law is about, and changes of the servo -/

theorem SoundRun.obeys_raise (h : w.sd.obeys L) (r : Report) : (w.raise r).sd.obeys L := h

theorem SoundRun.obeys_modServo (h : w.sd.obeys L) {f : Servo → Servo}
    (hf : w.sd.servo.lawful → (f w.sd.servo).lawful) : (w.modServo f).sd.obeys L := by
  cases L with
  | ranges => exact ⟨hf h.1, h.2⟩
  | rings => exact h

theorem SoundRun.obeys_closeGap (h : w.sd.obeys L) : w.closeGap.sd.obeys L := by
  unfold SoundRun.closeGap
  split
  · exact h
  · cases L <;> exact h

/-! ## Sources (R55 to R57) -/

theorem SoundRun.obeys_leaveSource (h : w.sd.obeys L) (old : Source) : (w.leaveSource old).sd.obeys L := by
  cases old with
  | programme => exact SoundRun.obeys_closeGap (SoundRun.obeys_modServo h fun hv => hv)
  | onBreak =>
    cases L with
    | ranges => exact h
    | rings => exact ⟨h.1, rfl⟩
  | mute => exact h

theorem SoundRun.obeys_switch (h : w.sd.obeys L) (new : Source) (cause : SourceCause) :
    (w.switch new cause).sd.obeys L := by
  have hn : ((w.mod fun sd => { sd with source := new, ramp := none }).raise
      (.sourceChanged w.id w.sd.source new cause)).sd.obeys L := by cases L <;> exact h
  unfold SoundRun.switch
  dsimp only
  split
  · exact hn
  · split
    · exact SoundRun.obeys_modServo (SoundRun.obeys_leaveSource hn _) Servo.lawful_pickUp
    · exact SoundRun.obeys_leaveSource hn _

theorem SoundRun.obeys_request (h : w.sd.obeys L) (src : Source) (cause : SourceCause) :
    (w.request src cause).sd.obeys L := by
  unfold SoundRun.request
  split
  · cases L <;> exact h
  · split
    · exact h
    · split
      · exact SoundRun.obeys_switch h _ _
      · cases L <;> exact h

theorem SoundRun.obeys_notice (h : w.sd.obeys L) (st : ShowState) : (w.notice st).sd.obeys L := by
  unfold SoundRun.notice
  split
  · exact SoundRun.obeys_request h _ _
  · exact h

/-! ## The frame event and the servo's timers (R42 to R48) -/

theorem SoundRun.obeys_endEvent (h : w.sd.obeys L) (e : Option Int) : (w.endEvent e).sd.obeys L :=
  SoundRun.obeys_modServo h fun hv => hv

theorem Servo.lawful_moveTo {v : Servo} (h : v.lawful) (t : BitVec 32) : (v.moveTo t).lawful :=
  ⟨h.1, by simp [Servo.moveTo], by simp [Servo.moveTo], by simp [Servo.moveTo]⟩

theorem SoundRun.obeys_capture (h : w.sd.obeys L) (f : BitVec 32) : (w.capture f).sd.obeys L := by
  unfold SoundRun.capture
  exact SoundRun.obeys_endEvent (SoundRun.obeys_raise (SoundRun.obeys_modServo (SoundRun.obeys_closeGap h)
    fun hv => Servo.lawful_moveTo hv _) _) none

theorem SoundRun.obeys_jump (h : w.sd.obeys L) (f : BitVec 32) : (w.jump f).sd.obeys L := by
  have hm : ((w.closeGap.modServo fun u => u.moveTo (w.sd.servo.targetOf f)).mod fun sd =>
      { sd with jumps := satInc sd.jumps }).sd.obeys L := by
    have := SoundRun.obeys_modServo (SoundRun.obeys_closeGap h) (f := fun u => u.moveTo (w.sd.servo.targetOf f))
      fun hv => Servo.lawful_moveTo hv _
    cases L <;> exact this
  unfold SoundRun.jump
  refine SoundRun.obeys_endEvent ?_ _
  split <;> exact hm

theorem SoundRun.obeys_lockRun (h : w.sd.obeys L) (e : Int) : (w.lockRun e).sd.obeys L := by
  have hn : (w.modServo fun v => { v with lockRun := min (w.sd.servo.lockRun + 1) 24 }).sd.obeys L :=
    SoundRun.obeys_modServo h fun hv => ⟨hv.1, hv.2.1, hv.2.2.1, Nat.min_le_right _ _⟩
  have hz : (w.modServo fun v => { v with lockRun := 0 }).sd.obeys L :=
    SoundRun.obeys_modServo h fun hv => ⟨hv.1, hv.2.1, hv.2.2.1, Nat.zero_le _⟩
  unfold SoundRun.lockRun
  dsimp only
  split
  · split
    · exact SoundRun.obeys_raise (SoundRun.obeys_modServo hn fun hv => hv) _
    · exact hn
  · split
    · exact SoundRun.obeys_raise (SoundRun.obeys_modServo hz fun hv => hv) _
    · exact hz

theorem SoundRun.obeys_setRate (h : w.sd.obeys L) (f : BitVec 32) : (w.setRate f).sd.obeys L := by
  have hst : (if w.sd.servo.state = .coast then
      (w.modServo fun v => { v with state := .track }).raise (.syncTrack w.id (w.sd.servo.errorOf f))
      else w).sd.obeys L := by
    split
    · exact SoundRun.obeys_raise (SoundRun.obeys_modServo h fun hv => hv) _
    · exact h
  unfold SoundRun.setRate
  exact SoundRun.obeys_endEvent (SoundRun.obeys_lockRun
    (SoundRun.obeys_modServo hst fun hv => ⟨hv.1, Servo.rateFor_natAbs _ _, hv.2.2⟩) _) _

theorem SoundRun.obeys_frameEvent (h : w.sd.obeys L) (f : BitVec 32) : (w.frameEvent f).sd.obeys L := by
  unfold SoundRun.frameEvent
  split
  · split
    · exact SoundRun.obeys_capture h f
    · exact SoundRun.obeys_capture h f
    · split
      · exact SoundRun.obeys_jump h f
      · exact SoundRun.obeys_setRate h f
  · exact h

theorem SoundRun.obeys_coastGapExpired (h : w.sd.obeys L) : w.coastGapExpired.sd.obeys L := by
  unfold SoundRun.coastGapExpired
  split
  · exact h
  · exact SoundRun.obeys_raise (SoundRun.obeys_modServo h fun hv =>
      ⟨hv.1, Nat.zero_le _, hv.2.2.1, Nat.zero_le _⟩) _

theorem SoundRun.obeys_coastLimitExpired (h : w.sd.obeys L) : w.coastLimitExpired.sd.obeys L := by
  unfold SoundRun.coastLimitExpired
  split
  · exact h
  · exact SoundRun.obeys_raise (SoundRun.obeys_modServo (SoundRun.obeys_closeGap h) fun hv => hv) _

/-! ## The output tick (R38, R40, R50 to R54) -/

theorem SoundRun.obeys_gapTick (h : w.sd.obeys L) : w.gapTick.sd.obeys L := by
  unfold SoundRun.gapTick
  split
  · exact SoundRun.obeys_closeGap h
  · exact SoundRun.obeys_modServo h fun hv => hv
  · exact SoundRun.obeys_modServo h fun hv => hv

theorem SoundRun.obeys_programmeTick (h : w.sd.obeys L) : w.programmeTick.2.sd.obeys L := by
  unfold SoundRun.programmeTick
  split
  · exact SoundRun.obeys_modServo h fun hv => hv
  · exact SoundRun.obeys_modServo h fun hv => hv
  · exact SoundRun.obeys_modServo (SoundRun.obeys_gapTick h) fun hv => Servo.lawful_advance hv _

theorem Sound.obeys_breakTick {sd : Sound} (h : sd.obeys L) : sd.breakTick.2.obeys L := by
  unfold Sound.breakTick
  split
  · cases L <;> exact h
  · dsimp only
    split
    · split <;> cases L <;> exact h
    · cases L <;> exact h

theorem stepToward_le {aim l : Nat} (ha : aim ≤ 320) (hl : l ≤ 320) : stepToward aim l ≤ 320 := by
  unfold stepToward
  split
  · omega
  · split <;> omega

theorem SoundRun.obeys_levelTick (h : w.sd.obeys L) : w.levelTick.sd.obeys L := by
  have hstep : (w.mod fun sd => { sd with stepCount := 0, level := stepToward sd.aim sd.level }).sd.obeys L := by
    cases L with
    | ranges =>
      obtain ⟨hv, hl, ht, -, ho⟩ := h
      have ha : w.sd.aim ≤ 320 := by
        unfold Sound.aim
        split
        · exact Nat.zero_le _
        · exact ht
      exact ⟨hv, stepToward_le ha hl, ht, Nat.zero_le _, ho⟩
    | rings => exact h
  unfold SoundRun.levelTick
  split
  · next hc =>
    cases L with
    | ranges =>
      obtain ⟨hv, hl, ht, -, ho⟩ := h
      exact ⟨hv, hl, ht, hc, ho⟩
    | rings => exact h
  · dsimp only
    split
    · split
      · exact SoundRun.obeys_switch hstep _ _
      · exact hstep
    · exact hstep

theorem SoundRun.obeys_tick (h : w.sd.obeys L) : w.tick.sd.obeys L := by
  unfold SoundRun.tick
  extract_lets sw o
  have hsw : sw.2.sd.obeys L := by
    dsimp only [sw]
    split
    · exact SoundRun.obeys_programmeTick h
    · exact Sound.obeys_breakTick h
    · exact h
  refine SoundRun.obeys_levelTick ?_
  cases L with
  | ranges =>
    obtain ⟨hv, hl, ht, hc, -⟩ := hsw
    exact ⟨hv, hl, ht, hc, scale_in16 _ _, scale_in16 _ _⟩
  | rings => exact hsw

/-! ## The link receiver (R35 to R39) -/

theorem Sound.obeys_takeProgramme {sd : Sound} (h : sd.obeys L) (b : Block) : (sd.takeProgramme b).obeys L := by
  unfold Sound.takeProgramme
  dsimp only
  split
  · cases L <;> exact h
  · cases L <;> exact h
  · cases L with
    | ranges => exact h
    | rings => exact ⟨Tab.wf_put h.1 _ _, h.2⟩

theorem Sound.obeys_takeBreak {sd : Sound} (h : sd.obeys L) (b : Block) : (sd.takeBreak b).obeys L := by
  have hstore : ∀ c, ({ sd with brk := Tab.put none sd.brk (b.tag % 16) (some b), cursor := c } : Sound).obeys L := by
    intro c
    cases L with
    | ranges => exact h
    | rings => exact ⟨h.1, Tab.wf_put h.2 _ _⟩
  unfold Sound.takeBreak
  dsimp only
  split
  · exact hstore _
  · split
    · cases L <;> exact h
    · cases L <;> exact h
    · exact hstore _

theorem Sound.obeys_takeBlock {sd : Sound} (h : sd.obeys L) (bytes : List Byte) : (sd.takeBlock bytes).obeys L := by
  unfold Sound.takeBlock
  split
  · dsimp only
    split
    · exact Sound.obeys_takeProgramme h _
    · split
      · exact Sound.obeys_takeBreak h _
      · cases L <;> exact h
  · cases L <;> exact h

theorem Sound.obeys_takeByte {sd : Sound} (h : sd.obeys L) (b : Byte) : (sd.takeByte b).obeys L := by
  unfold Sound.takeByte
  split
  · split
    · cases L <;> exact h
    · exact h
  · dsimp only
    split
    · cases L <;> exact h
    · exact Sound.obeys_takeBlock (by cases L <;> exact h) _

theorem Sound.obeys_takeGap {sd : Sound} (h : sd.obeys L) : sd.takeGap.obeys L := by
  unfold Sound.takeGap
  split
  · exact h
  · cases L <;> exact h

/-! ## Resets and the clock -/

theorem Sound.obeys_screenReset {sd : Sound} (h : sd.obeys L) : sd.screenReset.obeys L := by
  cases L with
  | ranges =>
    obtain ⟨hv, -, ht, -, -⟩ := h
    have hin : in16 (0, 0) := by unfold in16; decide
    exact ⟨⟨hv.1, Nat.zero_le _, Nat.zero_lt_succ _, Nat.zero_le _⟩, Nat.zero_le _, ht, Nat.zero_le _, hin, hin⟩
  | rings => exact ⟨rfl, rfl⟩

theorem Sound.obeys_reset : Sound.reset.obeys L := by
  cases L with
  | ranges =>
    have hin : in16 (0, 0) := by unfold in16; decide
    exact ⟨⟨ServoSettings.defaults_inRange, Nat.zero_le _, by decide, by decide⟩, by decide, by decide, by decide, hin, hin⟩
  | rings => exact ⟨rfl, rfl⟩

theorem Sound.obeys_tick {sd : Sound} (h : sd.obeys L) : sd.tick.obeys L := by cases L <;> exact h

end paths

end Sys2Proof.Machine
end

section
/-! PROOFS. A timeline's operations keep the laws of its screen (R3, R13, R21 to R26), and but for a reset none takes a
screen out of HALTED (R25). -/

namespace Sys2Proof.Machine

/-! ## The laws of a screen, head by head -/

theorem Screen.lawful_iff (sc : Screen) : sc.lawful ↔
    (sc.headA.douser = true → sc.reel % 2 = 1) ∧
    (sc.headB.douser = true → sc.reel % 2 = 0 ∧ sc.reel ≠ 0) ∧
    (sc.phase = .loaded ∨ sc.phase = .starting → sc.headA.douser = false ∧ sc.headB.douser = false ∧ sc.reel = 1) ∧
    (sc.phase = .dark ∨ sc.phase = .ended ∨ sc.phase = .halted →
      sc.headA.motor = false ∧ sc.headA.douser = false ∧ sc.headB.motor = false ∧ sc.headB.douser = false) ∧
    (sc.phase = .held → sc.heldHead.isSome = true) ∧ (sc.startTimer.isSome = true → sc.phase = .starting) ∧
    (sc.countdown.isSome = true → sc.phase = .onBreak) := by
  have hheads : (∀ h, (sc.head h).douser = true → sc.isOnScreen h = true) ↔
      (sc.headA.douser = true → sc.reel % 2 = 1) ∧ (sc.headB.douser = true → sc.reel % 2 = 0 ∧ sc.reel ≠ 0) := by
    have hon (h : Head) : sc.isOnScreen h = true ↔ match h with
        | .a => sc.reel % 2 = 1
        | .b => sc.reel % 2 = 0 ∧ sc.reel ≠ 0 := by
      simp only [Screen.isOnScreen, Screen.onScreen?, decide_eq_true_eq]
      cases h <;> dsimp only <;> grind
    simp only [hon]
    exact ⟨fun h => ⟨h .a, h .b⟩, fun ⟨ha, hb⟩ h => by cases h; exacts [ha, hb]⟩
  have hoff (a b : HeadRec) : a.off = true ∧ b.off = true ↔
      a.motor = false ∧ a.douser = false ∧ b.motor = false ∧ b.douser = false := by
    simp [HeadRec.off, and_assoc]
  simp only [Screen.lawful, hheads, hoff, List.mem_cons, List.not_mem_nil, or_false, and_assoc]

/-- A screen whose show is running: its laws hold, and it is PLAYING, in BREAK or HELD. -/
def Screen.showing (sc : Screen) : Prop :=
  sc.lawful ∧ (sc.phase = .playing ∨ sc.phase = .onBreak ∨ sc.phase = .held)

/-- A head whose motor and douser are commanded on only where they were before is bound by no law anew. -/
theorem Screen.lawful_setHead {sc : Screen} (h : sc.lawful) (x : Head) (r : HeadRec)
    (hd : r.douser = true → (sc.head x).douser = true) (hm : r.motor = true → (sc.head x).motor = true) :
    (sc.setHead x r).lawful := by
  rw [Screen.lawful_iff] at h ⊢
  cases x <;> simp only [Screen.head, Screen.setHead] at hd hm ⊢ <;> grind

/-- A motor may be commanded on once a set has been loaded. -/
theorem Screen.lawful_motorOn {sc : Screen} (h : sc.lawful) (x : Head) (r : HeadRec)
    (hd : r.douser = true → (sc.head x).douser = true)
    (hp : sc.phase ≠ .dark ∧ sc.phase ≠ .ended ∧ sc.phase ≠ .halted) : (sc.setHead x r).lawful := by
  rw [Screen.lawful_iff] at h ⊢
  cases x <;> simp only [Screen.head, Screen.setHead] at hd ⊢ <;> grind

theorem Screen.showing_motorOn {sc : Screen} (h : sc.showing) (x : Head) (r : HeadRec)
    (hd : r.douser = true → (sc.head x).douser = true) : (sc.setHead x r).showing :=
  ⟨Screen.lawful_motorOn h.1 x r hd (by grind [Screen.showing]), by rw [Screen.setHead_phase]; exact h.2⟩

theorem Screen.stopped_lawful (sc : Screen) (h : sc.startTimer.isSome = false) (p : ShowState)
    (hp : p = .dark ∨ p = .ended ∨ p = .halted) : ({ sc.stopped with phase := p } : Screen).lawful := by
  rw [Screen.lawful_iff]
  simp only [Screen.stopped, HeadRec.stopped]
  grind

/-- Only STARTING has a start timer. -/
theorem Screen.startTimer_off {sc : Screen} (h : sc.lawful) (hp : sc.phase ≠ .starting) :
    sc.startTimer.isSome = false := by
  rw [Screen.lawful_iff] at h
  grind

/-! ## Changeovers and the firing of cues -/

theorem Screen.completed_showing {sc : Screen} (h : sc.showing) : sc.completed.showing := by
  have ht := Screen.startTimer_off h.1 (by grind [Screen.showing])
  refine ⟨?_, .inl rfl⟩
  rw [Screen.lawful_iff]
  unfold Screen.completed Screen.outgoing Screen.incoming
  split <;> simp only [otherHead, Screen.setHead, Screen.head] <;> grind

theorem Screen.breakEntered_showing {sc : Screen} (h : sc.showing) (len : Nat) : (sc.breakEntered len).showing := by
  have ht := Screen.startTimer_off h.1 (by grind [Screen.showing])
  have hl := h.1
  rw [Screen.lawful_iff] at hl
  refine ⟨?_, .inr (.inl rfl)⟩
  rw [Screen.lawful_iff]
  unfold Screen.breakEntered
  obtain ⟨hinc, hout⟩ | ⟨hinc, hout⟩ := sc.changeover_heads
  all_goals
    simp only [hout, Screen.incoming_countdown, Screen.setHead_incoming, hinc]
    simp only [Screen.setHead, Screen.head]
    by_cases hlead : len ≤ sc.leadSetting
    · simp only [hlead, if_true]
      grind
    · simp only [hlead, if_false]
      grind

theorem ShowRun.holdForIncoming_sc (w : ShowRun) : w.holdForIncoming.sc = { w.sc.setHead w.sc.incoming
    { w.sc.head w.sc.incoming with motor := true, stopAtRunout := false } with
      phase := .held, heldHead := some w.sc.incoming, countdown := none } := by
  cases hinc : w.sc.incoming <;> simp [ShowRun.holdForIncoming, hinc, Screen.setHead, Screen.head]

theorem ShowRun.holdForIncoming_showing {w : ShowRun} (h : w.sc.showing) : w.holdForIncoming.sc.showing := by
  have ht := Screen.startTimer_off h.1 (by grind [Screen.showing])
  have hl := h.1
  rw [Screen.lawful_iff] at hl
  refine ⟨?_, .inr (.inr (by rw [ShowRun.holdForIncoming_sc]))⟩
  rw [Screen.lawful_iff, ShowRun.holdForIncoming_sc]
  cases w.sc.incoming <;> simp only [Screen.setHead, Screen.head] <;> grind

theorem ShowRun.cueEffect_showing {w : ShowRun} (h : w.sc.showing) (c : Cue) : (w.cueEffect c).sc.showing := by
  unfold ShowRun.cueEffect
  split
  case h_1 =>
    rw [ShowRun.startMotor_sc]
    exact Screen.showing_motorOn h _ _ fun hd => hd
  all_goals exact h

/-- A way of completing a changeover that leaves a running show running. -/
def keepsShowing (done : ShowRun → ShowRun) : Prop :=
  ∀ w : ShowRun, w.sc.showing → (done w).sc.showing

theorem ShowRun.changeover_showing {done : ShowRun → ShowRun} (hd : keepsShowing done) (len : Nat) {w : ShowRun}
    (h : w.sc.showing) : (ShowRun.changeover done len w).sc.showing := by
  unfold ShowRun.changeover
  split
  · split
    · exact hd w h
    · dsimp only
      split
      · exact hd _ (ShowRun.holdForIncoming_showing h)
      · exact ShowRun.holdForIncoming_showing h
  · rw [ShowRun.enterBreak_sc]
    exact Screen.breakEntered_showing h len

theorem ShowRun.fireCue_showing {done : ShowRun → ShowRun} (hd : keepsShowing done) {w : ShowRun} (h : w.sc.showing)
    (e : Nat × Cue) : (ShowRun.fireCue done w e).sc.showing := by
  have hm : (w.mod fun sc => sc.markFired e.1).sc.showing := h
  unfold ShowRun.fireCue
  dsimp only
  split
  · exact ShowRun.changeover_showing hd _ hm
  · exact ShowRun.cueEffect_showing hm _

theorem ShowRun.complete_showing {w : ShowRun} (h : w.sc.showing) : w.complete.sc.showing := by
  rw [ShowRun.complete_sc]
  exact Screen.completed_showing h

theorem ShowRun.fireDue_showing (n : Nat) {frame : Nat} {w : ShowRun} (h : w.sc.showing) :
    (ShowRun.fireDue n frame w).sc.showing := by
  induction n generalizing frame w with
  | zero => exact h
  | succ n ih =>
    unfold ShowRun.fireDue
    exact List.foldlRecOn (motive := fun v : ShowRun => v.sc.showing) _ _ h fun v hv e _ =>
      ShowRun.fireCue_showing (fun u hu => ih (ShowRun.complete_showing hu)) hv e

theorem ShowRun.finishChangeover_showing {w : ShowRun} (h : w.sc.showing) : w.finishChangeover.sc.showing :=
  ShowRun.fireDue_showing 3 (ShowRun.complete_showing h)

/-! ## Starting, holding and faults -/

theorem ShowRun.begin_showing {w : ShowRun} (h : w.sc.lawful) (hp : w.sc.phase = .starting) :
    w.begin.sc.showing := by
  unfold ShowRun.begin
  refine ShowRun.fireDue_showing 3 ⟨?_, .inl (by simp)⟩
  rw [Screen.lawful_iff] at h ⊢
  simp only [ShowRun.enter_sc, ShowRun.mod_sc, ShowRun.douser_sc, Screen.setHead, Screen.head]
  grind

theorem ShowRun.heldReady_lawful {w : ShowRun} (h : w.sc.lawful) (hp : w.sc.phase = .held) (x : Head) :
    (w.heldReady x).sc.lawful := by
  unfold ShowRun.heldReady
  split
  · next hon =>
    simp only [ShowRun.enter_sc, ShowRun.mod_sc, ShowRun.douser_sc]
    rw [Screen.lawful_iff] at h ⊢
    simp only [Screen.isOnScreen, Screen.onScreen?, decide_eq_true_eq] at hon
    cases x <;> simp only [Screen.setHead, Screen.head] <;> grind
  · exact (ShowRun.finishChangeover_showing ⟨h, .inr (.inr hp)⟩).1

theorem ShowRun.cameToRunning_lawful {w : ShowRun} (h : w.sc.lawful) (x : Head) : (w.cameToRunning x).sc.lawful := by
  unfold ShowRun.cameToRunning
  split
  · next hc => exact (ShowRun.begin_showing h hc.1).1
  · split
    · next hc => exact ShowRun.heldReady_lawful h hc.1 x
    · exact h

theorem ShowRun.lineReact_lawful {w : ShowRun} (h : w.sc.lawful) (x : Head) (before : HeadState) :
    (w.lineReact x before).sc.lawful := by
  unfold ShowRun.lineReact
  split
  · exact ShowRun.cameToRunning_lawful h x
  · exact h

theorem ShowRun.modHead_lawful {w : ShowRun} (h : w.sc.lawful) (x : Head) (f : HeadRec → HeadRec)
    (hd : (f (w.sc.head x)).douser = true → (w.sc.head x).douser = true)
    (hm : (f (w.sc.head x)).motor = true → (w.sc.head x).motor = true) : (w.modHead x f).sc.lawful := by
  rw [ShowRun.modHead_sc]
  exact Screen.lawful_setHead h x _ hd hm

theorem ShowRun.motorOff_lawful {w : ShowRun} (h : w.sc.lawful) (x : Head) : (w.motor x false).sc.lawful :=
  ShowRun.modHead_lawful h x _ (fun hd => hd) fun hm => by cases hm
theorem ShowRun.douserOff_lawful {w : ShowRun} (h : w.sc.lawful) (x : Head) : (w.douser x false).sc.lawful :=
  ShowRun.modHead_lawful h x _ (fun hd => by cases hd) fun hm => hm
theorem ShowRun.clearStop_lawful {w : ShowRun} (h : w.sc.lawful) (x : Head) : (w.clearStop x).sc.lawful :=
  ShowRun.modHead_lawful h x _ (fun hd => hd) fun hm => hm

theorem ShowRun.stopMarked_lawful {w : ShowRun} (h : w.sc.lawful) (x : Head) :
    (if (w.sc.head x).stopAtRunout then (w.motor x false).clearStop x else w).sc.lawful := by
  split
  · exact ShowRun.clearStop_lawful (ShowRun.motorOff_lawful h x) x
  · exact h

theorem ShowRun.startMotor_lawful {w : ShowRun} (h : w.sc.lawful) (x : Head)
    (hp : w.sc.phase ≠ .dark ∧ w.sc.phase ≠ .ended ∧ w.sc.phase ≠ .halted) : (w.startMotor x).sc.lawful := by
  rw [ShowRun.startMotor_sc]
  exact Screen.lawful_motorOn h x _ (fun hd => hd) hp

theorem ShowRun.endShow_lawful {w : ShowRun} (h : w.sc.lawful) (hp : w.sc.phase ≠ .starting) (cause : ShowCause) :
    (w.endShow cause).sc.lawful := by
  rw [ShowRun.endShow_sc]
  exact Screen.stopped_lawful w.sc (Screen.startTimer_off h hp) .ended (by decide)

theorem ShowRun.halt_lawful {w : ShowRun} (h : w.sc.lawful) (hp : w.sc.phase ≠ .starting) : w.halt.sc.lawful := by
  unfold ShowRun.halt
  rw [ShowRun.enter_sc, ShowRun.shutDown_sc]
  exact Screen.stopped_lawful w.sc (Screen.startTimer_off h hp) .halted (by decide)

theorem ShowRun.faultEvent_lawful {w : ShowRun} (h : w.sc.lawful) (x : Head) (cause : FaultCause) :
    (w.faultEvent x cause).sc.lawful := by
  unfold ShowRun.faultEvent
  extract_lets u v r
  have hu : u.sc.lawful := h
  have hv : v.sc.lawful := by
    dsimp only [v]
    split
    · exact ShowRun.douserOff_lawful hu x
    · exact hu
  have hr : r.sc.lawful := ShowRun.stopMarked_lawful hv x
  clear_value r
  split
  · next hp =>
    split
    · simp only [ShowRun.enter_sc, ShowRun.raise_sc, ShowRun.mod_sc]
      rw [Screen.lawful_iff] at hr ⊢
      grind
    · exact hr
  · next hp =>
    split
    · exact ShowRun.halt_lawful hr (by rw [hp]; decide)
    · split
      · exact ShowRun.motorOff_lawful hr x
      · exact hr
  · exact hr

/-! ## Head lines, frame pulses and timers -/

theorem ShowRun.atSpeed_lawful {w : ShowRun} (h : w.sc.lawful) (x : Head) (on : Bool) : (w.atSpeed x on).sc.lawful := by
  unfold ShowRun.atSpeed
  dsimp only
  split
  · exact h
  · split
    · exact ShowRun.lineReact_lawful (ShowRun.modHead_lawful h x _ (fun hd => hd) fun hm => hm) x _
    · split
      · exact ShowRun.faultEvent_lawful (ShowRun.modHead_lawful h x _ (fun hd => hd) fun hm => hm) x _
      · exact ShowRun.modHead_lawful h x _ (fun hd => hd) fun hm => hm

theorem ShowRun.lampOk_lawful {w : ShowRun} (h : w.sc.lawful) (x : Head) (on : Bool) : (w.lampOk x on).sc.lawful := by
  have hm : (w.modHead x fun r => { r with lampOk := on }).sc.lawful :=
    ShowRun.modHead_lawful h x _ (fun hd => hd) fun hm => hm
  unfold ShowRun.lampOk
  dsimp only
  split
  · exact h
  · split
    · exact ShowRun.lineReact_lawful hm x _
    · exact ShowRun.faultEvent_lawful hm x _

theorem ShowRun.darken_lawful {w : ShowRun} (h : w.sc.lawful) (x : Head) : (w.darken x).sc.lawful :=
  ShowRun.motorOff_lawful (ShowRun.douserOff_lawful h x) x

theorem ShowRun.reelRunsOut_lawful {w : ShowRun} (h : w.sc.lawful) (hp : w.sc.phase = .playing) (x : Head) :
    (w.reelRunsOut x).sc.lawful := by
  unfold ShowRun.reelRunsOut
  split
  · exact ShowRun.endShow_lawful h (by rw [hp]; decide) _
  · next i c _ =>
    have hm : ((w.raise (.changeoverEarly w.id w.sc.reel w.sc.frame)).mod fun sc => sc.markFired i).sc.showing :=
      ⟨h, .inl hp⟩
    have hf := ShowRun.changeover_showing (fun u hu => ShowRun.finishChangeover_showing hu) c.arg hm
    dsimp only
    split
    · exact ShowRun.darken_lawful hf.1 x
    · exact hf.1

theorem ShowRun.runoutOn_lawful {w : ShowRun} (h : w.sc.lawful) (x : Head) : (w.runoutOn x).sc.lawful := by
  unfold ShowRun.runoutOn
  extract_lets u
  have hs : u.sc.lawful := ShowRun.stopMarked_lawful h x
  clear_value u
  split
  · next hp => exact ShowRun.reelRunsOut_lawful hs hp.1 x
  · split
    · exact ShowRun.darken_lawful hs x
    · exact hs

theorem ShowRun.runout_lawful {w : ShowRun} (h : w.sc.lawful) (x : Head) (on : Bool) : (w.runout x on).sc.lawful := by
  have hm : (w.modHead x fun r => { r with runout := on }).sc.lawful :=
    ShowRun.modHead_lawful h x _ (fun hd => hd) fun hm => hm
  unfold ShowRun.runout
  dsimp only
  split
  · exact h
  · split
    · split
      · exact ShowRun.runoutOn_lawful hm x
      · exact hm
    · exact ShowRun.lineReact_lawful hm x _

theorem ShowRun.pulse_lawful {w : ShowRun} (h : w.sc.lawful) (x : Head) : (w.pulse x).sc.lawful := by
  by_cases hp : w.sc.phase = .playing ∧ w.sc.isOnScreen x = true
  · rw [ShowRun.pulse_counted w x hp.1 hp.2]
    have hs : ((w.mod Screen.counted).tell (.frameEvent w.sc.counted.f)).sc.showing := ⟨h, .inl hp.1⟩
    exact (ShowRun.fireDue_showing 3 hs).1
  · rw [ShowRun.pulse_uncounted w x hp]
    exact h

theorem ShowRun.leadReached_lawful {w : ShowRun} (h : w.sc.lawful) : w.leadReached.sc.lawful := by
  unfold ShowRun.leadReached
  split
  · next hp => exact ShowRun.startMotor_lawful h _ (by rw [hp.1]; decide)
  · exact h

theorem ShowRun.endBreak_lawful {w : ShowRun} (h : w.sc.lawful) (hp : w.sc.phase = .onBreak) :
    w.endBreak.sc.lawful := by
  have hs : w.sc.showing := ⟨h, .inr (.inl hp)⟩
  unfold ShowRun.endBreak
  split
  · exact (ShowRun.finishChangeover_showing hs).1
  · dsimp only
    split
    · exact (ShowRun.finishChangeover_showing (ShowRun.holdForIncoming_showing hs)).1
    · exact (ShowRun.holdForIncoming_showing hs).1

theorem ShowRun.countdownExpired_lawful {w : ShowRun} (h : w.sc.lawful) : w.countdownExpired.sc.lawful := by
  unfold ShowRun.countdownExpired
  split
  · next hp => exact ShowRun.endBreak_lawful h hp.1
  · exact h

/-- A start is taken back: head A's motor goes off and the screen is LOADED again (R13). -/
theorem ShowRun.startTakenBack_lawful {w : ShowRun} (h : w.sc.lawful) (hp : w.sc.phase = .starting) :
    ({ ((w.mod fun sc => { sc with startTimer := none }).motor .a false).sc with phase := .loaded } : Screen).lawful := by
  rw [Screen.lawful_iff] at h ⊢
  simp only [ShowRun.motor_sc, ShowRun.mod_sc, Screen.setHead, Screen.head]
  grind

theorem ShowRun.startExpired_lawful {w : ShowRun} (h : w.sc.lawful) : w.startExpired.sc.lawful := by
  unfold ShowRun.startExpired
  split
  · next hp =>
    dsimp only
    rw [ShowRun.enter_sc, ShowRun.raise_sc]
    exact ShowRun.startTakenBack_lawful h hp.1
  · exact h

/-! ## Requests -/

theorem ShowRun.load_lawful {w : ShowRun} (h : w.sc.lawful) (cs : CueSet) : (w.load cs).2.sc.lawful := by
  unfold ShowRun.load
  split
  · exact h
  · exact h
  · next hp =>
    split
    · simp only [ShowRun.enter_sc, ShowRun.mod_sc]
      rw [Screen.lawful_iff] at h ⊢
      grind
    · exact h
  · exact h

theorem ShowRun.takeStart_lawful {w : ShowRun} (h : w.sc.lawful) : w.takeStart.2.sc.lawful := by
  unfold ShowRun.takeStart
  split
  · next hp =>
    extract_lets u v
    have hv : v.sc.lawful ∧ v.sc.phase = .starting := by
      refine ⟨?_, by simp [v]⟩
      simp only [v, u, ShowRun.enter_sc, ShowRun.mod_sc, ShowRun.motor_sc, Screen.setHead, Screen.head]
      rw [Screen.lawful_iff] at h ⊢
      grind
    split
    · exact (ShowRun.begin_showing hv.1 hv.2).1
    · exact hv.1
  · exact h

theorem ShowRun.takeResume_lawful {w : ShowRun} (h : w.sc.lawful) : w.takeResume.2.sc.lawful := by
  unfold ShowRun.takeResume
  split
  · next hp => exact ShowRun.endBreak_lawful h hp
  · exact h

theorem ShowRun.takeStop_lawful {w : ShowRun} (h : w.sc.lawful) : w.takeStop.2.sc.lawful := by
  by_cases hs : w.sc.phase = .starting
  · rw [ShowRun.takeStop_starting w hs, ShowRun.enter_sc]
    exact ShowRun.startTakenBack_lawful h hs
  · by_cases hp : w.sc.phase ∈ [ShowState.playing, .onBreak, .held]
    · rw [ShowRun.takeStop_running w hp]
      exact ShowRun.endShow_lawful h hs .stopShow
    · rw [ShowRun.takeStop_elsewhere w (by cases hw : w.sc.phase <;> simp_all)]
      exact h

theorem ShowRun.takeClear_lawful {w : ShowRun} (h : w.sc.lawful) : w.takeClear.2.sc.lawful := by
  unfold ShowRun.takeClear
  split
  · next hp =>
    simp only [ShowRun.enter_sc, ShowRun.mod_sc]
    rw [Screen.lawful_iff] at h ⊢
    grind
  · exact h

theorem Screen.setFlag_lawful {sc : Screen} (h : sc.lawful) (f : ShowFlag) (isOpen : Bool) :
    (sc.setFlag f isOpen).lawful := by
  cases f <;> exact h

theorem ShowRun.setTimers_lawful {w : ShowRun} (h : w.sc.lawful) (start lead : Nat) :
    (w.setTimers start lead).sc.lawful := by
  have hm : (w.mod fun sc => { sc with startSetting := start, leadSetting := lead }).sc.lawful := h
  unfold ShowRun.setTimers
  dsimp only
  split
  · split
    · next hp => exact ShowRun.startMotor_lawful hm _ (by rw [hp.1]; decide)
    · exact hm
  · exact hm

theorem ShowRun.reset_lawful (w : ShowRun) : w.reset.sc.lawful := by
  unfold ShowRun.reset
  rw [Screen.lawful_iff]
  simp only [ShowRun.tell_sc, ShowRun.enter_sc, ShowRun.mod_sc, ShowRun.shutDown_sc, Screen.stopped, HeadRec.stopped]
  grind

theorem Screen.deviceReset_lawful (sc : Screen) : sc.deviceReset.lawful := by
  rw [Screen.lawful_iff]
  simp only [Screen.deviceReset, Screen.reset, HeadRec.reset]
  grind

theorem Screen.tick_lawful {sc : Screen} (h : sc.lawful) : sc.tick.lawful := by
  have ht : ∀ t, (tickTimer t).isSome = t.isSome := fun t => by cases t <;> rfl
  rw [Screen.lawful_iff] at h ⊢
  simpa only [Screen.tick, ht] using h

end Sys2Proof.Machine
end

section
/-! PROOFS. But for a reset no operation of a timeline takes a screen out of HALTED (R25). -/

namespace Sys2Proof.Machine

section halted
variable {w : ShowRun}

theorem ShowRun.lineReact_halted (h : w.sc.phase = .halted) (x : Head) (before : HeadState) :
    w.lineReact x before = w := by
  simp [ShowRun.lineReact, ShowRun.cameToRunning, h]

theorem ShowRun.modHead_phase (w : ShowRun) (x : Head) (f : HeadRec → HeadRec) :
    (w.modHead x f).sc.phase = w.sc.phase := by
  rw [ShowRun.modHead_sc, Screen.setHead_phase]

/-- Up to the show state's own rules, a fault event commands heads and reports. -/
theorem ShowRun.faultEvent_halted (h : w.sc.phase = .halted) (x : Head) (cause : FaultCause) :
    (w.faultEvent x cause).sc.phase = .halted := by
  unfold ShowRun.faultEvent
  extract_lets u v r
  have hv : v.sc.phase = .halted := by
    dsimp only [v]
    split
    · exact (ShowRun.modHead_phase _ _ _).trans h
    · exact h
  have hr : r.sc.phase = .halted := by
    dsimp only [r]
    split
    · exact (ShowRun.modHead_phase _ _ _).trans ((ShowRun.modHead_phase _ _ _).trans hv)
    · exact hv
  split
  · next hp => exact absurd (hr.symm.trans hp) (by decide)
  · next hp => exact absurd (hr.symm.trans hp) (by decide)
  · exact hr

theorem ShowRun.atSpeed_halted (h : w.sc.phase = .halted) (x : Head) (on : Bool) :
    (w.atSpeed x on).sc.phase = .halted := by
  unfold ShowRun.atSpeed
  dsimp only
  split
  · exact h
  · split
    · rw [ShowRun.lineReact_halted ((ShowRun.modHead_phase _ _ _).trans h), ShowRun.modHead_phase]
      exact h
    · split
      · exact ShowRun.faultEvent_halted ((ShowRun.modHead_phase _ _ _).trans h) x _
      · exact (ShowRun.modHead_phase _ _ _).trans h

theorem ShowRun.lampOk_halted (h : w.sc.phase = .halted) (x : Head) (on : Bool) :
    (w.lampOk x on).sc.phase = .halted := by
  have hm : (w.modHead x fun r => { r with lampOk := on }).sc.phase = .halted := (ShowRun.modHead_phase _ _ _).trans h
  unfold ShowRun.lampOk
  dsimp only
  split
  · exact h
  · split
    · rw [ShowRun.lineReact_halted hm]
      exact hm
    · exact ShowRun.faultEvent_halted hm x _

theorem ShowRun.runoutOn_halted (h : w.sc.phase = .halted) (x : Head) : (w.runoutOn x).sc.phase = .halted := by
  unfold ShowRun.runoutOn
  extract_lets u
  have hu : u.sc.phase = .halted := by
    dsimp only [u]
    split
    · exact (ShowRun.modHead_phase _ _ _).trans ((ShowRun.modHead_phase _ _ _).trans h)
    · exact h
  simp [hu]

theorem ShowRun.runout_halted (h : w.sc.phase = .halted) (x : Head) (on : Bool) :
    (w.runout x on).sc.phase = .halted := by
  have hm : (w.modHead x fun r => { r with runout := on }).sc.phase = .halted := (ShowRun.modHead_phase _ _ _).trans h
  unfold ShowRun.runout
  dsimp only
  split
  · exact h
  · split
    · split
      · exact ShowRun.runoutOn_halted hm x
      · exact hm
    · rw [ShowRun.lineReact_halted hm]
      exact hm

theorem ShowRun.pulse_halted (h : w.sc.phase = .halted) (x : Head) : w.pulse x = w :=
  ShowRun.pulse_uncounted w x (by simp [h])

theorem ShowRun.leadReached_halted (h : w.sc.phase = .halted) : w.leadReached = w := by
  simp [ShowRun.leadReached, h]

theorem ShowRun.countdownExpired_halted (h : w.sc.phase = .halted) : w.countdownExpired = w := by
  simp [ShowRun.countdownExpired, h]

theorem ShowRun.startExpired_halted (h : w.sc.phase = .halted) : w.startExpired = w := by
  simp [ShowRun.startExpired, h]

theorem ShowRun.load_halted (h : w.sc.phase = .halted) (cs : CueSet) : w.load cs = (false, w) := by
  simp [ShowRun.load, h]

theorem ShowRun.takeStart_halted (h : w.sc.phase = .halted) : w.takeStart = (false, w) := by
  simp [ShowRun.takeStart, h]

theorem ShowRun.takeResume_halted (h : w.sc.phase = .halted) : w.takeResume = (false, w) := by
  simp [ShowRun.takeResume, h]

theorem ShowRun.takeStop_halted (h : w.sc.phase = .halted) : w.takeStop = (false, w) := by
  simp [ShowRun.takeStop, h]

theorem ShowRun.takeClear_halted (h : w.sc.phase = .halted) : w.takeClear = (false, w) := by
  simp [ShowRun.takeClear, h]

theorem Screen.setFlag_halted {sc : Screen} (h : sc.phase = .halted) (f : ShowFlag) (isOpen : Bool) :
    (sc.setFlag f isOpen).phase = .halted := by
  cases f <;> exact h

theorem ShowRun.setTimers_halted (h : w.sc.phase = .halted) (start lead : Nat) :
    (w.setTimers start lead).sc.phase = .halted := by
  unfold ShowRun.setTimers
  dsimp only
  split
  · simp [h]
  · exact h

end halted

end Sys2Proof.Machine
end

section
/-! PROOFS. The laws of the yard through the slot test, the night's end, the menu, the kitchen, the runners, the resets and
the clock. -/

namespace Sys2Proof.Machine

section laws
variable {L : YardLaw} {y z : Yard}

/-! ## The slot test and the resets of the store (R197 to R200) -/

theorem Slot.record_visit {ρ : Type} (sl : Slot ρ) {r : ρ} (h : sl.visit.2.record? = some r) : sl.record? = some r := by
  unfold Slot.visit at h
  split at h
  · exact h
  all_goals
    exfalso
    revert h
    split <;> simp [Slot.record?, Slot.quarantine, *]

theorem Slot.record_emptied {ρ : Type} (sl : Slot ρ) : sl.emptied.record? = none := by
  unfold Slot.emptied
  split <;> simp [Slot.record?, Slot.release, *]

theorem Slot.record_deviceReset {ρ : Type} (sl : Slot ρ) : sl.deviceReset.record? = none := by
  unfold Slot.deviceReset
  split <;> simp [Slot.record?, Slot.release, Slot.quarantine, *]

theorem Slot.record_powerOn {ρ : Type} (sl : Slot ρ) : sl.powerOn.record? = none := rfl

theorem Yard.obeys.visitSlot (h : y.obeys L) {t : TableId} {i : Nat} : (y.visitSlot t i).2.obeys L := by
  cases t with
  | car => exact h.setCarSlot
  | bay => exact h.setBaySlot
  | order => exact h.setOrderSlot
  | menu =>
    refine h.setMenuSlot fun hL m hm => ?_
    subst hL
    exact Yard.balanced_of_item h (i := i) (Slot.record_visit _ hm)
  | ticket => exact h.setTicketSlot

theorem Yard.obeys.testVisit (h : y.obeys L) : y.testVisit.obeys L := by
  unfold Yard.testVisit
  split
  · exact h
  · dsimp only
    split
    · exact h.visitSlot.setTest
    · exact h.visitSlot.setTest.raise

/-- A yard whose loops are in canonical form and whose store and tables obey the laws by themselves. -/
theorem Yard.obeys_of_store {y : Yard} (hlasts : L.lasts) (hl : L = .tables → y.loops.toList.all LoopRec.canonical = true)
    (hst : L = .tables → y.store.canonical = true) (hm : ∀ e ∈ y.store.menu, e.2.record? = none)
    (ht : y.limits = [] ∧ y.spkMarks = [] ∧ y.rowCounts = [] ∧ y.lampMarks = []) : y.obeys L := by
  obtain ⟨hli, hs, hr, hla⟩ := ht
  cases L with
  | stock =>
    intro e he m hem
    rw [hm e he] at hem
    cases hem
  | tables => exact ⟨hl rfl, hst rfl, by rw [hli]; rfl, by rw [hs]; rfl, by rw [hr]; rfl, by rw [hla]; rfl⟩
  | raised => exact hlasts.elim

theorem LoopRec.deviceReset_canonical (l : LoopRec) : l.deviceReset.canonical = true := rfl

theorem Vector.all_map_canonical {n : Nat} (v : Vector LoopRec n) :
    (v.map LoopRec.deviceReset).toList.all LoopRec.canonical = true := by
  rw [List.all_eq_true]
  intro l hl
  rw [Vector.mem_toList_iff, Vector.mem_map] at hl
  obtain ⟨a, -, rfl⟩ := hl
  exact a.deviceReset_canonical

/-- Mapping every slot of the five tables keeps their canonical form. -/
theorem Yard.obeys.mapTables (h : y.obeys .tables) {f : Slot Car → Slot Car} {g : Slot Bay → Slot Bay}
    {k : Slot Order → Slot Order} {m : Slot MenuItem → Slot MenuItem} {n : Slot Ticket → Slot Ticket} :
    ({ Store.reset with
        cars := Tab.mapEntries Slot.blank (fun _ => f) y.store.cars
        bays := Tab.mapEntries Slot.blank (fun _ => g) y.store.bays
        orders := Tab.mapEntries Slot.blank (fun _ => k) y.store.orders
        menu := Tab.mapEntries Slot.blank (fun _ => m) y.store.menu
        tickets := Tab.mapEntries Slot.blank (fun _ => n) y.store.tickets } : Store).canonical = true := by
  obtain ⟨-, hst, -⟩ := h
  obtain ⟨hc, hb, ho, hm, ht⟩ := (Store.canonical_iff _).1 hst
  exact (Store.canonical_iff _).2 ⟨Tab.wf_mapEntries (fun _ => f) hc, Tab.wf_mapEntries (fun _ => g) hb,
    Tab.wf_mapEntries (fun _ => k) ho, Tab.wf_mapEntries (fun _ => m) hm, Tab.wf_mapEntries (fun _ => n) ht⟩

theorem Tab.mapEntries_records {ρ : Type} [DecidableEq ρ] {f : Slot ρ → Slot ρ} (hf : ∀ sl, (f sl).record? = none)
    (t : Tab (Slot ρ)) : ∀ e ∈ Tab.mapEntries Slot.blank (fun _ => f) t, e.2.record? = none := by
  intro e he
  obtain ⟨a, -, rfl⟩ := Tab.mem_mapEntries he
  exact hf _

theorem State.deviceReset_obeys {s : State} (hlasts : L.lasts) (h : s.yard.obeys L) : s.deviceReset.yard.obeys L :=
  Yard.obeys_of_store hlasts (fun _ => Vector.all_map_canonical _) (fun hL => by subst hL; exact Yard.obeys.mapTables h)
    (Tab.mapEntries_records Slot.record_deviceReset _) ⟨rfl, rfl, rfl, rfl⟩

theorem State.powerOn_obeys {s : State} (hlasts : L.lasts) (h : s.yard.obeys L) : s.powerOn.yard.obeys L :=
  Yard.obeys_of_store hlasts (fun _ => Vector.all_map_canonical _) (fun hL => by subst hL; exact Yard.obeys.mapTables h)
    (Tab.mapEntries_records Slot.record_powerOn _) ⟨rfl, rfl, rfl, rfl⟩

/-! ## The clock -/

theorem Yard.obeys.tick (h : y.obeys L) : y.tick.obeys L := by
  cases L with
  | stock => exact h
  | raised => exact h
  | tables =>
    obtain ⟨hl, hst, hli, hr⟩ := h
    refine ⟨?_, hst, Tab.wf_mapEntries (fun _ => tickTimer) hli, hr⟩
    rw [List.all_eq_true] at hl ⊢
    intro l hmem
    rw [Vector.mem_toList_iff] at hmem
    obtain ⟨a, ha, rfl⟩ := Vector.mem_map.1 hmem
    exact LoopRec.canonical_tick (hl a (Vector.mem_toList_iff.2 ha))

theorem Yard.obeys.withFreeIndex (h : y.obeys L) {n : Nat} : ({ y with freeIndex := n } : Yard).obeys L := by
  cases L <;> exact h
/-- The reports raised so far bind neither lasting law. -/
theorem Yard.obeys.withRaised (h : y.obeys L) (hlasts : L.lasts) {r : List Report} :
    ({ y with raised := r } : Yard).obeys L := by
  cases L with
  | stock => exact h
  | tables => exact h
  | raised => exact hlasts.elim
theorem Yard.obeys.raiseAll {s : State} (h : s.yard.obeys L) {rs : List Report} : (s.raiseAll rs).yard.obeys L := by
  cases L with
  | stock => exact h
  | tables => exact h
  | raised => exact h.trans (List.prefix_append _ _)
theorem Yard.obeys.withCapacity (h : y.obeys L) {c : Vector Nat 4} : ({ y with capacity := c } : Yard).obeys L := by
  cases L <;> exact h
theorem Yard.obeys.withCheckinSetting (h : y.obeys L) {n : Nat} : ({ y with checkinSetting := n } : Yard).obeys L := by
  cases L <;> exact h
theorem Yard.obeys.withTakeLimit (h : y.obeys L) {n : Nat} : ({ y with takeLimit := n } : Yard).obeys L := by
  cases L <;> exact h
theorem Yard.obeys.clearFaults (h : y.obeys L) :
    ({ y with store := { y.store with latch := none, faultCount := 0 } } : Yard).obeys L := by
  cases L <;> exact h

/-! ## The night's end (R136, R159, R176, R189) -/

theorem Yard.obeys.closeNightBay (h : y.obeys L) {bay : Nat} : (y.closeNightBay bay).obeys L := by
  have hr := h.readBayD (n := bay)
  unfold Yard.closeNightBay
  split
  · next heq =>
    rw [heq] at hr
    exact hr.modBay.setSpeaker
  · next heq => rw [heq] at hr; exact hr

theorem Yard.obeys.closeNightItem (h : y.obeys L) {i : Nat} : (y.closeNightItem i).obeys L :=
  h.moveTally balancedMove_closeNight

theorem Yard.obeys.closeNightCars (h : y.obeys L) : y.closeNightCars.obeys L := by
  unfold Yard.closeNightCars
  refine Yard.obeys.foldl ?_ fun _ _ h => h.placeAllSpeakers YardLaw.keptBy_drain
  refine Yard.obeys.foldl ?_ fun _ _ h => h.closeNightBay
  cases L with
  | stock => exact h
  | raised => exact h
  | tables =>
    obtain ⟨hl, hst, -, hr⟩ := h
    obtain ⟨hc, hb, ho, hm, ht⟩ := (Store.canonical_iff _).1 hst
    exact ⟨hl, (Store.canonical_iff _).2 ⟨Tab.wf_mapEntries (fun _ => Slot.emptied) hc, hb, ho, hm,
      Tab.wf_mapEntries (fun _ => Slot.emptied) ht⟩, rfl, hr⟩

/-- The bays from `k` on, all marked, are a table in canonical form. -/
theorem Tab.wfFrom_allMarked (n k : Nat) : Tab.wfFrom false k ((List.range' k n).map fun b => (b, true)) = true := by
  induction n generalizing k with
  | zero => rfl
  | succ n ih =>
    rw [List.range'_succ, List.map_cons, Tab.wfFrom, ih]
    simp

theorem Yard.obeys.closeNightOrders (h : y.obeys L) : y.closeNightOrders.obeys L := by
  unfold Yard.closeNightOrders
  refine Yard.obeys.foldl ?_ fun _ _ h => h.placeAllLamps YardLaw.keptBy_drain
  refine Yard.obeys.foldl ?_ fun _ _ h => h.closeNightItem
  cases L with
  | stock => exact h
  | raised => exact h
  | tables =>
    obtain ⟨hl, hst, hli, hs, -, -⟩ := h
    obtain ⟨hc, hb, ho, hm, ht⟩ := (Store.canonical_iff _).1 hst
    refine ⟨hl, (Store.canonical_iff _).2 ⟨hc, hb, Tab.wf_mapEntries (fun _ => Slot.emptied) ho, hm, ht⟩, hli, hs, rfl, ?_⟩
    dsimp only
    rw [List.range_eq_range']
    exact Tab.wfFrom_allMarked 1024 0

/-! ## The menu (R138 to R141, R157) -/

/-- A read that answers a whole record leaves the yard as it is, the record in its slot. -/
theorem Yard.readItem_whole {settle : Yard → Yard} {i : Nat} {m : MenuItem}
    (h : y.readItem settle i = (.whole m, z)) : z = y ∧ y.item? i = some m := by
  unfold Yard.readItem at h
  split at h
  · cases h
  · next hr _ =>
    obtain ⟨hm, rfl⟩ := Prod.mk.inj h
    rw [← Read.whole.inj hm]
    exact ⟨rfl, hr⟩
  · cases h

theorem menuSetBody_obeys {s : State} (h : s.yard.obeys L) (item : Nat) (station : StationId) (price : Nat)
    (available : Bool) (mode : StockMode) : (menuSetBody item station price available mode s).2.yard.obeys L := by
  have hr := h.readItemD (n := item)
  unfold menuSetBody
  extract_lets p reply
  split
  · next heq => rw [heq] at hr; exact hr
  · next heq =>
    rw [heq] at hr
    split
    · exact hr
    · refine Yard.obeys.setMenuSlot hr fun _ m hm => ?_
      rw [Slot.record_write] at hm
      rw [← Option.some.inj hm]
      exact newItem_balanced ..
  · next heq =>
    rw [heq] at hr
    split
    · exact Yard.obeys.modItem hr fun m _ => balancedMove_redefine _ _ _ _ m
    · split
      · exact Yard.obeys.modItem hr fun m _ hm => hm
      · exact hr

theorem MenuItem.balanced_load {m : MenuItem} (h : m.balanced) (hm : m.mode ≠ .unlimited) {k : Nat}
    (hk : k ≤ 65535 - m.loaded) : (m.load k).balanced := by
  rw [MenuItem.balanced_iff] at h ⊢
  unfold MenuItem.load
  cases hmode : m.mode <;> simp [hmode] at h hm ⊢
  omega

theorem restockBody_obeys {s : State} (h : s.yard.obeys L) (item qty : Nat) :
    (restockBody item qty s).2.yard.obeys L := by
  have hr := h.readItemD (n := item)
  unfold restockBody
  split
  · next m z heq =>
    obtain ⟨rfl, hm⟩ := Yard.readItem_whole heq
    split
    · exact h
    · next hmode =>
      have hmod : (s.yard.modItem item fun _ => m.load (min qty (65535 - m.loaded))).obeys L :=
        h.modItem fun x hx hb => by
          rw [hm] at hx
          rw [← Option.some.inj hx] at hb
          exact MenuItem.balanced_load hb hmode (Nat.min_le_right _ _)
      dsimp only
      exact hmod.raise.ite hmod
  · next heq => rw [heq] at hr; exact hr

theorem stockWasteBody_obeys {s : State} (h : s.yard.obeys L) (item qty : Nat) :
    (stockWasteBody item qty s).2.yard.obeys L := by
  have hr := h.readItemD (n := item)
  unfold stockWasteBody
  split
  · next m z heq =>
    rw [heq] at hr
    split
    · exact hr
    · exact Yard.obeys.modItem hr fun m _ => balancedMove_writeOff _ m
  · next heq => rw [heq] at hr; exact hr

theorem menuQueryBody_obeys {s : State} (h : s.yard.obeys L) (item : Nat) :
    (menuQueryBody item s).2.yard.obeys L := by
  have hr := h.readItemD (n := item)
  unfold menuQueryBody
  split
  all_goals
    next heq => rw [heq] at hr; exact hr

/-! ## Orders (R149, R151, R154, R157) -/

theorem orderEnterBody_obeys {s : State} (h : s.yard.obeys L) (bay : Nat) (mode : OrderMode) (lines : List WireLine) :
    (orderEnterBody bay mode lines s).2.yard.obeys L := by
  have hi := h.intake (site := s.site) (bay := bay) (mode := mode) (lines := lines) (source := .host)
  unfold orderEnterBody
  split
  · next heq =>
    rw [heq] at hi
    exact hi.placePassing
  · next heq =>
    rw [heq] at hi
    exact hi

theorem Yard.obeys.placeResting (h : y.obeys L) {car : Nat} : (y.placeResting car).obeys L := by
  unfold Yard.placeResting
  split
  · exact h.placeRestingNow
  · exact h

theorem forceCancelBody_obeys {s : State} (h : s.yard.obeys L) (order : Nat) :
    (forceCancelBody order s).2.yard.obeys L := by
  have hr := h.readOrderD (n := order)
  unfold forceCancelBody
  split
  · next heq =>
    rw [heq] at hr
    split
    · exact hr
    · exact hr.cancelOrder.placeResting
  · next heq => rw [heq] at hr; exact hr
  · next heq => rw [heq] at hr; exact hr

theorem orderQueryBody_obeys {s : State} (h : s.yard.obeys L) (order : Nat) :
    (orderQueryBody order s).2.yard.obeys L := by
  have hr := h.readOrderD (n := order)
  unfold orderQueryBody
  split
  all_goals
    next heq => rw [heq] at hr; exact hr

/-! ## The kitchen (R162 to R166) -/

theorem Yard.obeys.readLine (h : y.obeys L) {order item : Nat} : (y.readLine order item).2.obeys L := by
  have ho := h.readOrderD (n := order)
  unfold Yard.readLine
  split
  · next heq => rw [heq] at ho; exact ho
  · next heq => rw [heq] at ho; exact ho
  · next o u heq =>
    rw [heq] at ho
    have hc := Yard.obeys.readCarD (y := u) ho (n := o.car)
    split
    · next heq => rw [heq] at hc; exact hc
    · next rc v hne heq =>
      rw [heq] at hc
      have hi := Yard.obeys.readItemD (y := v) hc (n := item)
      split
      · next heq => rw [heq] at hi; exact hi
      · next heq => rw [heq] at hi; exact hi

theorem Yard.obeys.startLine (h : y.obeys L) {st : StationId} {r : LineRef} : (y.startLine st r).obeys L :=
  h.modOrder.markRef.modItem fun m _ => balancedMove_startMove _ m

theorem Yard.obeys.walkQueue (h : y.obeys L) {st : StationId} {rs : List LineRef} :
    (Yard.walkQueue st rs y).2.obeys L := by
  induction rs generalizing y with
  | nil => exact h
  | cons r rs ih =>
    have hr := h.readLine (order := r.order) (item := r.item)
    unfold Yard.walkQueue
    split
    · split
      · next heq => rw [heq] at hr; exact hr
      · next heq => rw [heq] at hr; exact ih hr
      · next heq =>
        rw [heq] at hr
        split
        · exact ih (Yard.obeys.settleGone hr)
        · exact Yard.obeys.startLine hr
    · exact ih h

theorem Yard.obeys.completeOrder (h : y.obeys L) {minute : Nat} {o : Order} {c : Car} :
    (y.completeOrder minute o c).obeys L := by
  unfold Yard.completeOrder
  extract_lets u v w
  have hw : w.obeys L := h.modOrder.joinTail.raise
  split
  · exact hw.markLamp YardLaw.keptBy_drain
  · exact hw

theorem Yard.obeys.finishLine (h : y.obeys L) {minute : Nat} {st : StationId} {r : LineRef} {o : Order} {c : Car} :
    (y.finishLine minute st r o c).2.obeys L := by
  unfold Yard.finishLine
  dsimp only
  split
  · exact h.modOrder.dequeue.completeOrder
  · exact h.modOrder.dequeue

theorem stationDoneBody_obeys {s : State} (h : s.yard.obeys L) (st : StationId) (order line : Nat) :
    (stationDoneBody st order line s).2.yard.obeys L := by
  unfold stationDoneBody
  split
  · exact h
  · next r _ =>
    have hr := h.readLine (order := order) (item := r.item)
    split
    · exact h
    · split
      · next heq => rw [heq] at hr; exact hr
      · next heq => rw [heq] at hr; exact hr
      · next heq =>
        rw [heq] at hr
        split
        · exact Yard.obeys.settleGone hr
        · exact Yard.obeys.finishLine hr

/-! ## The runners (R178 to R188) -/

theorem Yard.obeys.giveOrder (h : y.obeys L) {r : RunnerId} {o : Order} {c : Car} : (y.giveOrder r o c).obeys L :=
  h.leaveReady.modOrder.setRunner.raise

theorem Yard.obeys.walkReady (h : y.obeys L) {r : RunnerId} {f : TakeFilter} {es : List ReadyEntry} :
    (Yard.walkReady r f es y).2.obeys L := by
  induction es generalizing y with
  | nil => exact h
  | cons e es ih =>
    have ho := h.readOrderD (n := e.order)
    unfold Yard.walkReady
    split
    · split
      · next heq => rw [heq] at ho; exact ho
      · next heq => rw [heq] at ho; exact ih ho
      · next o u heq =>
        rw [heq] at ho
        have hc := Yard.obeys.readCarD (y := u) ho (n := o.car)
        split
        · split
          · next heq => rw [heq] at hc; exact hc
          · next heq => rw [heq] at hc; exact ih (Yard.obeys.voidOrder hc)
          · next heq => rw [heq] at hc; exact Yard.obeys.giveOrder hc
        · exact ih ho
    · exact ih h

theorem Yard.obeys.takeNamed (h : y.obeys L) {r : RunnerId} {n : Nat} : (Yard.takeNamed r n y).2.obeys L := by
  have ho := h.readOrderD (n := n)
  unfold Yard.takeNamed
  dsimp only
  split
  · next heq => rw [heq] at ho; exact ho
  · next heq => rw [heq] at ho; exact ho
  · next o u heq =>
    rw [heq] at ho
    have hc := Yard.obeys.readCarD (y := u) ho (n := o.car)
    split
    · split
      · next heq => rw [heq] at hc; exact hc
      · next heq => rw [heq] at hc; exact Yard.obeys.voidOrder hc
      · next heq => rw [heq] at hc; exact Yard.obeys.giveOrder hc
    · exact ho

theorem takeBody_obeys {s : State} (h : s.yard.obeys L) (r : RunnerId) (f : TakeFilter) :
    (takeBody r f s).2.yard.obeys L := by
  unfold takeBody
  split
  · exact h
  · cases f with
    | all => exact h.walkReady
    | order n => exact h.takeNamed
    | screen sc => exact h.walkReady

theorem Yard.obeys.readHeld (h : y.obeys L) {order : Nat} : (y.readHeld order).2.obeys L := by
  have ho := h.readOrderD (n := order)
  unfold Yard.readHeld
  split
  · next o u heq =>
    rw [heq] at ho
    have hc := Yard.obeys.readCarD (y := u) ho (n := o.car)
    split
    · next heq => rw [heq] at hc; exact hc
    · next heq => rw [heq] at hc; exact hc
    · next heq => rw [heq] at hc; exact hc
  · next heq => rw [heq] at ho; exact ho

theorem Yard.obeys.freeRunner (h : y.obeys L) {r : RunnerId} : (y.freeRunner r).obeys L := h.setRunner
theorem Yard.obeys.setLast (h : y.obeys L) {r : RunnerId} {n : Nat} : (y.setLast r n).obeys L := h.setRunner
theorem Yard.obeys.voidHeld (h : y.obeys L) {r : RunnerId} {o : Order} : (y.voidHeld r o).obeys L :=
  h.voidOrder.freeRunner
theorem Yard.obeys.backToPass (h : y.obeys L) {o : Order} {c : Car} : (y.backToPass o c).obeys L := h.modOrder.joinHead

theorem Yard.obeys.settleDelivery (h : y.obeys L) {r : RunnerId} {o : Order} {c : Car} :
    (y.settleDelivery r o c).obeys L := by
  have hf := (h.freeOrder (n := o.number)).dropOpenOrder (car := o.car) (order := o.number) |>.freeRunner (r := r)
  unfold Yard.settleDelivery
  dsimp only
  split
  · exact (hf.markLamp YardLaw.keptBy_drain).raise
  · exact hf.raise

theorem deliverHeld_obeys {s : State} (h : s.yard.obeys L) (r : RunnerId) (order : Nat) :
    (deliverHeld r order s).2.yard.obeys L := by
  have hr := h.readHeld (order := order)
  unfold deliverHeld
  split
  · next heq => rw [heq] at hr; exact Yard.obeys.settleDelivery hr
  · next heq => rw [heq] at hr; exact (Yard.obeys.voidHeld hr).raise
  · next heq => rw [heq] at hr; exact hr
  · next heq => rw [heq] at hr; exact hr

theorem returnHeld_obeys {s : State} (h : s.yard.obeys L) (r : RunnerId) (order : Nat) :
    (returnHeld r order s).2.yard.obeys L := by
  have hr := h.readHeld (order := order)
  unfold returnHeld
  split
  · next heq => rw [heq] at hr; exact (Yard.obeys.backToPass hr).freeRunner.raise
  · next heq => rw [heq] at hr; exact Yard.obeys.voidHeld hr
  · next heq => rw [heq] at hr; exact hr
  · next heq => rw [heq] at hr; exact hr

theorem Yard.obeys.takeExpired (h : y.obeys L) {r : RunnerId} : (y.takeExpired r).obeys L := by
  unfold Yard.takeExpired
  split
  · next order _ _ _ =>
    have hr := h.readHeld (order := order)
    split
    · next heq => rw [heq] at hr; exact (Yard.obeys.backToPass hr).freeRunner.setLast.raise
    · next heq => rw [heq] at hr; exact (Yard.obeys.voidHeld hr).setLast.raise
    · next heq => rw [heq] at hr; exact (Yard.obeys.voidHeld hr).setLast.raise
    · next heq => rw [heq] at hr; exact hr
  · exact h

theorem runnerStatusBody_obeys {s : State} (h : s.yard.obeys L) (r : RunnerId) :
    (runnerStatusBody r s).2.yard.obeys L := by
  unfold runnerStatusBody
  dsimp only
  split
  · exact h
  · next order _ =>
    have hr := h.readHeld (order := order)
    split
    all_goals
      next heq => rw [heq] at hr; exact hr

/-! ## The Car Table's requests and queries (R111, R132, R134) -/

theorem carRemoveBody_obeys {s : State} (h : s.yard.obeys L) (car : Nat) : (carRemoveBody car s).2.yard.obeys L := by
  have hc := h.readCarD (n := car)
  unfold carRemoveBody
  split
  · next c u heq =>
    rw [heq] at hc
    have hb : (u.readParkedBay c).2.obeys L := by
      unfold Yard.readParkedBay
      split
      · exact Yard.obeys.readBayD hc
      · exact hc
    split
    · next heq => rw [heq] at hb; exact hb
    · next heq => rw [heq] at hb; exact Yard.obeys.depart hb
  · next heq => rw [heq] at hc; exact hc
  · next heq => rw [heq] at hc; exact hc

theorem carQueryBody_obeys {s : State} (h : s.yard.obeys L) (car : Nat) : (carQueryBody car s).2.yard.obeys L := by
  have hc := h.readCarD (n := car)
  unfold carQueryBody
  split
  all_goals
    next heq => rw [heq] at hc; exact hc

theorem bayQueryBody_obeys {s : State} (h : s.yard.obeys L) (bay : Nat) : (bayQueryBody bay s).2.yard.obeys L := by
  have hb := h.readBayD (n := bay)
  unfold bayQueryBody
  split
  all_goals
    next heq => rw [heq] at hb; exact hb

theorem Yard.obeys.readField (h : y.obeys L) {sc : ScreenId} {is : List Nat} : (Yard.readField sc is y).2.obeys L := by
  induction is generalizing y with
  | nil => exact h
  | cons i is ih =>
    have hr := h.readCarSlot YardLaw.keptBy_drain (i := i)
    unfold Yard.readField
    split
    · next heq => rw [heq] at hr; exact ih hr
    · next heq => rw [heq] at hr; exact ih hr

theorem fieldStatusBody_obeys {s : State} (h : s.yard.obeys L) (sc : ScreenId) :
    (fieldStatusBody sc s).2.yard.obeys L :=
  h.readField

theorem ticketQueryBody_obeys {s : State} (h : s.yard.obeys L) (ticket : Nat) :
    (ticketQueryBody ticket s).2.yard.obeys L :=
  h.ticketReads

end laws

end Sys2Proof.Machine
end

section
/-! PROOFS. What an ordinary command leaves as it is, command by command: the queue, the link, the laws of every block, and a
screen in HALTED. -/

namespace Sys2Proof.Machine

/-- A command that resets one screen's timeline (R33). -/
def Instr.resets (c : Instr) (sc : ScreenId) : Prop :=
  ∃ tag, c = .resetScreen tag sc.val

/-- What the effect of an ordinary command keeps: the queue, the link, the laws of every block, and HALTED on every screen
that the command does not reset. -/
structure State.blockStep (c : Instr) (s t : State) : Prop where
  pending : t.pending = s.pending
  link : t.link = s.link
  screens : ∀ sc : ScreenId, s.screens[sc].lawful → t.screens[sc].lawful
  halted : ∀ sc : ScreenId, ¬Instr.resets c sc → s.screens[sc].phase = .halted → t.screens[sc].phase = .halted
  sound : ∀ (L : SoundLaw) (sc : ScreenId), s.sound[sc].obeys L → t.sound[sc].obeys L
  lanes : ∀ ln : LaneId, s.lanes[ln].lawful → t.lanes[ln].lawful
  yard : ∀ L : YardLaw, s.yard.obeys L → t.yard.obeys L

/-- A relation between the entries of a vector before and after one entry is set. -/
theorem Vector.set_related {α : Type} {n : Nat} {R : α → α → Prop} (hr : ∀ a, R a a) (v : Vector α n) (i : Fin n) {x : α}
    (h : R v[i] x) (k : Fin n) : R v[k] (v.set i x)[k] := by
  by_cases hk : k = i
  · subst hk
    simpa using h
  · have hne : (v.set i x)[k] = v[k] := by
      simp only [Fin.getElem_fin]
      exact Vector.getElem_set_ne _ _ fun he => hk (Fin.ext he.symm)
    rw [hne]
    exact hr _

section steps
variable {c : Instr} {s t u : State}

theorem State.blockStep.refl : s.blockStep c s :=
  ⟨rfl, rfl, fun _ h => h, fun _ _ h => h, fun _ _ h => h, fun _ h => h, fun _ h => h⟩

theorem State.blockStep.trans (h : s.blockStep c t) (k : t.blockStep c u) : s.blockStep c u :=
  ⟨k.pending.trans h.pending, k.link.trans h.link, fun sc hs => k.screens sc (h.screens sc hs),
    fun sc hc hs => k.halted sc hc (h.halted sc hc hs), fun L sc hs => k.sound L sc (h.sound L sc hs),
    fun ln hs => k.lanes ln (h.lanes ln hs), fun L hs => k.yard L (h.yard L hs)⟩

theorem State.blockStep.withYard {y : Yard} (hy : ∀ L, s.yard.obeys L → y.obeys L) :
    s.blockStep c { s with yard := y } :=
  ⟨rfl, rfl, fun _ h => h, fun _ _ h => h, fun _ _ h => h, fun _ h => h, hy⟩

theorem State.blockStep.onYard {f : Yard → Yard} (hf : ∀ L y, Yard.obeys y L → (f y).obeys L) :
    s.blockStep c (s.onYard f) :=
  .withYard fun L h => hf L _ h

theorem State.blockStep.onLoop {lp : ScreenId} {f : LoopRec → LoopRec}
    (hf : ∀ l : LoopRec, l.canonical = true → (f l).canonical = true) : s.blockStep c (s.onLoop lp f) :=
  .onYard fun _ _ h => h.modLoop (hf _)

theorem State.blockStep.setSound {sc : ScreenId} {x : Sound} (hx : ∀ L, s.sound[sc].obeys L → x.obeys L) :
    s.blockStep c { s with sound := s.sound.set sc x } :=
  ⟨rfl, rfl, fun _ h => h, fun _ _ h => h,
    fun L k => Vector.set_related (R := fun a b : Sound => a.obeys L → b.obeys L) (fun _ h => h) s.sound sc (hx L) k,
    fun _ h => h, fun _ h => h⟩

theorem State.blockStep.raiseAll {rs : List Report} : s.blockStep c (s.raiseAll rs) :=
  .withYard fun _ h => Yard.obeys.raiseAll h

theorem State.blockStep.onSound {sc : ScreenId} {f : SoundRun → SoundRun}
    (hf : ∀ L w, SoundRun.sd w |>.obeys L → (f w).sd.obeys L) : s.blockStep c (s.onSound sc f) :=
  (State.blockStep.setSound fun L h => hf L { id := sc, sd := s.sound[sc], out := [] } h).trans .raiseAll

theorem State.blockStep.onLane {ln : LaneId} {f : GateRun → GateRun} (hl : ∀ w : GateRun, w.lane.lawful → (f w).lane.lawful)
    (hy : ∀ L (w : GateRun), w.yard.obeys L → (f w).yard.obeys L) : s.blockStep c (s.onLane ln f) :=
  ⟨rfl, rfl, fun _ h => h, fun _ _ h => h, fun _ _ h => h,
    Vector.set_related (R := fun a b : Lane => a.lawful → b.lawful) (fun _ h => h) s.lanes ln
      (hl { id := ln, lane := s.lanes[ln], yard := s.yard, site := s.site }),
    fun L => hy L { id := ln, lane := s.lanes[ln], yard := s.yard, site := s.site }⟩

theorem State.blockStep.effect {sc : ScreenId} {e : Effect} : s.blockStep c (s.effect sc e) := by
  cases e with
  | report r => exact .raiseAll
  | notice st => exact .onSound fun L w h => SoundRun.obeys_notice h st
  | frameEvent f => exact .onSound (f := fun w => w.frameEvent f) fun L w h => SoundRun.obeys_frameEvent h f
  | release => exact .onYard fun L y h => h.releaseHeld

theorem State.blockStep.effects {sc : ScreenId} {es : List Effect} : s.blockStep c (es.foldl (State.effect sc) s) :=
  List.foldlRecOn (motive := fun t : State => s.blockStep c t) _ _ .refl fun _ h _ _ => h.trans .effect

theorem State.blockStep.onShow {sc : ScreenId} {f : ShowRun → ShowRun}
    (hl : ∀ w : ShowRun, w.sc.lawful → (f w).sc.lawful)
    (hh : ∀ w : ShowRun, ¬Instr.resets c sc → w.sc.phase = .halted → (f w).sc.phase = .halted) :
    s.blockStep c (s.onShow sc f) := by
  have hset : s.blockStep c { s with screens := s.screens.set sc (f (s.showRun sc)).sc } := by
    refine ⟨rfl, rfl, Vector.set_related (R := fun a b : Screen => a.lawful → b.lawful) (fun _ h => h) s.screens sc
      (hl (s.showRun sc)), fun k hk => ?_, fun _ _ h => h, fun _ h => h, fun _ h => h⟩
    by_cases he : k = sc
    · subst he
      intro hp
      simpa using hh (s.showRun k) hk hp
    · intro hp
      rw [← hp]
      simp only [Fin.getElem_fin]
      exact congrArg Screen.phase (Vector.getElem_set_ne _ _ fun h => he (Fin.ext h.symm))
  exact hset.trans .effects

end steps

/-! ## The bodies of requests -/

/-- A request's body that keeps what an ordinary command keeps. -/
def Instr.bodyKeeps (c : Instr) (body : State → Reply × State) : Prop :=
  ∀ s : State, s.blockStep c (body s).2

section bodies
variable {c : Instr}

theorem Instr.bodyKeeps.malformed : Instr.bodyKeeps c malformed := fun _ => .refl
theorem Instr.bodyKeeps.refused {r : Result} : Instr.bodyKeeps c (refused r) := fun _ => .refl

theorem Instr.bodyKeeps.withFin {n k : Nat} {body : Fin n → State → Reply × State}
    (h : ∀ i : Fin n, k = i.val → Instr.bodyKeeps c (body i)) : Instr.bodyKeeps c (withFin n k body) := by
  intro s
  unfold Machine.withFin finOf
  split
  · next i hi =>
    split at hi
    · obtain rfl := Option.some.inj hi
      exact h _ rfl s
    · cases hi
  · exact .refl

theorem Instr.bodyKeeps.inRun {body : State → Reply × State} (h : Instr.bodyKeeps c body) :
    Instr.bodyKeeps c (inRun body) := by
  intro s
  unfold Machine.inRun
  split
  · exact h s
  · exact .refl

theorem Instr.bodyKeeps.inRange {ok : Bool} {body : State → Reply × State} (h : Instr.bodyKeeps c body) :
    Instr.bodyKeeps c (inRange ok body) := by
  intro s
  unfold Machine.inRange
  split
  · exact h s
  · exact .refl

theorem Instr.bodyKeeps.withStation {k : Nat} {body : StationId → State → Reply × State}
    (h : ∀ st, Instr.bodyKeeps c (body st)) : Instr.bodyKeeps c (withStation k body) := by
  intro s
  unfold Machine.withStation
  split
  · exact h _ s
  · exact .refl

theorem Instr.bodyKeeps.withRunner {k : Nat} {body : RunnerId → State → Reply × State}
    (h : ∀ r, Instr.bodyKeeps c (body r)) : Instr.bodyKeeps c (withRunner k body) := by
  intro s
  unfold Machine.withRunner
  split
  · exact h _ s
  · exact .refl

theorem Instr.bodyKeeps.showBody {sc : ScreenId} {f : ShowRun → Bool × ShowRun}
    (hl : ∀ w : ShowRun, w.sc.lawful → (f w).2.sc.lawful)
    (hh : ∀ w : ShowRun, w.sc.phase = .halted → (f w).2.sc.phase = .halted) : Instr.bodyKeeps c (showBody sc f) := by
  intro s
  unfold Machine.showBody
  split
  · exact .onShow hl fun w _ => hh w
  · exact .refl

end bodies

end Sys2Proof.Machine
end

section
/-! PROOFS. Every command but those of the host link's own is an ordinary one: an event or a request whose effect keeps the
queue, the link and the laws of the blocks. -/

namespace Sys2Proof.Machine

/-- A command of the host link itself (R201, R204, R207 to R210), which is no operation on the other blocks alone. -/
def Instr.ofLink : Instr → Bool
  | .hostFrameDiscard => true
  | .hostFrameGap => true
  | .requestBusy _ _ => true
  | .linkFrameSent => true
  | .openNight _ => true
  | .closeNight _ => true
  | .deviceReset => true
  | .powerOn => true
  | _ => false

/-- An event, or a request with its KIND and TAG, whose effect keeps what an ordinary command keeps. -/
def Instr.ordinary (c : Instr) : Prop :=
  (∃ f, (∀ s, exec c s = event f s) ∧ (∀ k, requestOf c ≠ some k) ∧ ∀ s : State, s.blockStep c (f s)) ∨
    ∃ kind tag body, (∀ s, exec c s = request kind tag body s) ∧ (∀ k, requestOf c = some k → k = (kind, tag)) ∧
      Instr.bodyKeeps c body

section bodies
variable {c : Instr}

theorem Instr.ordinary.ofEvent {f : State → State} (he : ∀ s, exec c s = event f s)
    (hf : ∀ s : State, s.blockStep c (f s)) (hk : ∀ k, requestOf c ≠ some k := by intro _ h; cases h) :
    Instr.ordinary c :=
  .inl ⟨f, he, hk, hf⟩

theorem Instr.ordinary.ofRequest {kind tag : Nat} {body : State → Reply × State}
    (he : ∀ s, exec c s = request kind tag body s) (hb : Instr.bodyKeeps c body)
    (hk : ∀ k, requestOf c = some k → k = (kind, tag) := by intro _ h; cases h; rfl) : Instr.ordinary c :=
  .inr ⟨kind, tag, body, he, hk, hb⟩

/-! ## Bodies of the Show Timeline, the Sound Path and the lanes -/

theorem loadCuesBody_keeps (sc : ScreenId) (reel length : Nat) (cues : List Cue) :
    Instr.bodyKeeps c (loadCuesBody sc reel length cues) := by
  intro s
  unfold loadCuesBody
  split
  · split
    · exact .refl
    · exact .refl
    · exact .onShow (fun w h => ShowRun.load_lawful h _) fun w _ h => by rw [ShowRun.load_halted h]; exact h
  · exact .refl

theorem loadCues_keeps (screen reel length : Nat) (cues : List WireCue) :
    Instr.bodyKeeps c (withFin 4 screen fun sc s =>
      match cuesOf cues with
      | some list => inRun (loadCuesBody sc reel length list) s
      | none => malformed s) := by
  refine .withFin fun sc _ s => ?_
  split
  · exact Instr.bodyKeeps.inRun (loadCuesBody_keeps _ _ _ _) s
  · exact .refl

theorem flagSet_keeps (screen flag value : Nat) : Instr.bodyKeeps c (withFin 4 screen fun sc s =>
    match ShowFlag.of flag, openOf value with
    | some f, some v => inRun (fun s => done (s.onShow sc fun w => w.mod fun r => r.setFlag f v)) s
    | _, _ => malformed s) := by
  refine .withFin fun sc _ s => ?_
  split
  · next f v _ _ =>
    refine Instr.bodyKeeps.inRun (fun s => ?_) s
    exact .onShow (f := fun w => w.mod fun r => r.setFlag f v) (fun w h => Screen.setFlag_lawful h f v)
      fun w _ h => Screen.setFlag_halted h f v
  · exact .refl

theorem source_keeps (screen src : Nat) : Instr.bodyKeeps c (withFin 4 screen fun sc s =>
    match Source.of src with
    | some new => inRun (fun s => done (s.onSound sc fun w => w.request new .host)) s
    | none => malformed s) := by
  refine .withFin fun sc _ s => ?_
  split
  · refine Instr.bodyKeeps.inRun (fun s => ?_) s
    exact .onSound fun L w h => SoundRun.obeys_request h _ _
  · exact .refl

theorem Sound.obeys_setTarget {L : SoundLaw} {sd : Sound} (h : sd.obeys L) (level : Nat) :
    ({ sd with target := min level 320 } : Sound).obeys L := by
  cases L with
  | ranges =>
    obtain ⟨hv, hl, -, hr⟩ := h
    exact ⟨hv, hl, Nat.min_le_right _ _, hr⟩
  | rings => exact h

theorem laneSetBody_keeps (ln : LaneId) (dwell stall : Nat) (exitRead : Option Nat) :
    Instr.bodyKeeps c (laneSetBody ln dwell stall exitRead) := by
  intro s
  unfold laneSetBody
  dsimp only
  split
  · split
    · dsimp only
      exact .onLane (by exact fun _ h => h) (by exact fun _ _ h => h)
    · exact .refl
  · dsimp only
    exact .onLane (by exact fun _ h => h) (by exact fun _ _ h => h)

theorem State.blockStep.resetScreen {s : State} {sc : ScreenId} (hc : Instr.resets c sc) :
    s.blockStep c (s.resetScreen sc) :=
  (State.blockStep.setSound fun _ h => Sound.obeys_screenReset h).trans
    (.onShow (fun w _ => w.reset_lawful) fun _ hn _ => absurd hc hn)

theorem resetScreen_keeps {screen : Nat} (hc : ∀ sc : ScreenId, screen = sc.val → Instr.resets c sc) :
    Instr.bodyKeeps c (withFin 4 screen fun sc s => done (s.resetScreen sc)) :=
  .withFin fun sc he s => by
    dsimp only [done]
    exact .resetScreen (hc sc he)

/-! ## Bodies of the yard's blocks -/

/-- A body that changes only the yard, and keeps its laws. -/
theorem Instr.bodyKeeps.ofYard {body : State → Reply × State}
    (hb : ∀ s, ∃ y, (body s).2 = { s with yard := y })
    (hy : ∀ (L : YardLaw) (s : State), s.yard.obeys L → (body s).2.yard.obeys L) : Instr.bodyKeeps c body := by
  intro s
  obtain ⟨y, he⟩ := hb s
  rw [he]
  exact .withYard fun L h => by simpa [he] using hy L s h

theorem postMap_keeps (loop : Nat) (presence : List Nat) : Instr.bodyKeeps c (withFin 4 loop fun lp s =>
    match flagsOf presence with
    | some bits => if bits.length = 128 then done (s.onYard fun y => y.postMap lp bits) else malformed s
    | none => malformed s) := by
  refine .withFin fun lp _ s => ?_
  split
  · split
    · exact .onYard fun L y h => h.postMap
    · exact .refl
  · exact .refl

theorem sendBody_keeps (lp : ScreenId) (post : Nat) (kind : SlotKind) (v0 v1 : Option Nat) (prio : Nat) :
    Instr.bodyKeeps c (sendBody lp post kind v0 v1 prio) := by
  intro s
  unfold sendBody
  split
  · exact .refl
  · exact .onYard fun L y h => h.putItem

theorem send_keeps (loop post kind enable0 value0 enable1 value1 prio : Nat) :
    Instr.bodyKeeps c (withFin 4 loop fun lp s =>
      match SlotKind.of kind, flagOf enable0, flagOf enable1 with
      | some k, some e0, some e1 =>
        if k.admits value0 && k.admits value1 then
          inRange (decide (post ≤ 127) && (e0 || e1))
            (sendBody lp post k (if e0 then some value0 else none) (if e1 then some value1 else none) prio) s
        else malformed s
      | _, _, _ => malformed s) := by
  refine .withFin fun lp _ s => ?_
  split
  · split
    · exact Instr.bodyKeeps.inRange (sendBody_keeps _ _ _ _ _ _) s
    · exact .refl
  · exact .refl

theorem abortBody_keeps (lp : ScreenId) (i : Fin 16) : Instr.bodyKeeps c (abortBody lp i) := by
  intro s
  unfold abortBody
  split
  · exact .refl
  · exact .refl
  · exact .onYard fun L y h => (h.modLoop fun hl => hl).afterFreeD

theorem sendAbort_keeps (loop slot : Nat) : Instr.bodyKeeps c (withFin 4 loop fun lp s =>
    match finOf 16 slot with
    | some i => abortBody lp i s
    | none => refused .range s) := by
  refine .withFin fun lp _ s => ?_
  split
  · exact abortBody_keeps _ _ s
  · exact .refl

theorem fieldSummary_keeps (loop : Nat) : Instr.bodyKeeps c (withFin 4 loop fun lp s =>
    ({ result := .ok, indication := .none,
       fields := [.list 1 ((s.yard.loops[lp]).rows.map fun e => u8 e.1)] },
      s.onLoop lp fun l => { l with rows := [] })) := by
  refine .withFin fun lp _ s => ?_
  refine .onLoop fun l h => ?_
  rw [LoopRec.canonical_iff] at h ⊢
  exact ⟨h.1, rfl⟩

theorem loopSet_keeps (loop window lendAllowed lend : Nat) : Instr.bodyKeeps c (withFin 4 loop fun lp s =>
    match flagOf lendAllowed with
    | some allow =>
      let w := clampTimer 5 100 window
      let t := clampTimer 60 3600 lend
      (Reply.setting (decide (w ≠ window ∨ t ≠ lend)) (u8 w ++ flag allow ++ u16 t),
        s.onLoop lp fun l => { l with windowSetting := w, lendAllowed := allow, lendSetting := t })
    | none => malformed s) := by
  refine .withFin fun lp _ s => ?_
  split
  · exact .onLoop fun l h => h
  · exact .refl

theorem sitePlanBody_keeps (sc : ScreenId) (plan : List Bool) : Instr.bodyKeeps c (sitePlanBody sc plan) := by
  refine .ofYard (fun s => ⟨_, rfl⟩) fun L s h => ?_
  have hp := h.sitePlan (sc := sc) (plan := plan)
  unfold sitePlanBody
  generalize s.yard.sitePlan sc plan = r at hp ⊢
  exact hp

theorem sitePlan_keeps (screen : Nat) (bays : List Nat) : Instr.bodyKeeps c (withFin 4 screen fun sc s =>
    match planOf bays with
    | some plan => if plan.length = 256 then sitePlanBody sc plan s else malformed s
    | none => malformed s) := by
  refine .withFin fun sc _ s => ?_
  split
  · split
    · exact sitePlanBody_keeps _ _ s
    · exact .refl
  · exact .refl

theorem carRemoveBody_keeps (car : Nat) : Instr.bodyKeeps c (carRemoveBody car) := by
  refine .ofYard (fun s => ?_) fun L s h => carRemoveBody_obeys h car
  unfold carRemoveBody
  repeat' split
  all_goals exact ⟨_, rfl⟩

theorem carQueryBody_keeps (car : Nat) : Instr.bodyKeeps c (carQueryBody car) := by
  refine .ofYard (fun s => ?_) fun L s h => carQueryBody_obeys h car
  unfold carQueryBody
  split <;> exact ⟨_, rfl⟩

theorem bayQueryBody_keeps (bay : Nat) : Instr.bodyKeeps c (bayQueryBody bay) := by
  refine .ofYard (fun s => ?_) fun L s h => bayQueryBody_obeys h bay
  unfold bayQueryBody
  split <;> exact ⟨_, rfl⟩

theorem menuSetBody_keeps (item : Nat) (station : StationId) (price : Nat) (available : Bool) (mode : StockMode) :
    Instr.bodyKeeps c (menuSetBody item station price available mode) := by
  refine .ofYard (fun s => ?_) fun L s h => menuSetBody_obeys h ..
  unfold menuSetBody
  dsimp only
  repeat' split
  all_goals exact ⟨_, rfl⟩

theorem menuSet_keeps (item station price available mode : Nat) : Instr.bodyKeeps c (fun s =>
    match flagOf available, StockMode.of mode with
    | some a, some md =>
      match finOf 6 station with
      | some st => inRange (decide (item ≤ 63)) (menuSetBody item st price a md) s
      | none => refused .range s
    | _, _ => malformed s) := by
  intro s
  dsimp only
  split
  · split
    · exact Instr.bodyKeeps.inRange (menuSetBody_keeps _ _ _ _ _) s
    · exact .refl
  · exact .refl

theorem restockBody_keeps (item qty : Nat) : Instr.bodyKeeps c (restockBody item qty) := by
  refine .ofYard (fun s => ?_) fun L s h => restockBody_obeys h ..
  unfold restockBody
  split
  · split <;> exact ⟨_, rfl⟩
  · exact ⟨_, rfl⟩

theorem stockWasteBody_keeps (item qty : Nat) : Instr.bodyKeeps c (stockWasteBody item qty) := by
  refine .ofYard (fun s => ?_) fun L s h => stockWasteBody_obeys h ..
  unfold stockWasteBody
  split
  · split <;> exact ⟨_, rfl⟩
  · exact ⟨_, rfl⟩

theorem menuQueryBody_keeps (item : Nat) : Instr.bodyKeeps c (menuQueryBody item) := by
  refine .ofYard (fun s => ?_) fun L s h => menuQueryBody_obeys h ..
  unfold menuQueryBody
  split <;> exact ⟨_, rfl⟩

theorem orderEnterBody_keeps (bay : Nat) (mode : OrderMode) (lines : List WireLine) :
    Instr.bodyKeeps c (orderEnterBody bay mode lines) := by
  refine .ofYard (fun s => ?_) fun L s h => orderEnterBody_obeys h ..
  unfold orderEnterBody
  split <;> exact ⟨_, rfl⟩

theorem orderEnter_keeps (bay mode : Nat) (lines : List WireLine) : Instr.bodyKeeps c (fun s =>
    match OrderMode.of mode with
    | some md =>
      if 1 ≤ lines.length ∧ lines.length ≤ 8 then
        inRange (decide (bay ≤ 1023) && lines.all WireLine.enterable) (orderEnterBody bay md lines) s
      else malformed s
    | none => malformed s) := by
  intro s
  dsimp only
  split
  · split
    · exact Instr.bodyKeeps.inRange (orderEnterBody_keeps _ _ _) s
    · exact .refl
  · exact .refl

theorem forceCancelBody_keeps (order : Nat) : Instr.bodyKeeps c (forceCancelBody order) := by
  refine .ofYard (fun s => ?_) fun L s h => forceCancelBody_obeys h order
  unfold forceCancelBody
  split
  · split <;> exact ⟨_, rfl⟩
  · exact ⟨_, rfl⟩
  · exact ⟨_, rfl⟩

theorem orderQueryBody_keeps (order : Nat) : Instr.bodyKeeps c (orderQueryBody order) := by
  refine .ofYard (fun s => ?_) fun L s h => orderQueryBody_obeys h order
  unfold orderQueryBody
  split <;> exact ⟨_, rfl⟩

theorem stationDoneBody_keeps (st : StationId) (order line : Nat) :
    Instr.bodyKeeps c (stationDoneBody st order line) := by
  refine .ofYard (fun s => ?_) fun L s h => stationDoneBody_obeys h st order line
  unfold stationDoneBody
  repeat' split
  all_goals exact ⟨_, rfl⟩

theorem takeBody_keeps (r : RunnerId) (f : TakeFilter) : Instr.bodyKeeps c (takeBody r f) := by
  refine .ofYard (fun s => ?_) fun L s h => takeBody_obeys h r f
  unfold takeBody
  split <;> exact ⟨_, rfl⟩

theorem take_keeps (runner filter arg : Nat) : Instr.bodyKeeps c (fun s =>
    match filterOf filter arg with
    | .malformed => malformed s
    | .range => refused .range s
    | .ok f => withRunner runner (fun r => inRun (takeBody r f)) s) := by
  intro s
  dsimp only
  split
  · exact .refl
  · exact .refl
  · exact Instr.bodyKeeps.withRunner (fun r => .inRun (takeBody_keeps r _)) s

theorem deliverHeld_keeps (r : RunnerId) (order : Nat) : Instr.bodyKeeps c (deliverHeld r order) := by
  refine .ofYard (fun s => ?_) fun L s h => deliverHeld_obeys h r order
  unfold deliverHeld
  split <;> exact ⟨_, rfl⟩

theorem returnHeld_keeps (r : RunnerId) (order : Nat) : Instr.bodyKeeps c (returnHeld r order) := by
  refine .ofYard (fun s => ?_) fun L s h => returnHeld_obeys h r order
  unfold returnHeld
  split <;> exact ⟨_, rfl⟩

theorem settleBody_keeps {held : RunnerId → Nat → State → Reply × State} (r : RunnerId) (order : Nat)
    (h : Instr.bodyKeeps c (held r order)) : Instr.bodyKeeps c (settleBody held r order) := by
  intro s
  unfold settleBody
  split
  · exact h s
  · exact .refl

theorem runnerStatusBody_keeps (r : RunnerId) : Instr.bodyKeeps c (runnerStatusBody r) := by
  refine .ofYard (fun s => ?_) fun L s h => runnerStatusBody_obeys h r
  unfold runnerStatusBody
  dsimp only
  repeat' split
  all_goals exact ⟨_, rfl⟩

theorem storeTestBody_keeps (t : TableId) : Instr.bodyKeeps c (storeTestBody t) := by
  intro s
  unfold storeTestBody
  split
  · exact .refl
  · split
    · exact .refl
    · exact .onYard fun L y h => h.setTest

theorem storeTest_keeps (table : Nat) : Instr.bodyKeeps c (fun s =>
    match TableId.of table with
    | some t => storeTestBody t s
    | none => malformed s) := by
  intro s
  dsimp only
  split
  · exact storeTestBody_keeps _ s
  · exact .refl

end bodies

/-! ## The commands -/

/-- Every command but those of the host link's own is ordinary. -/
theorem Instr.ordinary_of_not_ofLink (c : Instr) (hc : Instr.ofLink c = false) : Instr.ordinary c := by
  cases c with
  | atSpeedChange sc h on =>
    exact .ofEvent (fun _ => rfl) fun s => .onShow (fun w hw => ShowRun.atSpeed_lawful hw h on)
      fun w _ hw => ShowRun.atSpeed_halted hw h on
  | runoutChange sc h on =>
    exact .ofEvent (fun _ => rfl) fun s => .onShow (fun w hw => ShowRun.runout_lawful hw h on)
      fun w _ hw => ShowRun.runout_halted hw h on
  | lampOkChange sc h on =>
    exact .ofEvent (fun _ => rfl) fun s => .onShow (fun w hw => ShowRun.lampOk_lawful hw h on)
      fun w _ hw => ShowRun.lampOk_halted hw h on
  | framePulse sc h =>
    exact .ofEvent (fun _ => rfl) fun s => .onShow (fun w hw => ShowRun.pulse_lawful hw h)
      fun w _ hw => by rw [ShowRun.pulse_halted hw]; exact hw
  | startTimerExpiry sc =>
    exact .ofEvent (fun _ => rfl) fun s => .onShow (fun w hw => ShowRun.startExpired_lawful hw)
      fun w _ hw => by rw [ShowRun.startExpired_halted hw]; exact hw
  | motorLeadReached sc =>
    exact .ofEvent (fun _ => rfl) fun s => .onShow (fun w hw => ShowRun.leadReached_lawful hw)
      fun w _ hw => by rw [ShowRun.leadReached_halted hw]; exact hw
  | breakCountdownExpiry sc =>
    exact .ofEvent (fun _ => rfl) fun s => .onShow (fun w hw => ShowRun.countdownExpired_lawful hw)
      fun w _ hw => by rw [ShowRun.countdownExpired_halted hw]; exact hw
  | loadCues tag screen reel length cues => exact .ofRequest (fun _ => rfl) (loadCues_keeps screen reel length cues)
  | start tag screen =>
    exact .ofRequest (fun _ => rfl) (.withFin fun sc _ => .inRun (.showBody (fun w hw => ShowRun.takeStart_lawful hw)
      fun w hw => by rw [ShowRun.takeStart_halted hw]; exact hw))
  | resume tag screen =>
    exact .ofRequest (fun _ => rfl) (.withFin fun sc _ => .inRun (.showBody (fun w hw => ShowRun.takeResume_lawful hw)
      fun w hw => by rw [ShowRun.takeResume_halted hw]; exact hw))
  | stopShow tag screen =>
    exact .ofRequest (fun _ => rfl) (.withFin fun sc _ => .inRun (.showBody (fun w hw => ShowRun.takeStop_lawful hw)
      fun w hw => by rw [ShowRun.takeStop_halted hw]; exact hw))
  | clearShow tag screen =>
    exact .ofRequest (fun _ => rfl) (.withFin fun sc _ => .showBody (fun w hw => ShowRun.takeClear_lawful hw)
      fun w hw => by rw [ShowRun.takeClear_halted hw]; exact hw)
  | flagSet tag screen flag value => exact .ofRequest (fun _ => rfl) (flagSet_keeps screen flag value)
  | lights tag screen level =>
    exact .ofRequest (fun _ => rfl) (.withFin fun sc _ => .inRun fun s => .onShow
      (f := fun w => w.mod fun r => { r with lights := min level 3 }) (fun _ h => h) fun _ _ h => h)
  | timelineSet tag screen start lead =>
    exact .ofRequest (fun _ => rfl) (.withFin fun sc _ s => .onShow (fun w hw => ShowRun.setTimers_lawful hw _ _)
      fun w _ hw => ShowRun.setTimers_halted hw _ _)
  | showStatus tag screen => exact .ofRequest (fun _ => rfl) (.withFin fun sc _ s => .refl)
  | resetScreen tag screen =>
    exact .ofRequest (fun _ => rfl) (resetScreen_keeps fun sc he => ⟨tag, by rw [he]⟩)
  | soundLinkByte sc b => exact .ofEvent (fun _ => rfl) fun s => .onSound fun L w h => Sound.obeys_takeByte h b
  | soundBlockGap sc => exact .ofEvent (fun _ => rfl) fun s => .onSound fun L w h => Sound.obeys_takeGap h
  | outputTick sc => exact .ofEvent (fun _ => rfl) fun s => .onSound fun L w h => SoundRun.obeys_tick h
  | coastGapExpiry sc => exact .ofEvent (fun _ => rfl) fun s => .onSound fun L w h => SoundRun.obeys_coastGapExpired h
  | coastLimitExpiry sc =>
    exact .ofEvent (fun _ => rfl) fun s => .onSound fun L w h => SoundRun.obeys_coastLimitExpired h
  | source tag screen src => exact .ofRequest (fun _ => rfl) (source_keeps screen src)
  | servoSet tag screen offset window deadband gain rmax limit =>
    exact .ofRequest (fun _ => rfl) (.withFin fun sc _ s => .onSound fun L w h =>
      SoundRun.obeys_modServo h fun hv => Servo.lawful_setSettings hv (servoSettings_inRange ..))
  | levelSet tag screen level =>
    exact .ofRequest (fun _ => rfl) (.withFin fun sc _ s =>
      .onSound (f := fun w => w.mod fun sd => { sd with target := min level 320 }) fun L w h => Sound.obeys_setTarget h level)
  | soundStatus tag screen => exact .ofRequest (fun _ => rfl) (.withFin fun sc _ s => .refl)
  | transactionStart lp => exact .ofEvent (fun _ => rfl) fun s => .onLoop fun l h => LoopRec.canonical_start h
  | headerSent lp => exact .ofEvent (fun _ => rfl) fun s => .onLoop fun l h => LoopRec.canonical_openWindow h
  | loopResponse lp bytes => exact .ofEvent (fun _ => rfl) fun s => .onYard fun L y h => h.takeResponse
  | responseWindowExpiry lp => exact .ofEvent (fun _ => rfl) fun s => .onYard fun L y h => h.windowExpired
  | loopStrayBytes lp bytes => exact .ofEvent (fun _ => rfl) fun s => .refl
  | recoveryTimerExpiry lp post =>
    exact .ofEvent (fun _ => rfl) fun s => .onLoop fun l h => LoopRec.canonical_recoveryExpired h post
  | lendRequestRise lp => exact .ofEvent (fun _ => rfl) fun s => .onYard fun L y h => h.requestRises
  | lendRequestFall lp => exact .ofEvent (fun _ => rfl) fun s => .onYard fun L y h => h.requestFalls
  | lendTimerExpiry lp => exact .ofEvent (fun _ => rfl) fun s => .onYard fun L y h => h.lendExpired
  | lentResponseHeard lp bytes => exact .ofEvent (fun _ => rfl) fun s => .onYard fun L y h => h.hear
  | postMap tag loop presence => exact .ofRequest (fun _ => rfl) (postMap_keeps loop presence)
  | send tag loop post kind enable0 value0 enable1 value1 prio =>
    exact .ofRequest (fun _ => rfl) (send_keeps loop post kind enable0 value0 enable1 value1 prio)
  | sendAbort tag loop slot => exact .ofRequest (fun _ => rfl) (sendAbort_keeps loop slot)
  | fieldSummary tag loop => exact .ofRequest (fun _ => rfl) (fieldSummary_keeps loop)
  | loopSet tag loop window lendAllowed lend => exact .ofRequest (fun _ => rfl) (loopSet_keeps loop window lendAllowed lend)
  | loopStatus tag loop => exact .ofRequest (fun _ => rfl) (.withFin fun lp _ s => .refl)
  | postStatus tag loop post => exact .ofRequest (fun _ => rfl) (.withFin fun lp _ => .inRange fun s => .refl)
  | loopReset tag loop =>
    exact .ofRequest (fun _ => rfl) (.withFin fun lp _ s => .onYard
      (f := fun y => (y.modLoop lp LoopRec.loopReset).resendLoop Yard.drain lp) fun L y h =>
        (h.modLoop LoopRec.canonical_loopReset).resendLoop YardLaw.keptBy_drain)
  | armingLoopChange ln d =>
    exact .ofEvent (fun _ => rfl) fun s => .onLane (fun w h => GateRun.arming_lawful h d)
      fun L w h => GateRun.arming_obeys h d
  | barrierLoopChange ln d =>
    exact .ofEvent (fun _ => rfl) fun s => .onLane (fun w h => GateRun.barrierLoop_lawful h d)
      fun L w h => GateRun.barrierLoop_obeys h d
  | barrierFeedbackChange ln f =>
    exact .ofEvent (fun _ => rfl) fun s => .onLane (fun w h => GateRun.feedback_lawful h f)
      fun L w h => GateRun.feedback_obeys h f
  | barrierTravelExpiry ln =>
    exact .ofEvent (fun _ => rfl) fun s => .onLane (fun w h => GateRun.travelExpired_lawful h)
      fun L w h => GateRun.travelExpired_obeys h
  | credential ln cr =>
    exact .ofEvent (fun _ => rfl) fun s => .onLane (fun w h => GateRun.credential_lawful h cr)
      fun L w h => GateRun.credential_obeys h cr
  | dwellExpiry ln =>
    exact .ofEvent (fun _ => rfl) fun s => .onLane (fun w h => GateRun.dwellExpired_lawful h)
      fun L w h => GateRun.dwellExpired_obeys h
  | stallTimerExpiry ln =>
    exact .ofEvent (fun _ => rfl) fun s => .onLane (fun w h => GateRun.stallExpired_lawful h)
      fun L w h => GateRun.stallExpired_obeys h
  | exitReadExpiry ln =>
    exact .ofEvent (fun _ => rfl) fun s => .onLane (fun w h => GateRun.exitReadExpired_lawful h)
      fun L w h => GateRun.exitReadExpired_obeys h
  | laneOpen tag lane =>
    exact .ofRequest (fun _ => rfl) (.withFin fun ln _ => .inRun fun s => .onLane
      (fun w h => GateRun.openLane_lawful h) fun L w h => GateRun.openLane_obeys h)
  | laneClose tag lane =>
    exact .ofRequest (fun _ => rfl) (.withFin fun ln _ s => .onLane
      (fun w h => GateRun.closeLane_lawful h) fun L w h => GateRun.closeLane_obeys h)
  | laneSet tag lane dwell stall exitRead =>
    exact .ofRequest (fun _ => rfl) (.withFin fun ln _ => laneSetBody_keeps ln dwell stall exitRead)
  | laneStatus tag lane => exact .ofRequest (fun _ => rfl) (.withFin fun ln _ s => .refl)
  | ticketQuery tag ticket =>
    exact .ofRequest (fun _ => rfl) (.ofYard (fun s => ⟨_, rfl⟩) fun L s h => ticketQueryBody_obeys h ticket)
  | checkinLimitExpiry car => exact .ofEvent (fun _ => rfl) fun s => .onYard fun L y h => h.limitExpired
  | sitePlan tag screen bays => exact .ofRequest (fun _ => rfl) (sitePlan_keeps screen bays)
  | capacitySet tag screen capacity =>
    exact .ofRequest (fun _ => rfl) (.withFin fun sc _ s => .withYard fun L h => h.withCapacity)
  | ctSet tag limit => exact .ofRequest (fun _ => rfl) fun s => .withYard fun L h => h.withCheckinSetting
  | carRemove tag car => exact .ofRequest (fun _ => rfl) (.inRun (carRemoveBody_keeps car))
  | carQuery tag car => exact .ofRequest (fun _ => rfl) (carQueryBody_keeps car)
  | bayQuery tag bay => exact .ofRequest (fun _ => rfl) (.inRange (bayQueryBody_keeps bay))
  | fieldStatus tag screen =>
    exact .ofRequest (fun _ => rfl) (.withFin fun sc _ =>
      .ofYard (fun s => ⟨_, rfl⟩) fun L s h => fieldStatusBody_obeys h sc)
  | menuSet tag item station price available mode =>
    exact .ofRequest (fun _ => rfl) (menuSet_keeps item station price available mode)
  | restock tag item qty => exact .ofRequest (fun _ => rfl) (.inRange (restockBody_keeps item qty))
  | stockWaste tag item qty => exact .ofRequest (fun _ => rfl) (.inRange (stockWasteBody_keeps item qty))
  | orderEnter tag bay mode lines => exact .ofRequest (fun _ => rfl) (orderEnter_keeps bay mode lines)
  | orderRelease tag screen =>
    exact .ofRequest (fun _ => rfl) (.withFin fun sc _ => .inRun fun s => .withYard fun L h => h.releaseHeld)
  | forceCancel tag order => exact .ofRequest (fun _ => rfl) (.inRun (forceCancelBody_keeps order))
  | menuQuery tag item => exact .ofRequest (fun _ => rfl) (.inRange (menuQueryBody_keeps item))
  | orderQuery tag order => exact .ofRequest (fun _ => rfl) (orderQueryBody_keeps order)
  | oeStatus tag => exact .ofRequest (fun _ => rfl) fun s => .refl
  | stationNext tag station =>
    exact .ofRequest (fun _ => rfl) (.withStation fun st => .inRun fun s => .withYard fun L h => h.walkQueue)
  | stationDone tag station order line =>
    exact .ofRequest (fun _ => rfl) (.withStation fun st => .inRange (.inRun (stationDoneBody_keeps st order line)))
  | stationStatus tag station => exact .ofRequest (fun _ => rfl) (.withStation fun st s => .refl)
  | readyStatus tag => exact .ofRequest (fun _ => rfl) fun s => .refl
  | take tag runner filter arg => exact .ofRequest (fun _ => rfl) (take_keeps runner filter arg)
  | delivered tag runner order =>
    exact .ofRequest (fun _ => rfl) (.withRunner fun r => .inRange (.inRun
      (settleBody_keeps r order (deliverHeld_keeps r order))))
  | returnOrder tag runner order =>
    exact .ofRequest (fun _ => rfl) (.withRunner fun r => .inRange (.inRun
      (settleBody_keeps r order (returnHeld_keeps r order))))
  | takeTimerExpiry runner => exact .ofEvent (fun _ => rfl) fun s => .onYard fun L y h => h.takeExpired
  | runnerSet tag limit => exact .ofRequest (fun _ => rfl) fun s => .withYard fun L h => h.withTakeLimit
  | runnerStatus tag runner => exact .ofRequest (fun _ => rfl) (.withRunner fun r => runnerStatusBody_keeps r)
  | runnersStatus tag => exact .ofRequest (fun _ => rfl) fun s => .refl
  | storeTestVisit => exact .ofEvent (fun _ => rfl) fun s => .onYard fun L y h => h.testVisit
  | storeTest tag table => exact .ofRequest (fun _ => rfl) (storeTest_keeps table)
  | storeStatus tag => exact .ofRequest (fun _ => rfl) fun s => .refl
  | storeClear tag => exact .ofRequest (fun _ => rfl) fun s => .withYard fun L h => h.clearFaults
  | unknownKind kind tag => exact .ofRequest (fun _ => rfl) .malformed (by intro _ h; cases h)
  | resetDevice tag => exact .ofRequest (fun _ => rfl) fun s => .refl
  | linkStatus tag => exact .ofRequest (fun _ => rfl) fun s => .refl
  | hostFrameDiscard => cases hc
  | hostFrameGap => cases hc
  | requestBusy kind tag => cases hc
  | linkFrameSent => cases hc
  | openNight tag => cases hc
  | closeNight tag => cases hc
  | deviceReset => cases hc
  | powerOn => cases hc

end Sys2Proof.Machine
end

section
/-! PROOFS. What every command keeps, those of the host link included, and what a step keeps (R201, R204, R206, R210). -/

namespace Sys2Proof.Machine

/-! ## The bounds of the link -/

/-- The link's lists within their sizes and its counts within two bytes. -/
def Link.bounded (l : Link) : Prop :=
  l.replies.length ≤ 16 ∧ l.requests ≤ 8 ∧ l.reports.length ≤ 128 ∧ l.linkErrors ≤ 65535 ∧ l.lostCount ≤ 65535

theorem satInc_le (n : Nat) : satInc n ≤ 65535 := by
  unfold satInc
  split <;> omega

section link
variable {l : Link}

theorem Link.bounded_enqueue (h : l.bounded) (r : Report) : (l.enqueue r).bounded := by
  obtain ⟨h1, h2, h3, h4, h5⟩ := h
  unfold Link.enqueue
  split
  · refine ⟨h1, h2, ?_, h4, h5⟩
    simpa using ‹_›
  · exact ⟨h1, h2, h3, h4, satInc_le _⟩

theorem Link.bounded_enqueueAll (h : l.bounded) (rs : List Report) : (rs.foldl Link.enqueue l).bounded :=
  List.foldlRecOn (motive := Link.bounded) _ _ h fun _ h r _ => Link.bounded_enqueue h r

theorem Link.bounded_kick (h : l.bounded) : l.kick.bounded := by
  unfold Link.kick
  split
  · exact h
  · next hr =>
    obtain ⟨h1, h2, h3, h4⟩ := h
    rw [hr] at h3
    exact ⟨h1, h2, Nat.le_of_succ_le h3, h4⟩
  · exact h

theorem Link.bounded_countError (h : l.bounded) : l.countError.bounded := by
  obtain ⟨h1, h2, h3, -, h5⟩ := h
  exact ⟨h1, h2, h3, satInc_le _, h5⟩

/-- A place may join a list that has room for it, and for a request's where it is one. -/
theorem Link.bounded_addPlace (h : l.bounded) (p : Place) (hl : l.replies.length < 16)
    (hp : p.isRequest = true → l.requests < 8) : (l.addPlace p).bounded := by
  obtain ⟨-, h2, h3⟩ := h
  refine ⟨by simpa using hl, ?_, h3⟩
  simp only [Link.requests, Link.addPlace_replies, List.countP_append, List.countP_singleton] at h2 hp ⊢
  split
  · next hq => exact hp hq
  · exact h2

theorem Link.bounded_dropReply {p : Place} {ps : List Place} {tx : Tx} (h : l.bounded) (hr : l.replies = p :: ps) :
    ({ l with tx := tx, replies := ps } : Link).bounded := by
  obtain ⟨h1, h2, h3⟩ := h
  refine ⟨?_, ?_, h3⟩
  · rw [hr] at h1
    exact Nat.le_of_succ_le h1
  · simp only [Link.requests, hr, List.countP_cons] at h2
    exact (Nat.le_add_right _ _).trans h2

theorem Link.bounded_tick (h : l.bounded) (free : Nat) : (l.tick free).bounded := by
  unfold Link.tick
  split <;> exact h

end link

/-! ## What every command keeps -/

/-- What every command keeps: the queue of commands and the laws of every block and of the link. -/
structure State.lawsKept (s t : State) : Prop where
  pending : t.pending = s.pending
  link : s.link.bounded → t.link.bounded
  screens : ∀ sc : ScreenId, s.screens[sc].lawful → t.screens[sc].lawful
  sound : ∀ (L : SoundLaw) (sc : ScreenId), s.sound[sc].obeys L → t.sound[sc].obeys L
  lanes : ∀ ln : LaneId, s.lanes[ln].lawful → t.lanes[ln].lawful
  yard : ∀ L : YardLaw, L.lasts → s.yard.obeys L → t.yard.obeys L

section kept
variable {s t u : State} {c : Instr}

theorem State.lawsKept.trans (h : s.lawsKept t) (k : t.lawsKept u) : s.lawsKept u :=
  ⟨k.pending.trans h.pending, fun hl => k.link (h.link hl), fun sc hs => k.screens sc (h.screens sc hs),
    fun L sc hs => k.sound L sc (h.sound L sc hs), fun ln hs => k.lanes ln (h.lanes ln hs),
    fun L hl hs => k.yard L hl (h.yard L hl hs)⟩

theorem State.blockStep.lawsKept (h : s.blockStep c t) : s.lawsKept t :=
  ⟨h.pending, fun hl => h.link ▸ hl, h.screens, h.sound, h.lanes, fun L _ => h.yard L⟩

theorem State.lawsKept.refl : s.lawsKept s :=
  ⟨rfl, fun h => h, fun _ h => h, fun _ _ h => h, fun _ h => h, fun _ _ h => h⟩

/-- A change of the link alone. -/
theorem State.lawsKept.withLink {l : Link} (hl : s.link.bounded → l.bounded) : s.lawsKept { s with link := l } :=
  ⟨rfl, hl, fun _ h => h, fun _ _ h => h, fun _ h => h, fun _ _ h => h⟩

theorem State.lawsKept.flush : s.lawsKept s.flush :=
  ⟨rfl, fun h => Link.bounded_enqueueAll h _, fun _ h => h, fun _ _ h => h, fun _ h => h,
    fun _ hl h => h.withRaised hl⟩

theorem State.lawsKept.finish : s.lawsKept s.finish :=
  State.lawsKept.flush.trans (.withLink fun h => Link.bounded_kick h)

theorem State.lawsKept.discardFrame : s.lawsKept s.discardFrame := by
  unfold State.discardFrame
  split
  · exact .withLink fun h => h
  · exact .withLink fun h => Link.bounded_countError (l := s.link.hunt) h

/-- A request whose body keeps the laws and leaves the reply list alone keeps them, wherever its frame finds its place
(R204, R210). -/
theorem State.lawsKept.request {kind tag : Nat} {body : State → Reply × State} (h : s.lawsKept (body s).2)
    (hr : (body s).2.link.replies = s.link.replies) : s.lawsKept (s.request kind tag body) := by
  unfold State.request
  split
  · exact .withLink fun h => h
  · split
    · exact .withLink fun h => Link.bounded_countError (l := s.link.hunt) h
    · next hlen =>
      split
      · exact .withLink fun h => Link.bounded_addPlace h _ (Nat.lt_of_not_le hlen) fun hp => by cases hp
      · next hreq =>
        refine h.trans (.withLink fun hb => Link.bounded_addPlace hb _ ?_ fun _ => ?_)
        · rw [hr]
          exact Nat.lt_of_not_le hlen
        · rw [Link.requests, hr]
          exact Nat.lt_of_not_le hreq

theorem State.lawsKept.ofBlocks {v : State} (hp : v.pending = s.pending) (hl : v.link = s.link)
    (hsc : v.screens = s.screens) (hsd : v.sound = s.sound) (hln : ∀ ln : LaneId, s.lanes[ln].lawful → v.lanes[ln].lawful)
    (hy : ∀ L : YardLaw, L.lasts → s.yard.obeys L → v.yard.obeys L) : s.lawsKept v :=
  ⟨hp, fun h => hl ▸ h, fun sc h => hsc ▸ h, fun L sc h => hsd ▸ h, hln, hy⟩

theorem Lane.closeNight_lawful {l : Lane} (h : l.lawful) : l.closeNight.lawful := h

/-- The night's end with what the yard is left as (R209). -/
def State.nightEnded (s : State) (y : Yard) : State :=
  let s := State.flush { s with lanes := s.lanes.map Lane.closeNight, yard := y }
  { s with link := { s.link with part := .setup, clock := 0 } }

theorem State.closeNight_eq (s : State) : s.closeNight = s.nightEnded s.yard.closeNightCars.closeNightOrders := rfl

theorem State.lawsKept.nightEnded {y : Yard} (hy : ∀ L, s.yard.obeys L → y.obeys L) :
    s.lawsKept (s.nightEnded y) := by
  have hblocks : s.lawsKept { s with lanes := s.lanes.map Lane.closeNight, yard := y } := by
    refine .ofBlocks rfl rfl rfl rfl (fun ln h => ?_) fun L _ => hy L
    simpa using Lane.closeNight_lawful h
  exact (hblocks.trans .flush).trans (.withLink fun h => h)

theorem State.lawsKept.closeNight : s.lawsKept s.closeNight := by
  rw [State.closeNight_eq]
  exact .nightEnded fun L h => h.closeNightCars.closeNightOrders

/-- The night's end leaves the reply list and the link error count as they are. -/
theorem State.nightEnded_link (y : Yard) : (s.nightEnded y).link.replies = s.link.replies ∧
    (s.nightEnded y).link.linkErrors = s.link.linkErrors :=
  ⟨Link.foldl_enqueue Link.replies Link.enqueue_replies y.raised s.link,
    Link.foldl_enqueue Link.linkErrors Link.enqueue_linkErrors y.raised s.link⟩

theorem State.closeNight_link : s.closeNight.link.replies = s.link.replies ∧
    s.closeNight.link.linkErrors = s.link.linkErrors := by
  rw [State.closeNight_eq]
  exact State.nightEnded_link _

/-- OPEN NIGHT moves the part state and the clock alone (R208). -/
theorem openNightBody_cases (s : State) : (openNightBody s).2 = s ∨
    (openNightBody s).2 = { s with link := { s.link with part := .run, clock := 0 } } := by
  unfold openNightBody
  split
  · exact .inl rfl
  · split
    · exact .inl rfl
    · exact .inr rfl

theorem closeNightBody_cases (s : State) : (closeNightBody s).2 = s ∨ (closeNightBody s).2 = s.closeNight := by
  unfold closeNightBody
  split
  · exact .inl rfl
  · split
    · exact .inr rfl
    · exact .inl rfl

theorem openNight_lawsKept (s : State) : s.lawsKept (openNightBody s).2 ∧
    (openNightBody s).2.link.replies = s.link.replies ∧ (openNightBody s).2.link.linkErrors = s.link.linkErrors := by
  rcases openNightBody_cases s with h | h <;> rw [h]
  · exact ⟨.refl, rfl, rfl⟩
  · exact ⟨.withLink fun h => h, rfl, rfl⟩

theorem closeNight_lawsKept (s : State) : s.lawsKept (closeNightBody s).2 ∧
    (closeNightBody s).2.link.replies = s.link.replies ∧ (closeNightBody s).2.link.linkErrors = s.link.linkErrors := by
  rcases closeNightBody_cases s with h | h <;> rw [h]
  · exact ⟨.refl, rfl, rfl⟩
  · exact ⟨.closeNight, State.closeNight_link⟩

/-! ## The resets of the whole part (R210) -/

/-- The vector of sound paths after a reset of the part. -/
theorem Sound.obeys_resetAll (L : SoundLaw) (sc : ScreenId) :
    ((Vector.replicate 4 Sound.reset)[sc] : Sound).obeys L := by
  rw [Fin.getElem_fin, Vector.getElem_replicate]
  exact Sound.obeys_reset

theorem Link.reset_idle_bounded : ({ Link.reset with tx := .idle } : Link).bounded := by
  unfold Link.bounded
  decide

theorem State.lawsKept.deviceReset : s.lawsKept s.deviceReset := by
  refine ⟨rfl, fun _ => Link.reset_idle_bounded, fun sc _ => ?_, fun L sc _ => Sound.obeys_resetAll L sc, fun ln _ => ?_,
    fun L hl h => State.deviceReset_obeys hl h⟩
  · simpa [State.deviceReset] using Screen.deviceReset_lawful _
  · simpa [State.deviceReset] using Lane.deviceReset_lawful _

theorem State.lawsKept.powerOn : s.lawsKept s.powerOn := by
  refine ⟨rfl, fun _ => Link.reset_idle_bounded, fun sc _ => ?_, fun L sc _ => Sound.obeys_resetAll L sc, fun ln _ => ?_,
    fun L hl h => State.powerOn_obeys hl h⟩
  · simpa [State.powerOn] using Screen.deviceReset_lawful _
  · simpa [State.powerOn] using Lane.deviceReset_lawful _

/-! ## The commands of the link -/

theorem State.lawsKept.frameSent : s.lawsKept s.frameSent := by
  unfold State.frameSent
  split
  · exact .refl
  · exact .withLink fun h => h
  · exact .withLink fun h => h
  · next hr =>
    split
    · exact .deviceReset
    · exact .withLink fun h => Link.bounded_dropReply h hr

theorem State.lawsKept.turnAway {kind tag : Nat} : s.lawsKept (s.turnAway kind tag) := by
  unfold State.turnAway
  split
  · exact .refl
  · exact .request .refl rfl

/-- After a gap the receiver hunts (R201). -/
theorem State.hostGap_hunts (s : State) : s.hostGap.link.rx = none := by
  rcases s.hostGap_cases with ⟨hrx, he⟩ | ⟨-, he⟩
  · rw [he]
    exact hrx
  · rw [he, State.discardFrame_link]
    split <;> rfl

/-- A byte taken by a hunting receiver changes what it holds, and nothing else. -/
theorem State.takeGapByte_cases (s : State) (h : s.link.rx = none) :
    ∃ hl rx, s.takeGapByte = { s with hostLine := hl, link := { s.link with rx := rx } } := by
  unfold State.takeGapByte
  split
  · exact ⟨s.hostLine, s.link.rx, rfl⟩
  · next b rest _ =>
    rw [State.takeHostByte_hunting { s with hostLine := rest } _ h]
    split
    · exact ⟨_, _, rfl⟩
    · exact ⟨rest, s.link.rx, rfl⟩

theorem State.lawsKept.hostGap : s.lawsKept s.hostGap.takeGapByte := by
  have hgap : s.lawsKept s.hostGap := by
    rcases s.hostGap_cases with ⟨-, he⟩ | ⟨-, he⟩ <;> rw [he]
    · exact .refl
    · exact .discardFrame
  obtain ⟨hl, rx, he⟩ := s.hostGap.takeGapByte_cases s.hostGap_hunts
  rw [he]
  exact hgap.trans ⟨rfl, fun h => h, fun _ h => h, fun _ _ h => h, fun _ h => h, fun _ _ h => h⟩

/-- Every command but the bytes of a discarded frame keeps the laws. -/
theorem exec_lawsKept_of_ne (c : Instr) (hc : c ≠ .hostFrameDiscard) (s : State) :
    ∃ t, exec c s = .next t ∧ s.lawsKept t ∧ t.settled := by
  by_cases ho : Instr.ofLink c = false
  · obtain ⟨f, he, -, hf⟩ | ⟨kind, tag, body, he, -, hb⟩ := Instr.ordinary_of_not_ofLink c ho
    · exact ⟨_, he s, (hf s).lawsKept.trans .finish, rfl⟩
    · exact ⟨_, he s, (State.lawsKept.request (hb s).lawsKept (by rw [(hb s).link])).trans .finish, rfl⟩
  · cases c with
    | hostFrameDiscard => exact absurd rfl hc
    | hostFrameGap => exact ⟨_, rfl, State.lawsKept.hostGap.trans .finish, rfl⟩
    | requestBusy kind tag => exact ⟨_, rfl, State.lawsKept.turnAway.trans .finish, rfl⟩
    | linkFrameSent => exact ⟨_, rfl, State.lawsKept.frameSent.trans .finish, rfl⟩
    | openNight tag =>
      obtain ⟨hk, hr, -⟩ := openNight_lawsKept s
      exact ⟨_, rfl, (State.lawsKept.request hk hr).trans .finish, rfl⟩
    | closeNight tag =>
      obtain ⟨hk, hr, -⟩ := closeNight_lawsKept s
      exact ⟨_, rfl, (State.lawsKept.request hk hr).trans .finish, rfl⟩
    | deviceReset => exact ⟨_, rfl, State.lawsKept.deviceReset.trans .finish, rfl⟩
    | powerOn => exact ⟨_, rfl, State.lawsKept.powerOn.trans .finish, rfl⟩
    | _ => exact absurd rfl ho

theorem frameCommand_ne_discard {c : Instr} (h : frameCommand c) : c ≠ .hostFrameDiscard := by
  rintro rfl
  rcases h with h | ⟨kind, tag, h⟩ <;> cases h

theorem State.lawsKept.takeHostLine : s.lawsKept s.takeHostLine := by
  refine State.takeHostBytes_keeps (fun t => s.lawsKept t) (fun t rx h => ?_) (fun t h => h.trans .discardFrame)
    (fun t c hc h => ?_) s.hostLine { s with hostLine := [] } ?_
  · exact h.trans (.withLink fun h => h)
  · obtain ⟨u, hu, hk, -⟩ := exec_lawsKept_of_ne c (frameCommand_ne_discard hc) t
    exact ⟨u, hu, h.trans hk⟩
  · exact ⟨rfl, fun h => h, fun _ h => h, fun _ _ h => h, fun _ h => h, fun _ _ h => h⟩

/-- Every command keeps the queue and the laws, and its reports have joined the report queue. -/
theorem exec_lawsKept (c : Instr) (s : State) : ∃ t, exec c s = .next t ∧ s.lawsKept t ∧ t.settled := by
  by_cases hc : c = .hostFrameDiscard
  · subst hc
    refine ⟨_, rfl, State.lawsKept.trans ?_ .finish, rfl⟩
    dsimp only
    split
    · exact .discardFrame
    · exact .takeHostLine
  · exact exec_lawsKept_of_ne c hc s

/-! ## The step -/

/-- What a step keeps: the laws of every block and of the link. -/
theorem State.tick_keeps (s : State) : (s.link.bounded → s.tick.link.bounded) ∧
    (∀ sc : ScreenId, s.screens[sc].lawful → s.tick.screens[sc].lawful) ∧
    (∀ (L : SoundLaw) (sc : ScreenId), s.sound[sc].obeys L → s.tick.sound[sc].obeys L) ∧
    (∀ ln : LaneId, s.lanes[ln].lawful → s.tick.lanes[ln].lawful) ∧
    ∀ L : YardLaw, s.yard.obeys L → s.tick.yard.obeys L := by
  refine ⟨fun h => Link.bounded_tick h _, fun sc h => ?_, fun L sc h => ?_, fun ln h => ?_, fun L h => h.tick.withFreeIndex⟩
  · simpa [State.tick] using Screen.tick_lawful h
  · simpa [State.tick] using Sound.obeys_tick h
  · simpa [State.tick] using Lane.tick_lawful h

/-- A step takes a command, or a millisecond passes. -/
theorem step_cases (h : step s = .next t) :
    (∃ c rest, s.pending = c :: rest ∧ exec c { s with pending := rest } = .next t) ∨ s.pending = [] ∧ t = s.tick := by
  unfold step at h
  split at h
  · next c rest hp => exact .inl ⟨c, rest, hp, h⟩
  · next hp => exact .inr ⟨hp, (Host.Outcome.next.inj h).symm⟩

/-- What a step that takes a command keeps. -/
theorem lawsKept_of_exec {rest : List Instr} (h : exec c { s with pending := rest } = .next t) :
    ({ s with pending := rest } : State).lawsKept t ∧ t.settled := by
  obtain ⟨u, hu, hk⟩ := exec_lawsKept c { s with pending := rest }
  rw [h] at hu
  rwa [Host.Outcome.next.inj hu]

end kept

end Sys2Proof.Machine
end

section
/-! PROOF. The laws of the blocks are kept by every step, and every command has its effect in every state (R3, R41 to R54,
R91 to R108, R137, R201, R204, R206). -/

namespace Sys2Proof.Machine

/-- Settles O3: no command stops, and what it reports has joined the queue. -/
theorem everyCommandAnswersNext : Obligations.EveryCommandAnswersNext := by
  unfold Obligations.EveryCommandAnswersNext
  intro c s
  obtain ⟨t, ht, hkept, hset⟩ := exec_lawsKept c s
  exact ⟨t, ht, hkept.pending, hset⟩

/-- Settles O5, by the command that the step takes, or the millisecond. -/
theorem linkLawKept : Obligations.LinkLawKept := by
  unfold Obligations.LinkLawKept
  rintro s t ⟨hset, hlaw⟩ hstep
  obtain ⟨c, rest, -, he⟩ | ⟨-, rfl⟩ := step_cases hstep
  · obtain ⟨hkept, hsettled⟩ := lawsKept_of_exec he
    exact ⟨hsettled, hkept.link hlaw⟩
  · exact ⟨hset, s.tick_keeps.1 hlaw⟩

/-- Settles O6, by the command that the step takes, or the millisecond. -/
theorem douserLawKept : Obligations.DouserLawKept := by
  unfold Obligations.DouserLawKept
  intro s t hlaw hstep sc
  obtain ⟨c, rest, -, he⟩ | ⟨-, rfl⟩ := step_cases hstep
  · exact (lawsKept_of_exec he).1.screens sc (hlaw sc)
  · exact s.tick_keeps.2.1 sc (hlaw sc)

/-- Settles O7, by the command that the step takes, or the millisecond. -/
theorem soundLawKept : Obligations.SoundLawKept := by
  unfold Obligations.SoundLawKept
  intro s t hlaw hstep sc
  obtain ⟨c, rest, -, he⟩ | ⟨-, rfl⟩ := step_cases hstep
  · exact (lawsKept_of_exec he).1.sound .ranges sc (hlaw sc)
  · exact s.tick_keeps.2.2.1 .ranges sc (hlaw sc)

/-- Settles O8, by the command that the step takes, or the millisecond. -/
theorem barrierLawKept : Obligations.BarrierLawKept := by
  unfold Obligations.BarrierLawKept
  intro s t hlaw hstep ln
  obtain ⟨c, rest, -, he⟩ | ⟨-, rfl⟩ := step_cases hstep
  · exact (lawsKept_of_exec he).1.lanes ln (hlaw ln)
  · exact s.tick_keeps.2.2.2.1 ln (hlaw ln)

/-- Settles O9, by the command that the step takes, or the millisecond. -/
theorem stockLawKept : Obligations.StockLawKept := by
  unfold Obligations.StockLawKept
  intro s t hlaw hstep
  obtain ⟨c, rest, -, he⟩ | ⟨-, rfl⟩ := step_cases hstep
  · exact (lawsKept_of_exec he).1.yard .stock trivial hlaw
  · exact s.tick_keeps.2.2.2.2 .stock hlaw

/-- The canonical form of the state's tables, block by block. -/
theorem State.canonical_iff (s : State) :
    s.canonical = true ↔ (∀ sc : ScreenId, s.sound[sc].obeys .rings) ∧ s.yard.obeys .tables := by
  have hsound : (s.sound.toList.all fun sd => Tab.wf none sd.prog && Tab.wf none sd.brk) = true ↔
      ∀ sc : ScreenId, s.sound[sc].obeys .rings := by
    simp only [List.all_eq_true, Vector.mem_toList_iff, Bool.and_eq_true, Sound.obeys]
    exact ⟨fun h sc => h _ (Vector.getElem_mem _), fun h sd hsd => by
      obtain ⟨i, hi, rfl⟩ := Vector.mem_iff_getElem.1 hsd
      exact h ⟨i, hi⟩⟩
  simp only [State.canonical, Bool.and_eq_true, hsound, Yard.obeys, and_assoc]

/-- Settles O10, by the command that the step takes, or the millisecond. -/
theorem tablesStayCanonical : Obligations.TablesStayCanonical := by
  unfold Obligations.TablesStayCanonical
  intro s t hlaw hstep
  rw [State.canonical_iff] at hlaw ⊢
  obtain ⟨hsound, hyard⟩ := hlaw
  obtain ⟨c, rest, -, he⟩ | ⟨-, rfl⟩ := step_cases hstep
  · have hkept := (lawsKept_of_exec he).1
    exact ⟨fun sc => hkept.sound .rings sc (hsound sc), hkept.yard .tables trivial hyard⟩
  · obtain ⟨-, -, hs, -, hy⟩ := s.tick_keeps
    exact ⟨fun sc => hs .rings sc (hsound sc), hy .tables hyard⟩

end Sys2Proof.Machine
end

section
/-! PROOF. Where a request's frame finds its place (R204, R210). -/

namespace Sys2Proof.Machine

/-- Every command of the catalogue is a request with its KIND and TAG, whose body leaves the reply list and the link errors
alone. -/
theorem exec_request_of (c : Instr) (kind tag : Nat) (h : requestOf c = some (kind, tag)) :
    ∃ body, (∀ s, exec c s = request kind tag body s) ∧ ∀ s : State,
      (body s).2.link.replies = s.link.replies ∧ (body s).2.link.linkErrors = s.link.linkErrors := by
  by_cases ho : Instr.ofLink c = false
  · obtain ⟨f, -, hk, -⟩ | ⟨k, t, body, he, hk, hb⟩ := Instr.ordinary_of_not_ofLink c ho
    · exact absurd h (hk _)
    · obtain ⟨rfl, rfl⟩ := Prod.mk.inj (hk _ h)
      exact ⟨body, he, fun s => by rw [(hb s).link]; exact ⟨rfl, rfl⟩⟩
  · cases c with
    | openNight tag =>
      cases h
      exact ⟨openNightBody, fun _ => rfl, fun s => (openNight_lawsKept s).2⟩
    | closeNight tag =>
      cases h
      exact ⟨closeNightBody, fun _ => rfl, fun s => (closeNight_lawsKept s).2⟩
    | hostFrameDiscard => cases h
    | hostFrameGap => cases h
    | requestBusy kind tag => cases h
    | linkFrameSent => cases h
    | deviceReset => cases h
    | powerOn => cases h
    | _ => exact absurd rfl ho

/-- Settles O4, by what the link holds when the frame's last byte arrives. -/
theorem requestFindsItsPlace : Obligations.RequestFindsItsPlace := by
  unfold Obligations.RequestFindsItsPlace
  intro c kind tag s hc hs
  obtain ⟨body, he, hbody⟩ := exec_request_of c kind tag hc
  refine ⟨fun hreset => ?_, fun hreset hfull => ?_, fun hreset hlen hbusy => ?_, fun hroomy => ?_⟩
  · rw [he, request_next, State.request, if_pos hreset]
    exact congrArg _ (State.finish_settled _ hs)
  · rw [he, request_next, State.request, if_neg (by simp [hreset]), if_pos hfull]
    exact congrArg _ (State.finish_settled _ hs)
  · rw [he, request_next, State.request, if_neg (by simp [hreset]), if_neg (Nat.not_le.2 hlen), if_pos hbusy]
    exact congrArg _ (State.finish_settled _ hs)
  · obtain ⟨hreplies, herrors⟩ := hbody s
    refine ⟨_, (body s).1, (he s).trans (request_next ..), ?_⟩
    rw [request_roomy _ _ _ _ hroomy]
    simp [hreplies, herrors]

end Sys2Proof.Machine
end

section
/-! PROOF. What moves the part between SETUP and RUN (R208 to R210), and what takes a screen out of HALTED (R25). -/

namespace Sys2Proof.Machine

/-- What the commands that neither open nor close the night nor reset the part leave: the part state, and HALTED on every
screen that the command does not reset. -/
def State.keepsModes (c : Instr) (s t : State) : Prop :=
  t.link.part = s.link.part ∧
    ∀ sc : ScreenId, ¬Instr.resets c sc → s.screens[sc].phase = .halted → t.screens[sc].phase = .halted

section modes
variable {c : Instr} {s t : State}

theorem State.keepsModes.finish (h : s.keepsModes c t) : s.keepsModes c t.finish :=
  ⟨by simpa using h.1, h.2⟩

theorem State.keepsModes.request {kind tag : Nat} {body : State → Reply × State} (h : s.keepsModes c (body s).2) :
    s.keepsModes c (s.request kind tag body) := by
  unfold State.request
  split
  · exact ⟨rfl, fun _ _ h => h⟩
  · split
    · exact ⟨rfl, fun _ _ h => h⟩
    · split
      · exact ⟨rfl, fun _ _ h => h⟩
      · exact h

theorem State.keepsModes.discardFrame : s.keepsModes c s.discardFrame := by
  unfold State.discardFrame
  split <;> exact ⟨rfl, fun _ _ h => h⟩

theorem State.keepsModes.hostGap : s.keepsModes c s.hostGap.takeGapByte := by
  obtain ⟨hl, rx, he⟩ := s.hostGap.takeGapByte_cases s.hostGap_hunts
  rw [he]
  rcases s.hostGap_cases with ⟨-, hgap⟩ | ⟨-, hgap⟩ <;> rw [hgap]
  · exact ⟨rfl, fun _ _ h => h⟩
  · exact State.keepsModes.discardFrame (c := c)

theorem State.keepsModes.turnAway {kind tag : Nat} : s.keepsModes c (s.turnAway kind tag) := by
  unfold State.turnAway
  split
  · exact ⟨rfl, fun _ _ h => h⟩
  · exact .request ⟨rfl, fun _ _ h => h⟩

theorem exec_keepsModes (c : Instr) (s : State) (hc : ∀ tag, c ≠ .openNight tag ∧ c ≠ .closeNight tag)
    (hr : c ≠ .linkFrameSent ∧ c ≠ .deviceReset ∧ c ≠ .powerOn) (hd : c = .hostFrameDiscard → s.hostLine = []) :
    ∃ t, exec c s = .next t ∧ s.keepsModes c t := by
  by_cases ho : Instr.ofLink c = false
  · obtain ⟨f, he, -, hf⟩ | ⟨kind, tag, body, he, -, hb⟩ := Instr.ordinary_of_not_ofLink c ho
    · exact ⟨_, he s, State.keepsModes.finish ⟨congrArg Link.part (hf s).link, (hf s).halted⟩⟩
    · exact ⟨_, he s, .finish (.request ⟨congrArg Link.part (hb s).link, (hb s).halted⟩)⟩
  · cases c with
    | hostFrameDiscard =>
      refine ⟨_, rfl, .finish ?_⟩
      dsimp only
      rw [if_pos (hd rfl)]
      exact .discardFrame
    | hostFrameGap => exact ⟨_, rfl, .finish .hostGap⟩
    | requestBusy kind tag => exact ⟨_, rfl, .finish .turnAway⟩
    | linkFrameSent => exact absurd rfl hr.1
    | openNight tag => exact absurd rfl (hc tag).1
    | closeNight tag => exact absurd rfl (hc tag).2
    | deviceReset => exact absurd rfl hr.2.1
    | powerOn => exact absurd rfl hr.2.2
    | _ => exact absurd rfl ho

/-- The night's opening and end leave every screen as it is (R208, R209). -/
theorem night_screens (s : State) :
    (openNightBody s).2.screens = s.screens ∧ (closeNightBody s).2.screens = s.screens := by
  constructor
  · rcases openNightBody_cases s with h | h <;> rw [h]
  · rcases closeNightBody_cases s with h | h <;> rw [h]
    rw [State.closeNight_eq]
    rfl

theorem request_screens {kind tag : Nat} {body : State → Reply × State} (h : (body s).2.screens = s.screens) :
    (s.request kind tag body).finish.screens = s.screens := by
  rw [State.finish_screens]
  unfold State.request
  split
  · rfl
  · split
    · rfl
    · split
      · rfl
      · exact h

end modes

/-- Settles O12: any other command leaves the part state alone. -/
theorem partStateChangesOnlyAtNight : Obligations.PartStateChangesOnlyAtNight := by
  unfold Obligations.PartStateChangesOnlyAtNight
  intro c s t he hne
  by_contra hno
  simp only [not_or, not_exists, not_and, not_not] at hno
  obtain ⟨hopen, hclose, hsent, hreset, hpower, hdiscard⟩ := hno
  obtain ⟨u, hu, hk⟩ := exec_keepsModes c s (fun tag => ⟨hopen tag, hclose tag⟩) ⟨hsent, hreset, hpower⟩ hdiscard
  rw [he] at hu
  exact hne (Host.Outcome.next.inj hu ▸ hk.1)

/-- Settles O13: any other command leaves HALTED alone, the night's opening and end included. -/
theorem haltedScreenNeedsReset : Obligations.HaltedScreenNeedsReset := by
  unfold Obligations.HaltedScreenNeedsReset
  intro c s t sc he hhalted hne
  by_contra hno
  simp only [not_or, not_and, not_not] at hno
  obtain ⟨hscreen, hsent, hreset, hpower, hdiscard⟩ := hno
  by_cases hnight : ∃ tag, c = .openNight tag ∨ c = .closeNight tag
  · obtain ⟨tag, rfl | rfl⟩ := hnight
    · rw [← Host.Outcome.next.inj he, request_screens (night_screens s).1] at hne
      exact hne hhalted
    · rw [← Host.Outcome.next.inj he, request_screens (night_screens s).2] at hne
      exact hne hhalted
  · simp only [not_exists, not_or] at hnight
    obtain ⟨u, hu, hk⟩ := exec_keepsModes c s hnight ⟨hsent, hreset, hpower⟩ hdiscard
    rw [he] at hu
    rw [Host.Outcome.next.inj hu] at hne
    exact hne (hk.2 sc hscreen hhalted)

end Sys2Proof.Machine
end

section
/-! PROOF. The step, the reset state and the cues (R8, R34, R64, R90, R115, R210). -/

namespace Sys2Proof.Machine

/-- Settles O1: the front command runs on the state with the queue's rest. -/
theorem stepTakesFrontCommand : Obligations.StepTakesFrontCommand := by
  unfold Obligations.StepTakesFrontCommand
  intro c rest s
  rfl

/-- Settles O19, kind by kind. -/
theorem cueEffects : Obligations.CueEffects := by
  unfold Obligations.CueEffects
  intro w frame arg
  exact ⟨rfl, rfl, rfl, rfl, rfl, w.startMotor_sc w.sc.incoming⟩

/-- POWER ON takes the power-on state to itself, READY of the cause POWER on its way (R210). -/
theorem powerOn_of_reset : State.reset.powerOn.finish = State.reset := by
  have hscreen : Screen.reset.deviceReset = Screen.reset := rfl
  have hlane : Lane.reset.deviceReset = Lane.reset := rfl
  have hloop : LoopRec.reset.deviceReset = LoopRec.reset := rfl
  simp only [State.powerOn, State.reset, Yard.reset, Vector.map_replicate, hscreen, hlane, hloop]
  rfl

/-- Settles O11, law by law on the power-on values of each block. -/
theorem resetMeetsTheLaws : Obligations.ResetMeetsTheLaws := by
  unfold Obligations.ResetMeetsTheLaws
  have hlink : State.reset.linkLaw := by unfold State.linkLaw; decide
  have hscreens (sc : ScreenId) : State.reset.screens[sc] = Screen.reset := by
    simp [State.reset]
  have hsound (sc : ScreenId) : State.reset.sound[sc] = Sound.reset := by
    simp [State.reset]
  have hlanes (ln : LaneId) : State.reset.lanes[ln] = Lane.reset := by
    simp [State.reset]
  refine ⟨hlink, fun sc => ?_, fun sc => ?_, fun ln => ?_, ?_, ?_, rfl, rfl, fun sc => ?_, fun ln => ?_, rfl, ?_⟩
  · rw [hscreens]
    exact Screen.deviceReset_lawful Screen.reset
  · rw [hsound]
    exact Sound.obeys_reset (L := .ranges)
  · rw [hlanes]
    exact Lane.deviceReset_lawful Lane.reset
  · intro e he
    cases he
  · rw [State.canonical_iff]
    exact ⟨fun sc => by rw [hsound]; exact Sound.obeys_reset, by decide, rfl, rfl, rfl, rfl, rfl⟩
  · rw [hscreens, hsound]
    exact ⟨rfl, rfl⟩
  · rw [hlanes]
    rfl
  · exact congrArg Host.Outcome.next powerOn_of_reset

end Sys2Proof.Machine
end

section
/-! PROOF. The idle step: one millisecond of every clock, and the commands that fall due (R208; log entry 1). -/

namespace Sys2Proof.Machine

theorem tickTimer_eq (t : Option Nat) : tickTimer t = t.map (· - 1) := by cases t <;> rfl
theorem tickTenths_eq (t : Option Nat) : tickTenths t = t.map (· - 10) := by cases t <;> rfl

/-! ## What falls due -/

theorem mem_dueAt_one {x c : Instr} {t : Option Nat} : x ∈ dueAt 1 t c ↔ t = some 1 ∧ x = c := by
  unfold dueAt
  cases t with
  | none => simp
  | some n =>
    dsimp only
    split
    · next h =>
      obtain rfl : n = 1 := by omega
      simp
    · next h =>
      have hn : n ≠ 1 := by omega
      simp [hn]

/-- What falls due at the end of a response window is its expiry. -/
theorem mem_dueAt_cmd {x c : Instr} {last : Nat} {t : Option Nat} (h : x ∈ dueAt last t c) : x = c := by
  unfold dueAt at h
  split at h
  · split at h
    · simpa using h
    · cases h
  · cases h

/-- A command that falls due anywhere in the part falls due in one of its blocks. -/
theorem State.mem_due1ms (s : State) (x : Instr) : x ∈ s.due1ms ↔
    (∃ ln : LaneId, x ∈ (s.lanes[ln]).due1ms ln) ∨ (∃ sc : ScreenId, x ∈ (s.screens[sc]).due1ms sc) ∨
    (∃ sc : ScreenId, x ∈ (s.sound[sc]).due1ms sc) ∨ (∃ lp : ScreenId, x ∈ (s.yard.loops[lp]).due1ms lp) ∨
    (∃ e ∈ s.yard.limits, e.2 = some 1 ∧ x = .checkinLimitExpiry e.1) ∨
    ∃ r : RunnerId, (s.yard.runners[r]).timer = some 1 ∧ x = .takeTimerExpiry r := by
  simp [State.due1ms, Yard.due1ms, mem_dueAt_one, or_assoc]

theorem Lane.mem_due1ms (l : Lane) (ln : LaneId) (x : Instr) : x ∈ l.due1ms ln ↔
    (l.travel = some 1 ∧ x = .barrierTravelExpiry ln) ∨ (l.stall = some 1 ∧ x = .stallTimerExpiry ln) ∨
      (l.dwell = some 1 ∧ x = .dwellExpiry ln) ∨ (l.exitRead = some 1 ∧ x = .exitReadExpiry ln) := by
  simp [Lane.due1ms, mem_dueAt_one, or_assoc]

theorem Screen.mem_due1ms (r : Screen) (sc : ScreenId) (x : Instr) : x ∈ r.due1ms sc ↔
    (r.startTimer = some 1 ∧ x = .startTimerExpiry sc) ∨
      ((r.phase = .onBreak ∧ r.leadSetting ≠ 0 ∧ r.countdown = some (r.leadSetting * 1000 + 1)) ∧
        x = .motorLeadReached sc) ∨ (r.countdown = some 1 ∧ x = .breakCountdownExpiry sc) := by
  unfold Screen.due1ms
  split <;> simp [mem_dueAt_one, *]

theorem Sound.mem_due1ms (sd : Sound) (sc : ScreenId) (x : Instr) : x ∈ sd.due1ms sc ↔
    (sd.servo.coastGap = some 1 ∧ x = .coastGapExpiry sc) ∨ (sd.servo.coastLimit = some 1 ∧ x = .coastLimitExpiry sc) := by
  simp [Sound.due1ms, mem_dueAt_one]

/-- Of a loop's commands that fall due, the lend timer's; the others are a window's and a post's. -/
theorem LoopRec.mem_due1ms {l : LoopRec} {lp : ScreenId} {x : Instr} (h : x ∈ l.due1ms lp) :
    x = .responseWindowExpiry lp ∨ (l.lendTimer = some 1 ∧ x = .lendTimerExpiry lp) ∨
      ∃ post, x = .recoveryTimerExpiry lp post := by
  simp only [LoopRec.due1ms, List.mem_append, List.mem_flatten, List.mem_map] at h
  obtain (h | h) | ⟨d, ⟨e, -, rfl⟩, h⟩ := h
  · exact .inl (mem_dueAt_cmd h)
  · exact .inr (.inl (mem_dueAt_one.1 h))
  · exact .inr (.inr ⟨_, mem_dueAt_cmd h⟩)

theorem LoopRec.lendTimer_due {l : LoopRec} {lp : ScreenId} :
    Instr.lendTimerExpiry lp ∈ l.due1ms lp ↔ l.lendTimer = some 1 := by
  constructor
  · intro h
    rcases LoopRec.mem_due1ms h with h | ⟨h, -⟩ | ⟨post, h⟩
    · cases h
    · exact h
    · cases h
  · intro h
    simp [LoopRec.due1ms, mem_dueAt_one, h]

/-- In a table in canonical form an entry that stands is the one that is read. -/
theorem Tab.get_of_mem {α : Type} [DecidableEq α] {d : α} {t : Tab α} {n i : Nat} {v : α} (h : Tab.wfFrom d n t = true)
    (hm : (i, v) ∈ t) : Tab.get d t i = v ∧ n ≤ i := by
  induction t generalizing n with
  | nil => cases hm
  | cons e t ih =>
    obtain ⟨k, w⟩ := e
    simp only [Tab.wfFrom, Bool.and_eq_true, decide_eq_true_eq] at h
    obtain ⟨⟨hk, -⟩, ht⟩ := h
    rcases List.mem_cons.1 hm with heq | hm
    · cases heq
      exact ⟨by simp [Tab.get], hk⟩
    · obtain ⟨hget, hle⟩ := ih ht hm
      have hne : i ≠ k := by omega
      exact ⟨by rw [Tab.get, if_neg hne, hget], by omega⟩

/-- What the loops have fall due, of commands that are not theirs, is nothing. -/
theorem not_mem_loop_due {l : LoopRec} {lp : ScreenId} {x : Instr} (hw : ∀ k, x ≠ .responseWindowExpiry k)
    (hl : ∀ k, x ≠ .lendTimerExpiry k) (hr : ∀ k p, x ≠ .recoveryTimerExpiry k p) : ¬x ∈ l.due1ms lp := by
  intro h
  rcases LoopRec.mem_due1ms h with h | ⟨-, h⟩ | ⟨post, h⟩
  · exact hw _ h
  · exact hl _ h
  · exact hr _ _ h

section due
variable (s : State)

theorem State.startTimer_due (sc : ScreenId) :
    Instr.startTimerExpiry sc ∈ s.due1ms ↔ s.screens[sc].startTimer = some 1 := by
  simp [State.mem_due1ms, Lane.mem_due1ms, Screen.mem_due1ms, Sound.mem_due1ms, not_mem_loop_due]

theorem State.countdown_due (sc : ScreenId) :
    Instr.breakCountdownExpiry sc ∈ s.due1ms ↔ s.screens[sc].countdown = some 1 := by
  simp [State.mem_due1ms, Lane.mem_due1ms, Screen.mem_due1ms, Sound.mem_due1ms, not_mem_loop_due]

theorem State.motorLead_due (sc : ScreenId) : Instr.motorLeadReached sc ∈ s.due1ms ↔
    s.screens[sc].phase = .onBreak ∧ s.screens[sc].leadSetting ≠ 0 ∧
      s.screens[sc].countdown = some (s.screens[sc].leadSetting * 1000 + 1) := by
  simp [State.mem_due1ms, Lane.mem_due1ms, Screen.mem_due1ms, Sound.mem_due1ms, not_mem_loop_due]

theorem State.coastGap_due (sc : ScreenId) :
    Instr.coastGapExpiry sc ∈ s.due1ms ↔ s.sound[sc].servo.coastGap = some 1 := by
  simp [State.mem_due1ms, Lane.mem_due1ms, Screen.mem_due1ms, Sound.mem_due1ms, not_mem_loop_due]

theorem State.coastLimit_due (sc : ScreenId) :
    Instr.coastLimitExpiry sc ∈ s.due1ms ↔ s.sound[sc].servo.coastLimit = some 1 := by
  simp [State.mem_due1ms, Lane.mem_due1ms, Screen.mem_due1ms, Sound.mem_due1ms, not_mem_loop_due]

theorem State.lendTimer_due (lp : ScreenId) :
    Instr.lendTimerExpiry lp ∈ s.due1ms ↔ (s.yard.loops[lp]).lendTimer = some 1 := by
  have hloop : (∃ k : ScreenId, Instr.lendTimerExpiry lp ∈ (s.yard.loops[k]).due1ms k) ↔
      (s.yard.loops[lp]).lendTimer = some 1 := by
    constructor
    · rintro ⟨k, h⟩
      rcases LoopRec.mem_due1ms h with h | ⟨hl, h⟩ | ⟨post, h⟩
      · cases h
      · cases h
        exact hl
      · cases h
    · exact fun h => ⟨lp, LoopRec.lendTimer_due.2 h⟩
  simpa [State.mem_due1ms, Lane.mem_due1ms, Screen.mem_due1ms, Sound.mem_due1ms] using hloop

theorem State.lane_due (ln : LaneId) :
    (Instr.dwellExpiry ln ∈ s.due1ms ↔ s.lanes[ln].dwell = some 1) ∧
    (Instr.stallTimerExpiry ln ∈ s.due1ms ↔ s.lanes[ln].stall = some 1) ∧
    (Instr.barrierTravelExpiry ln ∈ s.due1ms ↔ s.lanes[ln].travel = some 1) ∧
    (Instr.exitReadExpiry ln ∈ s.due1ms ↔ s.lanes[ln].exitRead = some 1) := by
  simp [State.mem_due1ms, Lane.mem_due1ms, Screen.mem_due1ms, Sound.mem_due1ms, not_mem_loop_due]

theorem State.takeTimer_due (r : RunnerId) :
    Instr.takeTimerExpiry r ∈ s.due1ms ↔ s.yard.runners[r].timer = some 1 := by
  simp [State.mem_due1ms, Lane.mem_due1ms, Screen.mem_due1ms, Sound.mem_due1ms, not_mem_loop_due]

theorem State.limit_due (h : Tab.wf none s.yard.limits = true) (n : Nat) :
    Instr.checkinLimitExpiry n ∈ s.due1ms ↔ Tab.get none s.yard.limits n = some 1 := by
  have hlimit : (n, some 1) ∈ s.yard.limits ↔ Tab.get none s.yard.limits n = some 1 := by
    constructor
    · exact fun hm => (Tab.get_of_mem h hm).1
    · intro hget
      rcases Tab.get_mem none s.yard.limits n with hd | hm
      · rw [hget] at hd
        cases hd
      · rwa [hget] at hm
  rw [← hlimit]
  simp only [State.mem_due1ms, Lane.mem_due1ms, Screen.mem_due1ms, Sound.mem_due1ms]
  simp [not_mem_loop_due]

end due

/-! ## The millisecond -/

theorem LoopRec.tick_current (l : LoopRec) : (l.current = none → l.tick.current = none) ∧
    ∀ tr, l.current = some tr → (tr.window = .sending → l.tick.current = some tr) ∧
      ∀ n left, tr.window = .listening n left →
        l.tick.current = some { tr with window := .listening n (left.map (· - 10)) } := by
  refine ⟨fun h => by simp [LoopRec.tick, h], fun tr h => ⟨fun hw => ?_, fun n left hw => ?_⟩⟩
  · simp [LoopRec.tick, h, Transaction.tick, hw]
  · simp [LoopRec.tick, h, Transaction.tick, hw, tickTenths_eq]

theorem LoopRec.tick_post (l : LoopRec) (h : l.canonical = true) (p : Nat) :
    l.tick.post p = { l.post p with recovery := (l.post p).recovery.map (· - 1) } := by
  have hget := Tab.get_mapEntries (d := Post.reset)
    (fun _ (q : Post) => { q with recovery := tickTimer q.recovery }) (fun _ => rfl) ((LoopRec.canonical_iff l).1 h).1 p
  unfold LoopRec.post
  rw [← tickTimer_eq]
  exact hget

/-- Settles O2, block by block. -/
theorem idleStepPassesAMillisecond : Obligations.IdleStepPassesAMillisecond := by
  unfold Obligations.IdleStepPassesAMillisecond
  intro s hp
  have hpending : s.tick.pending = s.due1ms := by simp [State.tick, hp]
  refine ⟨s.tick, by simp [step, hp], fun hrun hclock => ?_, fun hsetup => ?_, fun sc => ?_, fun ln => ?_, fun r => ?_,
    rfl, hpending, rfl, fun sc => ?_, fun lp => ?_, fun hwf n => ?_, rfl, fun sc => ?_, fun ln => ?_, fun r => ?_,
    fun hwf n => ?_⟩
  · simp [State.tick, Link.tick, hrun, clockTop, hclock]
  · simp [State.tick, Link.tick, hsetup]
  · simp [State.tick, Screen.tick, tickTimer_eq]
  · simp [State.tick, Lane.tick, tickTimer_eq]
  · simp [State.tick, Yard.tick, tickTimer_eq]
  · simp [State.tick, Sound.tick, tickTimer_eq]
  · have hloop : s.tick.yard.loops[lp] = (s.yard.loops[lp]).tick := by simp [State.tick, Yard.tick]
    obtain ⟨hnone, hsome⟩ := (s.yard.loops[lp]).tick_current
    rw [hloop]
    exact ⟨(s.yard.loops[lp]).tick.posts, (s.yard.loops[lp]).tick.current, by rw [← tickTimer_eq]; rfl,
      LoopRec.tick_post _, hnone, hsome⟩
  · rw [← tickTimer_eq]
    exact Tab.get_mapEntries (fun _ => tickTimer) (fun _ => rfl) hwf n
  · rw [hpending]
    exact ⟨s.startTimer_due sc, s.countdown_due sc, s.motorLead_due sc, s.coastGap_due sc, s.coastLimit_due sc,
      s.lendTimer_due sc⟩
  · rw [hpending]
    exact s.lane_due ln
  · rw [hpending]
    exact s.takeTimer_due r
  · rw [hpending]
    exact s.limit_due hwf n

end Sys2Proof.Machine
end

section
/-! PROOF. A head line's change moves that line alone (R1, R31): no operation of a timeline writes a line, and none
reaches another screen or a lane. -/

namespace Sys2Proof.Machine

/-! ## The lines of the heads -/

/-- The three lines of a head as they stand (R1). -/
def HeadRec.lines (h : HeadRec) : Bool × Bool × Bool :=
  (h.atSpeed, h.runout, h.lampOk)

/-- Whether every head's lines stand as they did. -/
def Screen.sameLines (r t : Screen) : Prop :=
  ∀ x, (t.head x).lines = (r.head x).lines

theorem Screen.sameLines.refl {r : Screen} : r.sameLines r := fun _ => rfl

theorem Screen.sameLines.trans {r t u : Screen} (h : r.sameLines t) (k : t.sameLines u) : r.sameLines u :=
  fun x => (k x).trans (h x)

theorem Screen.sameLines_setHead (r : Screen) (h : Head) (v : HeadRec) (hv : v.lines = (r.head h).lines) :
    r.sameLines (r.setHead h v) := by
  intro x
  cases h <;> cases x <;> first | exact hv | rfl

theorem Screen.completed_sameLines (r : Screen) : r.sameLines r.completed := by
  intro x
  unfold Screen.completed
  obtain ⟨hinc, hout⟩ | ⟨hinc, hout⟩ := r.changeover_heads <;> rw [hinc, hout] <;> cases x <;> rfl

theorem Screen.breakEntered_sameLines (r : Screen) (len : Nat) : r.sameLines (r.breakEntered len) := by
  intro x
  unfold Screen.breakEntered
  obtain ⟨hinc, hout⟩ | ⟨hinc, hout⟩ := r.changeover_heads
  all_goals
    simp only [hout, Screen.incoming_countdown, Screen.setHead_incoming, hinc]
    by_cases hlead : len ≤ r.leadSetting <;> simp only [Screen.setHead, hlead, if_true, if_false] <;> cases x <;> rfl

section runs
variable {w : ShowRun}

theorem ShowRun.modHead_sameLines (h : Head) (f : HeadRec → HeadRec)
    (hf : ∀ v : HeadRec, (f v).lines = v.lines) : w.sc.sameLines (w.modHead h f).sc := by
  rw [ShowRun.modHead_sc]
  exact Screen.sameLines_setHead _ _ _ (hf _)

theorem ShowRun.motor_sameLines (h : Head) (on : Bool) : w.sc.sameLines (w.motor h on).sc :=
  ShowRun.modHead_sameLines h _ fun _ => rfl
theorem ShowRun.douser_sameLines (h : Head) (on : Bool) : w.sc.sameLines (w.douser h on).sc :=
  ShowRun.modHead_sameLines h _ fun _ => rfl
theorem ShowRun.clearStop_sameLines (h : Head) : w.sc.sameLines (w.clearStop h).sc :=
  ShowRun.modHead_sameLines h _ fun _ => rfl
theorem ShowRun.startMotor_sameLines (h : Head) : w.sc.sameLines (w.startMotor h).sc :=
  (ShowRun.motor_sameLines h true).trans (ShowRun.clearStop_sameLines h)

theorem ShowRun.enter_sameLines (st : ShowState) (cause : ShowCause) : w.sc.sameLines (w.enter st cause).sc := by
  rw [ShowRun.enter_sc]
  exact fun x => by cases x <;> rfl

theorem ShowRun.stopped_sameLines (r : Screen) : r.sameLines r.stopped := fun x => by cases x <;> rfl

theorem ShowRun.endShow_sameLines (cause : ShowCause) : w.sc.sameLines (w.endShow cause).sc := by
  rw [ShowRun.endShow_sc]
  exact fun x => by cases x <;> rfl

theorem ShowRun.holdForIncoming_sameLines : w.sc.sameLines w.holdForIncoming.sc := by
  rw [ShowRun.holdForIncoming_sc]
  intro x
  cases w.sc.incoming <;> cases x <;> rfl

theorem ShowRun.cueEffect_sameLines (c : Cue) : w.sc.sameLines (w.cueEffect c).sc := by
  unfold ShowRun.cueEffect
  split
  case h_1 => exact ShowRun.startMotor_sameLines _
  all_goals exact fun x => by cases x <;> rfl

/-- A way of completing a changeover that writes no line. -/
def keepsLines (done : ShowRun → ShowRun) : Prop :=
  ∀ w : ShowRun, w.sc.sameLines (done w).sc

theorem ShowRun.changeover_sameLines {done : ShowRun → ShowRun} (hd : keepsLines done) (len : Nat) :
    w.sc.sameLines (ShowRun.changeover done len w).sc := by
  unfold ShowRun.changeover
  split
  · split
    · exact hd w
    · dsimp only
      split
      · exact ShowRun.holdForIncoming_sameLines.trans (hd _)
      · exact ShowRun.holdForIncoming_sameLines
  · rw [ShowRun.enterBreak_sc]
    exact Screen.breakEntered_sameLines _ _

theorem ShowRun.fireCue_sameLines {done : ShowRun → ShowRun} (hd : keepsLines done) (e : Nat × Cue) :
    w.sc.sameLines (ShowRun.fireCue done w e).sc := by
  have hm : w.sc.sameLines (w.mod fun sc => sc.markFired e.1).sc := fun x => by cases x <;> rfl
  unfold ShowRun.fireCue
  dsimp only
  split
  · exact hm.trans (ShowRun.changeover_sameLines hd _)
  · exact hm.trans (ShowRun.cueEffect_sameLines _)

theorem ShowRun.complete_sameLines : w.sc.sameLines w.complete.sc := by
  rw [ShowRun.complete_sc]
  exact Screen.completed_sameLines _

theorem ShowRun.fireDue_sameLines (n frame : Nat) (w : ShowRun) : w.sc.sameLines (ShowRun.fireDue n frame w).sc := by
  induction n generalizing frame w with
  | zero => exact .refl
  | succ n ih =>
    unfold ShowRun.fireDue
    exact List.foldlRecOn (motive := fun v : ShowRun => w.sc.sameLines v.sc) _ _ .refl fun v hv e _ =>
      hv.trans (ShowRun.fireCue_sameLines (fun u => ShowRun.complete_sameLines.trans (ih 0 u.complete)) e)

theorem ShowRun.finishChangeover_sameLines : w.sc.sameLines w.finishChangeover.sc :=
  ShowRun.complete_sameLines.trans (ShowRun.fireDue_sameLines 3 0 w.complete)

theorem ShowRun.begin_sameLines : w.sc.sameLines w.begin.sc := by
  unfold ShowRun.begin
  refine Screen.sameLines.trans ?_ (ShowRun.fireDue_sameLines 3 0 _)
  intro x
  simp only [ShowRun.enter_sc, ShowRun.mod_sc, ShowRun.douser_sc, Screen.setHead, Screen.head]
  cases x <;> rfl

theorem ShowRun.heldReady_sameLines (h : Head) : w.sc.sameLines (w.heldReady h).sc := by
  unfold ShowRun.heldReady
  split
  · refine (ShowRun.douser_sameLines h true).trans ?_
    rw [ShowRun.enter_sc]
    exact fun x => by cases x <;> rfl
  · exact ShowRun.finishChangeover_sameLines

theorem ShowRun.lineReact_sameLines (h : Head) (before : HeadState) : w.sc.sameLines (w.lineReact h before).sc := by
  unfold ShowRun.lineReact ShowRun.cameToRunning
  split
  · split
    · exact ShowRun.begin_sameLines
    · split
      · exact ShowRun.heldReady_sameLines h
      · exact .refl
  · exact .refl

theorem ShowRun.stopMarked_sameLines (h : Head) :
    w.sc.sameLines (if (w.sc.head h).stopAtRunout then (w.motor h false).clearStop h else w).sc := by
  split
  · exact (ShowRun.motor_sameLines h false).trans (ShowRun.clearStop_sameLines h)
  · exact .refl

theorem ShowRun.halt_sameLines : w.sc.sameLines w.halt.sc := by
  unfold ShowRun.halt
  rw [ShowRun.enter_sc, ShowRun.shutDown_sc]
  exact fun x => by cases x <;> rfl

theorem ShowRun.faultEvent_sameLines (h : Head) (cause : FaultCause) : w.sc.sameLines (w.faultEvent h cause).sc := by
  unfold ShowRun.faultEvent
  extract_lets u v r
  have hv : w.sc.sameLines v.sc := by
    dsimp only [v]
    split
    · exact ShowRun.douser_sameLines (w := u) h false
    · exact .refl
  have hr : w.sc.sameLines r.sc := hv.trans (ShowRun.stopMarked_sameLines h)
  clear_value r
  split
  · split
    · refine hr.trans ?_
      simp only [ShowRun.enter_sc, ShowRun.raise_sc, ShowRun.mod_sc]
      exact fun x => by cases x <;> rfl
    · exact hr
  · split
    · exact hr.trans ShowRun.halt_sameLines
    · split
      · exact hr.trans (ShowRun.motor_sameLines h false)
      · exact hr
  · exact hr

theorem ShowRun.darken_sameLines (h : Head) : w.sc.sameLines (w.darken h).sc :=
  (ShowRun.douser_sameLines h false).trans (ShowRun.motor_sameLines h false)

theorem ShowRun.reelRunsOut_sameLines (h : Head) : w.sc.sameLines (w.reelRunsOut h).sc := by
  unfold ShowRun.reelRunsOut
  split
  · exact ShowRun.endShow_sameLines _
  · next i c _ =>
    have hm : w.sc.sameLines ((w.raise (.changeoverEarly w.id w.sc.reel w.sc.frame)).mod fun sc => sc.markFired i).sc :=
      fun x => by cases x <;> rfl
    have hf := hm.trans (ShowRun.changeover_sameLines (fun u => ShowRun.finishChangeover_sameLines) c.arg)
    dsimp only
    split
    · exact hf.trans (ShowRun.darken_sameLines h)
    · exact hf

theorem ShowRun.runoutOn_sameLines (h : Head) : w.sc.sameLines (w.runoutOn h).sc := by
  unfold ShowRun.runoutOn
  extract_lets u
  have hu : w.sc.sameLines u.sc := ShowRun.stopMarked_sameLines h
  clear_value u
  split
  · exact hu.trans (ShowRun.reelRunsOut_sameLines h)
  · split
    · exact hu.trans (ShowRun.darken_sameLines h)
    · exact hu

/-! ## The line changes -/

/-- After an operation that writes no line, a head's lines are those of the record it was given, the other's as before. -/
theorem Screen.lines_of_setHead {r t : Screen} {h : Head} {v : HeadRec} (ht : (r.setHead h v).sameLines t) :
    (t.head h).lines = v.lines ∧ ∀ x, x ≠ h → (t.head x).lines = (r.head x).lines := by
  refine ⟨by rw [ht h, Screen.head_setHead], fun x hx => ?_⟩
  rw [ht x]
  cases h <;> cases x <;> first | exact absurd rfl hx | rfl

theorem ShowRun.atSpeed_lines (w : ShowRun) (h : Head) (on : Bool) :
    ((w.atSpeed h on).sc.head h).lines = (on, (w.sc.head h).runout, (w.sc.head h).lampOk) ∧
      ∀ x, x ≠ h → ((w.atSpeed h on).sc.head x).lines = (w.sc.head x).lines := by
  by_cases hsame : (w.sc.head h).atSpeed = on
  · rw [show w.atSpeed h on = w from if_pos hsame, ← hsame]
    exact ⟨rfl, fun _ _ => rfl⟩
  · have hon : ∃ v : HeadRec, v.lines = (on, (w.sc.head h).runout, (w.sc.head h).lampOk) ∧
        (w.sc.setHead h v).sameLines (w.atSpeed h on).sc := by
      unfold ShowRun.atSpeed
      dsimp only
      rw [if_neg hsame]
      cases on with
      | true =>
        refine ⟨{ w.sc.head h with atSpeed := true, speedLost := false }, rfl, ?_⟩
        rw [if_pos rfl, ← ShowRun.modHead_sc w h fun r => { r with atSpeed := true, speedLost := false }]
        exact ShowRun.lineReact_sameLines h _
      | false =>
        rw [if_neg Bool.false_ne_true]
        split
        · refine ⟨{ w.sc.head h with atSpeed := false, speedLost := true }, rfl, ?_⟩
          rw [← ShowRun.modHead_sc w h fun r => { r with atSpeed := false, speedLost := true }]
          exact ShowRun.faultEvent_sameLines h _
        · refine ⟨{ w.sc.head h with atSpeed := false }, rfl, ?_⟩
          rw [← ShowRun.modHead_sc w h fun r => { r with atSpeed := false }]
          exact .refl
    obtain ⟨v, hv, hlines⟩ := hon
    rw [← hv]
    exact Screen.lines_of_setHead hlines

theorem ShowRun.runout_lines (w : ShowRun) (h : Head) (on : Bool) :
    ((w.runout h on).sc.head h).lines = ((w.sc.head h).atSpeed, on, (w.sc.head h).lampOk) ∧
      ∀ x, x ≠ h → ((w.runout h on).sc.head x).lines = (w.sc.head x).lines := by
  by_cases hsame : (w.sc.head h).runout = on
  · rw [show w.runout h on = w from if_pos hsame, ← hsame]
    exact ⟨rfl, fun _ _ => rfl⟩
  · have hlines : (w.sc.setHead h { w.sc.head h with runout := on }).sameLines (w.runout h on).sc := by
      rw [← ShowRun.modHead_sc w h fun r => { r with runout := on }]
      unfold ShowRun.runout
      dsimp only
      rw [if_neg hsame]
      split
      · split
        · exact ShowRun.runoutOn_sameLines h
        · exact .refl
      · exact ShowRun.lineReact_sameLines h _
    exact Screen.lines_of_setHead hlines

theorem ShowRun.lampOk_lines (w : ShowRun) (h : Head) (on : Bool) :
    ((w.lampOk h on).sc.head h).lines = ((w.sc.head h).atSpeed, (w.sc.head h).runout, on) ∧
      ∀ x, x ≠ h → ((w.lampOk h on).sc.head x).lines = (w.sc.head x).lines := by
  by_cases hsame : (w.sc.head h).lampOk = on
  · rw [show w.lampOk h on = w from if_pos hsame, ← hsame]
    exact ⟨rfl, fun _ _ => rfl⟩
  · have hlines : (w.sc.setHead h { w.sc.head h with lampOk := on }).sameLines (w.lampOk h on).sc := by
      rw [← ShowRun.modHead_sc w h fun r => { r with lampOk := on }]
      unfold ShowRun.lampOk
      dsimp only
      rw [if_neg hsame]
      split
      · exact ShowRun.lineReact_sameLines h _
      · exact ShowRun.faultEvent_sameLines h _
    exact Screen.lines_of_setHead hlines

end runs

/-! ## One screen's commands -/

/-- An operation of one screen's timeline touches no other screen, no other sound path and no lane. -/
theorem State.onShow_apart (s : State) (sc : ScreenId) (f : ShowRun → ShowRun) :
    s.apartFromScreen sc (s.onShow sc f) := by
  refine ⟨fun k hk => ⟨?_, State.onShow_sound_other s sc k hk f⟩, State.onShow_lanes s sc f⟩
  rw [State.onShow_screens, Fin.getElem_fin, Fin.getElem_fin]
  exact Vector.getElem_set_ne _ _ fun h => hk (Fin.ext h.symm)

theorem State.finish_apart {s t : State} {sc : ScreenId} (h : s.apartFromScreen sc t) :
    s.apartFromScreen sc t.finish := h

theorem HeadRec.lines_eq {h k : HeadRec} (e : h.lines = k.lines) :
    h.atSpeed = k.atSpeed ∧ h.runout = k.runout ∧ h.lampOk = k.lampOk := by
  obtain ⟨ha, e⟩ := Prod.mk.inj e
  obtain ⟨hr, hl⟩ := Prod.mk.inj e
  exact ⟨ha, hr, hl⟩

theorem HeadRec.lines_mk {h : HeadRec} {a r l : Bool} (e : h.lines = (a, r, l)) :
    h.atSpeed = a ∧ h.runout = r ∧ h.lampOk = l := by
  obtain ⟨ha, e⟩ := Prod.mk.inj e
  obtain ⟨hr, hl⟩ := Prod.mk.inj e
  exact ⟨ha, hr, hl⟩

/-- Settles O14, line by line. -/
theorem headLinesFollowed : Obligations.HeadLinesFollowed := by
  unfold Obligations.HeadLinesFollowed
  intro s sc h on others hothers
  have hframe (f : ShowRun → ShowRun) (hf : ∀ x, x ≠ h → ((f (s.showRun sc)).sc.head x).lines = (s.screens[sc].head x).lines) :
      others (s.onShow sc f).finish := by
    rw [hothers]
    refine ⟨State.finish_apart (s.onShow_apart sc f), fun x hx => ?_⟩
    rw [State.finish_screens, State.onShow_screen]
    exact HeadRec.lines_eq (hf x hx)
  have hscreen (f : ShowRun → ShowRun) : (s.onShow sc f).finish.screens[sc] = (f (s.showRun sc)).sc := by
    rw [State.finish_screens, State.onShow_screen]
  refine ⟨?_, ?_, ?_⟩
  · obtain ⟨hself, hother⟩ := (s.showRun sc).atSpeed_lines h on
    obtain ⟨ha, hr, hl⟩ := HeadRec.lines_mk hself
    refine ⟨_, rfl, ?_, ?_, ?_, hframe (fun w => w.atSpeed h on) hother⟩ <;> rw [hscreen]
    exacts [ha, hr, hl]
  · obtain ⟨hself, hother⟩ := (s.showRun sc).runout_lines h on
    obtain ⟨ha, hr, hl⟩ := HeadRec.lines_mk hself
    refine ⟨_, rfl, ?_, ?_, ?_, hframe (fun w => w.runout h on) hother⟩ <;> rw [hscreen]
    exacts [hr, ha, hl]
  · obtain ⟨hself, hother⟩ := (s.showRun sc).lampOk_lines h on
    obtain ⟨ha, hr, hl⟩ := HeadRec.lines_mk hself
    refine ⟨_, rfl, ?_, ?_, ?_, hframe (fun w => w.lampOk h on) hother⟩ <;> rw [hscreen]
    exacts [hl, ha, hr]

end Sys2Proof.Machine
end

section
/-! SUPPORT. What a timeline operation comes to when it is known what it tells: the reports it raises in order, the source
its last notice asks for, and the reply of a request it takes. -/

namespace Sys2Proof.Machine

/-! ## An operation that tells reports alone -/

section reports
variable {s : State} {sc : ScreenId} {r : Screen} {rs : List Report}

theorem event_show_reports {f : ShowRun → ShowRun} (hs : s.settled)
    (hf : f (s.showRun sc) = { id := sc, sc := r, out := rs.map Effect.report }) :
    event (fun s => s.onShow sc f) s = .next ((s.withScreen sc r).reported rs) := by
  rw [event_next, State.onShow_reports s sc f r rs hf, State.finish_raiseAll (s.withScreen sc r) rs hs]

theorem request_show_reports {f : ShowRun → ShowRun} {kind tag : Nat} {body : State → Reply × State} {p : Reply}
    (hs : s.ready) (hb : body s = (p, s.onShow sc f))
    (hf : f (s.showRun sc) = { id := sc, sc := r, out := rs.map Effect.report }) :
    request kind tag body s = .next ((s.withScreen sc r).answered kind tag p rs) :=
  request_answers kind tag body s (s.withScreen sc r) p rs hs.2 (by rw [hb, State.onShow_reports s sc f r rs hf]) hs.1

/-- An operation that changes nothing and tells nothing. -/
theorem event_show_same {f : ShowRun → ShowRun} (hs : s.settled) (hf : f (s.showRun sc) = s.showRun sc) :
    event (fun s => s.onShow sc f) s = .next (s.reported []) := by
  rw [event_show_reports (r := s.screens[sc]) (rs := []) hs hf, State.withScreen_same]

theorem event_show_screen (f : ShowRun → ShowRun) : ∃ t, event (fun s => s.onShow sc f) s = .next t ∧
    t.screens[sc] = (f (s.showRun sc)).sc ∧ t.sound = (s.onShow sc f).sound ∧
    t.yard.held = (s.onShow sc f).yard.held ∧ t.link = s.link.after (s.onShow sc f).yard.raised :=
  ⟨_, rfl, by rw [State.finish_screens, State.onShow_screen], rfl, rfl, by rw [State.finish_link, State.onShow_link]⟩

end reports

/-! ## The reports of an operation, in order -/

/-- What a timeline tells adds to the reports raised, and takes none back. -/
theorem State.foldl_effect_raised (sc : ScreenId) (es : List Effect) (s : State) :
    s.yard.raised <+: (es.foldl (State.effect sc) s).yard.raised :=
  (State.blockStep.effects (c := .powerOn)).yard (.raised s.yard.raised) (List.prefix_refl _)

/-- A report a timeline tells stands among those raised, after what was raised before it. -/
theorem State.onShow_tells {s : State} {sc : ScreenId} {f : ShowRun → ShowRun} {pre post : List Effect} {r : Report}
    (h : (f (s.showRun sc)).out = pre ++ .report r :: post) :
    ∃ a b, (s.onShow sc f).yard.raised = s.yard.raised ++ a ++ r :: b := by
  have hw : (s.onShow sc f) = (pre ++ .report r :: post).foldl (State.effect sc)
      { s with screens := s.screens.set sc (f (s.showRun sc)).sc } := by rw [← h]; rfl
  obtain ⟨a, ha⟩ := State.foldl_effect_raised sc pre { s with screens := s.screens.set sc (f (s.showRun sc)).sc }
  rw [List.foldl_append, List.foldl_cons] at hw
  obtain ⟨b, hb⟩ := State.foldl_effect_raised sc post
    ((pre.foldl (State.effect sc) { s with screens := s.screens.set sc (f (s.showRun sc)).sc }).effect sc (.report r))
  refine ⟨a, b, ?_⟩
  rw [hw, ← hb]
  simp only [State.effect, State.raise, Yard.raise, ← ha, List.append_assoc, List.singleton_append]

/-- A report a timeline tells first stands first among those raised. -/
theorem State.onShow_tells_first {s : State} {sc : ScreenId} {f : ShowRun → ShowRun} {post : List Effect} {r : Report}
    (h : (f (s.showRun sc)).out = .report r :: post) : ∃ b, (s.onShow sc f).yard.raised = s.yard.raised ++ r :: b := by
  have hw : (s.onShow sc f) = (.report r :: post).foldl (State.effect sc)
      { s with screens := s.screens.set sc (f (s.showRun sc)).sc } := by rw [← h]; rfl
  obtain ⟨b, hb⟩ := State.foldl_effect_raised sc post
    (({ s with screens := s.screens.set sc (f (s.showRun sc)).sc } : State).effect sc (.report r))
  refine ⟨b, ?_⟩
  rw [hw, List.foldl_cons, ← hb]
  simp only [State.effect, State.raise, Yard.raise, List.append_assoc, List.singleton_append]

/-! ## The source asked for -/

/-- A frame event asks for no source (R42). -/
theorem SoundRun.frameEvent_asked (w : SoundRun) (f : BitVec 32) : (w.frameEvent f).sd.asked = w.sd.asked := by
  have hgap : w.closeGap.sd.asked = w.sd.asked := by unfold SoundRun.closeGap; split <;> rfl
  have hlock (v : SoundRun) (e : Int) : (v.lockRun e).sd.asked = v.sd.asked := by
    unfold SoundRun.lockRun
    dsimp only
    repeat' split
    all_goals rfl
  have hcapture : (w.capture f).sd.asked = w.sd.asked := hgap
  have hjump : (w.jump f).sd.asked = w.sd.asked := by
    unfold SoundRun.jump
    dsimp only
    split <;> exact hgap
  have hrate : (w.setRate f).sd.asked = w.sd.asked := by
    unfold SoundRun.setRate
    dsimp only
    split
    · exact hlock _ _
    · exact hlock _ _
  unfold SoundRun.frameEvent
  split
  · split
    · exact hcapture
    · exact hcapture
    · split
      · exact hjump
      · exact hrate
  · rfl

/-- Whether a timeline tells a show state notice. -/
def Effect.isNotice : Effect → Bool
  | .notice _ => true
  | _ => false

/-- What is told beside the notices asks for no source. -/
theorem State.foldl_effect_asked (sc : ScreenId) (es : List Effect) (s : State) (h : ∀ e ∈ es, e.isNotice = false) :
    ((es.foldl (State.effect sc) s).sound[sc]).asked = s.sound[sc].asked := by
  induction es generalizing s with
  | nil => rfl
  | cons e es ih =>
    rw [List.foldl_cons, ih _ fun x hx => h x (List.mem_cons_of_mem _ hx)]
    cases e with
    | report r => rfl
    | notice st => cases h _ List.mem_cons_self
    | frameEvent f =>
      simp only [State.effect, State.onSound_sound, Fin.getElem_fin, Vector.getElem_set_self]
      exact SoundRun.frameEvent_asked _ f
    | release => rfl

/-- The source asked for is that of the last notice, whatever else is told after it. -/
theorem State.onShow_asked_of_notice (s : State) (sc : ScreenId) (f : ShowRun → ShowRun) (pre post : List Effect)
    (st : ShowState) (src : Source) (hf : (f (s.showRun sc)).out = pre ++ .notice st :: post)
    (hpost : ∀ e ∈ post, e.isNotice = false) (h : noticeSource st = some src) :
    ((s.onShow sc f).sound[sc]).asked = src := by
  have hw : (s.onShow sc f) = (pre ++ .notice st :: post).foldl (State.effect sc)
      { s with screens := s.screens.set sc (f (s.showRun sc)).sc } := by rw [← hf]; rfl
  rw [hw, List.foldl_append, List.foldl_cons, State.foldl_effect_asked _ _ _ hpost]
  exact State.effect_notice_asked _ _ _ _ h

end Sys2Proof.Machine
end

section
/-! SUPPORT. What a timeline has told stays told, in order, through every operation. -/

namespace Sys2Proof.Machine

section told
variable (w : ShowRun)

theorem ShowRun.tell_told (e : Effect) : w.out <+: (w.tell e).out := List.prefix_append _ _
theorem ShowRun.raise_told (r : Report) : w.out <+: (w.raise r).out := List.prefix_append _ _

theorem ShowRun.modHead_told (h : Head) (f : HeadRec → HeadRec) : w.out <+: (w.modHead h f).out := by
  unfold ShowRun.modHead
  dsimp only
  split
  · exact ShowRun.raise_told (w.mod _) _
  · exact List.prefix_refl _

theorem ShowRun.motor_told (h : Head) (on : Bool) : w.out <+: (w.motor h on).out := w.modHead_told h _
theorem ShowRun.douser_told (h : Head) (on : Bool) : w.out <+: (w.douser h on).out := w.modHead_told h _
theorem ShowRun.clearStop_told (h : Head) : w.out <+: (w.clearStop h).out := w.modHead_told h _
theorem ShowRun.startMotor_told (h : Head) : w.out <+: (w.startMotor h).out :=
  (w.motor_told h true).trans (ShowRun.clearStop_told _ h)

theorem ShowRun.enter_told (st : ShowState) (cause : ShowCause) : w.out <+: (w.enter st cause).out := by
  unfold ShowRun.enter
  dsimp only
  split
  · exact List.prefix_refl _
  · have hraised := ShowRun.raise_told (w.mod fun sc => { sc with phase := st })
      (.showState w.id w.sc.phase st w.sc.reel cause)
    cases st with
    | playing | onBreak | ended | halted | dark => exact hraised.trans (ShowRun.tell_told _ _)
    | loaded | starting | held => exact hraised

theorem ShowRun.activate_told : w.out <+: w.activate.out := by
  unfold ShowRun.activate
  dsimp only
  split
  · exact ShowRun.raise_told _ _
  · split
    · exact List.prefix_refl _
    · exact ShowRun.raise_told _ _

theorem ShowRun.holdForIncoming_told : w.out <+: w.holdForIncoming.out :=
  ((ShowRun.startMotor_told (w.mod _) _).trans (ShowRun.raise_told _ _)).trans (ShowRun.enter_told _ _ _)

theorem ShowRun.enterBreak_told (len : Nat) : w.out <+: (w.enterBreak len).out := by
  unfold ShowRun.enterBreak
  extract_lets out w1 w2 w3 w4
  have h1 : w.out <+: w1.out := (w.douser_told out false).trans (ShowRun.motor_told _ out false)
  have h3 : w2.out <+: w3.out := by
    dsimp only [w3]
    split
    · exact List.prefix_refl _
    · exact ShowRun.tell_told _ _
  have h4 : w3.out <+: w4.out := by
    dsimp only [w4]
    split
    · exact ShowRun.startMotor_told _ _
    · exact List.prefix_refl _
  exact ((h1.trans h3).trans h4).trans (ShowRun.enter_told _ _ _)

/-- The outgoing head at a completion, and the reel raised: what precedes the examination of the staged slot (R14). -/
def ShowRun.reelPassed : ShowRun :=
  let out := w.sc.outgoing
  let w := w.douser out false
  let w := if w.isRunning out then w.modHead out fun r => { r with stopAtRunout := true } else w.motor out false
  w.mod fun sc => { sc with countdown := none, heldHead := none, reel := sc.reel + 1 }

/-- What follows the examination of the staged slot at a completion (R14). -/
def ShowRun.pictureOpened (inc : Head) : ShowRun :=
  (((w.clearStop inc).douser inc true).mod fun sc =>
    { sc with frame := 0, orderingOpen := true, breakWindow := false }).enter .playing .changeover

theorem ShowRun.complete_eq : w.complete = w.reelPassed.activate.pictureOpened w.sc.incoming := rfl

theorem ShowRun.reelPassed_told : w.out <+: w.reelPassed.out := by
  refine (w.douser_told w.sc.outgoing false).trans ?_
  unfold ShowRun.reelPassed
  dsimp only [ShowRun.mod_out]
  split
  · exact ShowRun.modHead_told _ _ _
  · exact ShowRun.motor_told _ _ _

theorem ShowRun.pictureOpened_told (inc : Head) : w.out <+: (w.pictureOpened inc).out :=
  ((w.clearStop_told inc).trans (ShowRun.douser_told _ inc true)).trans (ShowRun.enter_told (ShowRun.mod _ _) _ _)

theorem ShowRun.complete_told : w.out <+: w.complete.out := by
  rw [ShowRun.complete_eq]
  exact (w.reelPassed_told.trans (ShowRun.activate_told _)).trans (ShowRun.pictureOpened_told _ _)

theorem ShowRun.cueEffect_told (c : Cue) : w.out <+: (w.cueEffect c).out := by
  unfold ShowRun.cueEffect
  split
  case h_1 => exact ShowRun.startMotor_told _ _
  case h_6 => exact ShowRun.tell_told _ _
  case h_7 => exact ShowRun.raise_told _ _
  all_goals exact List.prefix_refl _

variable {done : ShowRun → ShowRun} (hdone : ∀ w : ShowRun, w.out <+: (done w).out)

include hdone in
theorem ShowRun.changeover_told (len : Nat) : w.out <+: (ShowRun.changeover done len w).out := by
  unfold ShowRun.changeover
  split
  · split
    · exact hdone w
    · dsimp only
      split
      · exact w.holdForIncoming_told.trans (hdone _)
      · exact w.holdForIncoming_told
  · exact w.enterBreak_told len

include hdone in
theorem ShowRun.fireCue_told (e : Nat × Cue) : w.out <+: (ShowRun.fireCue done w e).out := by
  unfold ShowRun.fireCue
  dsimp only
  split
  · exact ShowRun.changeover_told (w.mod _) hdone _
  · exact ShowRun.cueEffect_told (w.mod _) _

theorem ShowRun.fireDue_told (n frame : Nat) : w.out <+: (ShowRun.fireDue n frame w).out := by
  induction n generalizing frame w with
  | zero => exact List.prefix_refl _
  | succ n ih =>
    unfold ShowRun.fireDue
    exact List.foldlRecOn (motive := fun v : ShowRun => w.out <+: v.out) _ _ (List.prefix_refl _) fun v hv e _ =>
      hv.trans (ShowRun.fireCue_told v (fun u => u.complete_told.trans (ih u.complete 0)) e)

end told

/-! ## Cues that are no CHANGEOVER send no notice -/

theorem ShowRun.fireEffect_quiet (w : ShowRun) (e : Nat × Cue) :
    ∃ post, (w.fireEffect e).out = w.out ++ post ∧ ∀ x ∈ post, x.isNotice = false := by
  unfold ShowRun.fireEffect ShowRun.cueEffect
  split
  case h_1 => exact ⟨[], by simp, by simp⟩
  case h_6 => exact ⟨[.release], by simp, by simp [Effect.isNotice]⟩
  case h_7 => exact ⟨[.report _], by rw [ShowRun.raise_out, ShowRun.mod_out], by simp [Effect.isNotice]⟩
  all_goals exact ⟨[], by simp, by simp⟩

theorem ShowRun.foldl_fireEffect_quiet (due : List (Nat × Cue)) (w : ShowRun) :
    ∃ post, (due.foldl ShowRun.fireEffect w).out = w.out ++ post ∧ ∀ x ∈ post, x.isNotice = false := by
  induction due generalizing w with
  | nil => exact ⟨[], by simp, by simp⟩
  | cons e due ih =>
    obtain ⟨p, hp, hpq⟩ := w.fireEffect_quiet e
    obtain ⟨q, hq, hqq⟩ := ih (w.fireEffect e)
    refine ⟨p ++ q, by rw [List.foldl_cons, hq, hp, List.append_assoc], fun x hx => ?_⟩
    exact (List.mem_append.1 hx).elim (hpq x) (hqq x)

theorem ShowRun.fireDue_quiet (n frame : Nat) (w : ShowRun) (h : noChangeover (w.sc.due frame)) :
    ∃ post, (ShowRun.fireDue (n + 1) frame w).out = w.out ++ post ∧ ∀ x ∈ post, x.isNotice = false := by
  rw [ShowRun.fireDue, ShowRun.foldl_fireCue_effect _ _ _ h]
  exact ShowRun.foldl_fireEffect_quiet _ w

end Sys2Proof.Machine
end

section
/-! PROOF. The fault events of a head, and what becomes of a held screen (R2, R3, R15, R21 to R24). -/

namespace Sys2Proof.Machine

/-! ## Changes of a head record -/

theorem HeadRec.fault_of_lampLost {x : HeadRec} (h : x.lampOk = false) : x.state = .fault := by
  simp [HeadRec.state, h]

theorem HeadRec.fault_of_speedLost {x : HeadRec} (h : x.speedLost = true) : x.state = .fault := by
  simp [HeadRec.state, h]

theorem HeadRec.state_speedLost_cleared (x : HeadRec) (h : x.speedLost = false) :
    ({ x with speedLost := false } : HeadRec) = x := by
  cases x; cases h; rfl

/-- A change that does not take a head out of FAULT reports nothing (R2). -/
theorem ShowRun.modHead_quiet (w : ShowRun) (h : Head) (f : HeadRec → HeadRec)
    (hq : (w.sc.head h).state = .fault → (f (w.sc.head h)).state = .fault) :
    w.modHead h f = { w with sc := w.sc.setHead h (f (w.sc.head h)) } := by
  unfold ShowRun.modHead
  dsimp only
  rw [if_neg fun hc => hc.2 (hq hc.1)]
  rfl

/-- A change that takes a head out of FAULT is reported (R2). -/
theorem ShowRun.modHead_recovers (w : ShowRun) (h : Head) (f : HeadRec → HeadRec) (ho : (w.sc.head h).state = .fault)
    (hn : (f (w.sc.head h)).state ≠ .fault) : w.modHead h f = { w with
      sc := w.sc.setHead h (f (w.sc.head h)), out := w.out ++ [.report (.headOk w.id h (f (w.sc.head h)).state)] } := by
  unfold ShowRun.modHead
  dsimp only
  rw [if_pos ⟨ho, hn⟩]
  rfl

/-- What a change of a head reports, if anything, is that it has left FAULT (R2). -/
theorem ShowRun.modHead_tells (w : ShowRun) (h : Head) (f : HeadRec → HeadRec) :
    ∃ rs : List Report, (∀ q ∈ rs, ∃ st, q = .headOk w.id h st) ∧ w.modHead h f = { w with
      sc := w.sc.setHead h (f (w.sc.head h)), out := w.out ++ rs.map Effect.report } := by
  by_cases hc : (w.sc.head h).state = .fault ∧ (f (w.sc.head h)).state ≠ .fault
  · exact ⟨[.headOk w.id h (f (w.sc.head h)).state], by simp, w.modHead_recovers h f hc.1 hc.2⟩
  · refine ⟨[], by simp, ?_⟩
    rw [w.modHead_quiet h f fun ho => by by_contra hn; exact hc ⟨ho, hn⟩]
    simp

theorem ShowRun.douser_eq (w : ShowRun) (h : Head) (on : Bool) :
    w.douser h on = { w with sc := w.sc.setHead h { w.sc.head h with douser := on } } :=
  w.modHead_quiet h _ fun hf => hf

theorem ShowRun.clearStop_eq (w : ShowRun) (h : Head) :
    w.clearStop h = { w with sc := w.sc.setHead h { w.sc.head h with stopAtRunout := false } } :=
  w.modHead_quiet h _ fun hf => hf

/-- A motor command on a head with no speed lost reports nothing (R1, R2). -/
theorem ShowRun.motor_eq (w : ShowRun) (h : Head) (on : Bool) (hs : (w.sc.head h).speedLost = false) :
    w.motor h on = { w with sc := w.sc.setHead h { w.sc.head h with motor := on } } := by
  have hand : ((w.sc.head h).speedLost && on) = (w.sc.head h).speedLost := by rw [hs]; rfl
  have hrec : ({ w.sc.head h with motor := on, speedLost := (w.sc.head h).speedLost && on } : HeadRec) =
      { w.sc.head h with motor := on } := by rw [hand]
  refine (w.modHead_quiet h _ fun hf => ?_).trans (by rw [hrec])
  rw [hrec]
  exact (HeadRec.fault_iff (w.sc.head h) { w.sc.head h with motor := on } rfl rfl).2 hf

/-- Turning its motor off takes a head with its speed lost out of FAULT (R1, R2). -/
theorem ShowRun.motor_off_recovers (w : ShowRun) (h : Head) (hs : (w.sc.head h).speedLost = true)
    (hl : (w.sc.head h).lampOk = true) : w.motor h false = { w with
      sc := w.sc.setHead h { w.sc.head h with motor := false, speedLost := false }
      out := w.out ++ [.report (.headOk w.id h .idle)] } := by
  refine (w.modHead_recovers h _ (HeadRec.fault_of_speedLost hs) ?_).trans ?_ <;> simp [HeadRec.state, hl]

/-- A motor command on a head whose lamp is out leaves it in FAULT. -/
theorem ShowRun.motor_dark (w : ShowRun) (h : Head) (on : Bool) (hl : (w.sc.head h).lampOk = false) :
    w.motor h on = { w with sc := w.sc.setHead h { w.sc.head h with
      motor := on, speedLost := (w.sc.head h).speedLost && on } } :=
  w.modHead_quiet h _ fun _ => HeadRec.fault_of_lampLost hl

/-! ## The fault event by its show state -/

/-- What a fault event does whatever the show state: it is reported, a speed loss closes an open douser, and a head marked
to stop stops (R2, R3, R15). -/
def ShowRun.faultTaken (w : ShowRun) (h : Head) (cause : FaultCause) : ShowRun :=
  let w := w.raise (.headFault w.id h cause w.sc.phase)
  let w := if cause = .speed ∧ (w.sc.head h).douser then w.douser h false else w
  if (w.sc.head h).stopAtRunout then (w.motor h false).clearStop h else w

theorem ShowRun.faultTaken_phase (w : ShowRun) (h : Head) (cause : FaultCause) :
    (w.faultTaken h cause).sc.phase = w.sc.phase := by
  unfold ShowRun.faultTaken
  dsimp only
  repeat' split
  all_goals simp

theorem ShowRun.faultTaken_heldHead (w : ShowRun) (h : Head) (cause : FaultCause) :
    (w.faultTaken h cause).sc.heldHead = w.sc.heldHead := by
  unfold ShowRun.faultTaken
  dsimp only
  repeat' split
  all_goals simp

theorem Screen.isOnScreen_setHead (r : Screen) (h k : Head) (v : HeadRec) :
    (r.setHead h v).isOnScreen k = r.isOnScreen k := by
  cases h <;> rfl

theorem ShowRun.faultTaken_isOnScreen (w : ShowRun) (h : Head) (cause : FaultCause) (k : Head) :
    (w.faultTaken h cause).sc.isOnScreen k = w.sc.isOnScreen k := by
  unfold ShowRun.faultTaken
  dsimp only
  repeat' split
  all_goals simp [Screen.isOnScreen_setHead]

/-- Outside HELD, and but for a speed loss of the on-screen head in PLAYING, that is all a fault event does. -/
theorem ShowRun.faultEvent_taken (w : ShowRun) (h : Head) (cause : FaultCause) (hheld : w.sc.phase ≠ .held)
    (hp : ¬(cause = .speed ∧ w.sc.isOnScreen h = true)) : w.faultEvent h cause = w.faultTaken h cause := by
  have hphase := w.faultTaken_phase h cause
  have hon := w.faultTaken_isOnScreen h cause h
  rw [← hon] at hp
  rw [← hphase] at hheld
  change (match (w.faultTaken h cause).sc.phase with | .playing => _ | .held => _ | _ => _) = _
  split
  · exact if_neg hp
  · next hh => exact absurd hh hheld
  · rfl

/-- A speed loss of the on-screen head in PLAYING is a stall (R22). -/
theorem ShowRun.faultEvent_stalls (w : ShowRun) (h : Head) (hphase : w.sc.phase = .playing)
    (hon : w.sc.isOnScreen h = true) : w.faultEvent h .speed =
      (((w.faultTaken h .speed).mod fun sc => { sc with heldHead := some h }).raise (.stall (w.faultTaken h .speed).id h
        (w.faultTaken h .speed).sc.reel (w.faultTaken h .speed).sc.frame)).enter .held .stall := by
  rw [← w.faultTaken_phase h .speed] at hphase
  rw [← w.faultTaken_isOnScreen h .speed h] at hon
  change (match (w.faultTaken h .speed).sc.phase with | .playing => _ | .held => _ | _ => _) = _
  rw [hphase]
  exact if_pos ⟨rfl, hon⟩

/-- A fault event of the held head halts the screen (R24). -/
theorem ShowRun.faultEvent_halts (w : ShowRun) (h : Head) (cause : FaultCause) (hphase : w.sc.phase = .held)
    (hh : w.sc.heldHead = some h) : w.faultEvent h cause = (w.faultTaken h cause).halt := by
  rw [← w.faultTaken_phase h cause] at hphase
  rw [← w.faultTaken_heldHead h cause] at hh
  change (match (w.faultTaken h cause).sc.phase with | .playing => _ | .held => _ | _ => _) = _
  rw [hphase]
  exact if_pos hh

/-! ## The line changes that are fault events -/

theorem ShowRun.lampOk_lost (w : ShowRun) (h : Head) (hl : (w.sc.head h).lampOk = true) : w.lampOk h false =
    ({ w with sc := w.sc.setHead h { w.sc.head h with lampOk := false } } : ShowRun).faultEvent h .lamp := by
  unfold ShowRun.lampOk
  dsimp only
  rw [if_neg (by simp [hl]), if_neg Bool.false_ne_true, w.modHead_quiet h _ fun _ => HeadRec.fault_of_lampLost rfl]

theorem ShowRun.atSpeed_lost (w : ShowRun) (h : Head) (ha : (w.sc.head h).atSpeed = true)
    (hm : (w.sc.head h).motor = true) : w.atSpeed h false =
    ({ w with sc := w.sc.setHead h { w.sc.head h with atSpeed := false, speedLost := true } } : ShowRun).faultEvent h
      .speed := by
  unfold ShowRun.atSpeed
  dsimp only
  rw [if_neg (by simp [ha]), if_neg Bool.false_ne_true, if_pos hm,
    w.modHead_quiet h _ fun _ => HeadRec.fault_of_speedLost rfl]

section faults
variable {s : State} {sc : ScreenId} {h : Head}

/-- A lamp fault outside HELD of a head that is not marked to stop is reported and no more (R2, R3). -/
theorem ShowRun.lampOk_reported (w : ShowRun) (h : Head) (hstop : (w.sc.head h).stopAtRunout = false)
    (hheld : w.sc.phase ≠ .held) (hl : (w.sc.head h).lampOk = true) : w.lampOk h false = { w with
      sc := w.sc.setHead h { w.sc.head h with lampOk := false }
      out := w.out ++ [.report (.headFault w.id h .lamp w.sc.phase)] } := by
  rw [w.lampOk_lost h hl, ShowRun.faultEvent_taken _ _ _ (by simpa using hheld) (by simp)]
  simp [ShowRun.faultTaken, hstop, ShowRun.raise, ShowRun.tell]

/-- A lamp fault outside HELD of a head that is marked to stop stops it in FAULT (R15). -/
theorem ShowRun.lampOk_stops (w : ShowRun) (h : Head) (hstop : (w.sc.head h).stopAtRunout = true)
    (hheld : w.sc.phase ≠ .held) (hl : (w.sc.head h).lampOk = true) : w.lampOk h false = { w with
      sc := w.sc.setHead h { w.sc.head h with
        lampOk := false, motor := false, speedLost := false, stopAtRunout := false }
      out := w.out ++ [.report (.headFault w.id h .lamp w.sc.phase)] } := by
  rw [w.lampOk_lost h hl, ShowRun.faultEvent_taken _ _ _ (by simpa using hheld) (by simp)]
  simp [ShowRun.faultTaken, hstop, ShowRun.raise, ShowRun.tell, ShowRun.motor_dark, ShowRun.clearStop_eq]

/-- A speed loss of a head that is off screen and marked to stop stops it, and so takes it out of FAULT (R1, R15). -/
theorem ShowRun.atSpeed_stops (w : ShowRun) (h : Head) (hstop : (w.sc.head h).stopAtRunout = true)
    (hheld : w.sc.phase ≠ .held) (ha : (w.sc.head h).atSpeed = true) (hm : (w.sc.head h).motor = true)
    (hl : (w.sc.head h).lampOk = true) (hoff : w.sc.isOnScreen h = false) : w.atSpeed h false = { w with
      sc := w.sc.setHead h { w.sc.head h with
        atSpeed := false, motor := false, douser := false, speedLost := false, stopAtRunout := false }
      out := w.out ++ [.report (.headFault w.id h .speed w.sc.phase), .report (.headOk w.id h .idle)] } := by
  rw [w.atSpeed_lost h ha hm, ShowRun.faultEvent_taken _ _ _ (by simpa using hheld)
    (by simp [Screen.isOnScreen_setHead, hoff])]
  unfold ShowRun.faultTaken
  dsimp only
  by_cases hd : (w.sc.head h).douser = true
  · simp [hstop, hd, hl, ShowRun.raise, ShowRun.tell, ShowRun.douser_eq, ShowRun.clearStop_eq,
      ShowRun.motor_off_recovers]
  · have hd : (w.sc.head h).douser = false := by simpa using hd
    simp [hstop, hd, hl, ShowRun.raise, ShowRun.tell, ShowRun.clearStop_eq, ShowRun.motor_off_recovers]

/-- A speed loss of the on-screen head in PLAYING: the douser is closed and the screen HELD for that head (R22). -/
theorem ShowRun.atSpeed_stalls (w : ShowRun) (h : Head) (hstop : (w.sc.head h).stopAtRunout = false)
    (hphase : w.sc.phase = .playing) (hon : w.sc.isOnScreen h = true) (ha : (w.sc.head h).atSpeed = true)
    (hm : (w.sc.head h).motor = true) : w.atSpeed h false = { w with
      sc := { w.sc.setHead h { w.sc.head h with atSpeed := false, speedLost := true, douser := false } with
        phase := .held, heldHead := some h }
      out := w.out ++ [.report (.headFault w.id h .speed .playing), .report (.stall w.id h w.sc.reel w.sc.frame),
        .report (.showState w.id .playing .held w.sc.reel .stall)] } := by
  rw [w.atSpeed_lost h ha hm, ShowRun.faultEvent_stalls _ _ (by simpa using hphase)
    (by simpa [Screen.isOnScreen_setHead] using hon)]
  have htaken : ({ w with sc := w.sc.setHead h { w.sc.head h with atSpeed := false, speedLost := true } } :
      ShowRun).faultTaken h .speed = { w with
        sc := w.sc.setHead h { w.sc.head h with atSpeed := false, speedLost := true, douser := false }
        out := w.out ++ [.report (.headFault w.id h .speed .playing)] } := by
    unfold ShowRun.faultTaken
    dsimp only
    by_cases hd : (w.sc.head h).douser = true
    · simp [hstop, hd, hphase, ShowRun.raise, ShowRun.tell, ShowRun.douser_eq]
    · have hd : (w.sc.head h).douser = false := by simpa using hd
      simp [hstop, hd, hphase, ShowRun.raise, ShowRun.tell]
  rw [htaken]
  simp [ShowRun.enter, ShowRun.mod, ShowRun.raise, ShowRun.tell, hphase]

end faults

/-- Settles O15, event by event. -/
theorem headFaultsTaken : Obligations.HeadFaultsTaken := by
  unfold Obligations.HeadFaultsTaken
  rintro s sc h r hs rfl
  refine ⟨fun hstop hheld => ⟨fun hl => ?_, fun ha hm hl hoff => ?_⟩, fun hstop hphase hon ha hm => ?_,
    fun hstop hheld hl => ?_⟩
  · exact event_show_reports hs ((s.showRun sc).lampOk_stops h hstop hheld hl)
  · exact event_show_reports hs ((s.showRun sc).atSpeed_stops h hstop hheld ha hm hl hoff)
  · exact event_show_reports hs ((s.showRun sc).atSpeed_stalls h hstop hphase hon ha hm)
  · exact event_show_reports hs ((s.showRun sc).lampOk_reported h hstop hheld hl)

end Sys2Proof.Machine
end

section
/-! PROOF. The second fault and the recovery of a held screen (R23, R24). -/

namespace Sys2Proof.Machine

/-! ## The second fault (R24) -/

/-- A head's motor, douser and markers do not matter where both heads are then stopped. -/
theorem Screen.stopped_setHead (r : Screen) (h : Head) (x : HeadRec) (hl : x.lines = (r.head h).lines) :
    (r.setHead h x).stopped = r.stopped := by
  obtain ⟨ha, hr, hl⟩ := HeadRec.lines_eq hl
  cases h <;> simp_all [Screen.stopped, HeadRec.stopped, Screen.setHead, Screen.head]

theorem ShowRun.faultTaken_stopped (w : ShowRun) (h : Head) (cause : FaultCause) :
    (w.faultTaken h cause).sc.stopped = w.sc.stopped := by
  unfold ShowRun.faultTaken
  dsimp only
  repeat' split
  all_goals
    simp only [ShowRun.clearStop_sc, ShowRun.motor_sc, ShowRun.douser_sc, ShowRun.raise_sc, Screen.setHead_setHead,
      Screen.head_setHead]
  all_goals first | exact Screen.stopped_setHead _ _ _ rfl | rfl

/-- A line that changes at one head, then both heads stopped. -/
theorem ShowRun.halt_screen (w : ShowRun) : w.halt.sc = { w.sc.stopped with phase := .halted } := by
  rw [ShowRun.halt, ShowRun.enter_sc, ShowRun.shutDown_sc]

/-- A halt sends, last, the notice of HALTED (R24). -/
theorem ShowRun.halt_last (w : ShowRun) (h : w.sc.phase = .held) : w.halt.out.getLast? = some (.notice .halted) :=
  ShowRun.enter_last _ .halted .secondFault (by simp [Screen.stopped, h]) .mute rfl

/-- The second fault, by either event (R24). -/
theorem event_halts {s : State} {sc : ScreenId} {h : Head} {cause : FaultCause} {f : ShowRun → ShowRun} (v : HeadRec)
    (hphase : s.screens[sc].phase = .held) (hh : s.screens[sc].heldHead = some h)
    (hf : f (s.showRun sc) =
      ({ s.showRun sc with sc := s.screens[sc].setHead h v } : ShowRun).faultEvent h cause) :
    ∃ t, event (fun s => s.onShow sc f) s = .next t ∧
      t.screens[sc] = { (s.screens[sc].setHead h v).stopped with phase := .halted } ∧ t.sound[sc].asked = .mute := by
  have hhalt := hf.trans (ShowRun.faultEvent_halts _ h cause (by simpa using hphase) (by simpa using hh))
  obtain ⟨t, ht, hscreen, hsound, -⟩ := event_show_screen (s := s) (sc := sc) f
  refine ⟨t, ht, ?_, ?_⟩
  · rw [hscreen, hhalt, ShowRun.halt_screen, ShowRun.faultTaken_stopped]
  · rw [hsound]
    refine State.onShow_asked s sc f .halted .mute ?_ rfl
    rw [hhalt]
    exact ShowRun.halt_last _ (by rw [ShowRun.faultTaken_phase]; simpa using hphase)

/-! ## Coming to RUNNING (R13, R23) -/

/-- A head that comes to speed with its motor on, its lamp lit and no runout is RUNNING, whatever its markers. -/
theorem ShowRun.atSpeed_runs (w : ShowRun) (h : Head) (ha : (w.sc.head h).atSpeed = false)
    (hm : (w.sc.head h).motor = true) (hl : (w.sc.head h).lampOk = true) (hr : (w.sc.head h).runout = false) :
    ∃ v : ShowRun, w.atSpeed h true = v.cameToRunning h ∧ v.id = w.id ∧
      v.sc = w.sc.setHead h { w.sc.head h with atSpeed := true, speedLost := false } := by
  refine ⟨_, ?_, w.modHead_id h fun r => { r with atSpeed := true, speedLost := false }, w.modHead_sc h _⟩
  have hbefore : (w.sc.head h).state ≠ .running := fun hrun => by
    obtain ⟨-, -, -, hat, -⟩ := (HeadRec.running_iff _).1 hrun
    rw [ha] at hat
    cases hat
  have hafter : (w.modHead h fun r => { r with atSpeed := true, speedLost := false }).isRunning h = true := by
    rw [ShowRun.isRunning, ShowRun.modHead_sc, Screen.head_setHead, decide_eq_true_eq]
    exact (HeadRec.running_iff _).2 ⟨hl, rfl, hm, rfl, hr⟩
  unfold ShowRun.atSpeed
  dsimp only
  rw [if_neg (by simp [ha]), if_pos rfl]
  exact if_pos ⟨hbefore, hafter⟩

theorem ShowRun.cameToRunning_held (w : ShowRun) (h : Head) (hphase : w.sc.phase = .held)
    (hh : w.sc.heldHead = some h) : w.cameToRunning h = w.heldReady h := by
  unfold ShowRun.cameToRunning
  have hstart : ¬(w.sc.phase = .starting ∧ h = .a) := by simp [hphase]
  rw [if_neg hstart, if_pos ⟨hphase, hh⟩]

theorem ShowRun.heldReady_stall (w : ShowRun) (h : Head) (hon : w.sc.isOnScreen h = true) :
    w.heldReady h = ((w.douser h true).mod fun sc => { sc with heldHead := none }).enter .playing .recovery :=
  if_pos hon

theorem ShowRun.heldReady_changeover (w : ShowRun) (h : Head) (hon : w.sc.isOnScreen h = false) :
    w.heldReady h = w.finishChangeover :=
  if_neg (by rw [hon]; decide)

/-- The recovery of a stall (R23). -/
theorem exec_atSpeed_recovers (s : State) (sc : ScreenId) (h : Head) (hphase : s.screens[sc].phase = .held)
    (hh : s.screens[sc].heldHead = some h) (hon : s.screens[sc].isOnScreen h = true)
    (ha : (s.screens[sc].head h).atSpeed = false) (hm : (s.screens[sc].head h).motor = true)
    (hl : (s.screens[sc].head h).lampOk = true) (hr : (s.screens[sc].head h).runout = false) :
    ∃ t, exec (.atSpeedChange sc h true) s = .next t ∧
      t.screens[sc] = { s.screens[sc].setHead h { s.screens[sc].head h with
        atSpeed := true, speedLost := false, douser := true } with phase := .playing, heldHead := none } ∧
      t.sound[sc].asked = .programme := by
  obtain ⟨v, hv, -, hvsc⟩ := (s.showRun sc).atSpeed_runs h ha hm hl hr
  rw [v.cameToRunning_held h (by rw [hvsc]; simpa using hphase) (by rw [hvsc]; simpa using hh),
    v.heldReady_stall h (by rw [hvsc, Screen.isOnScreen_setHead]; exact hon)] at hv
  obtain ⟨t, ht, hscreen, hsound, -⟩ := event_show_screen (s := s) (sc := sc) fun w => w.atSpeed h true
  refine ⟨t, ht, ?_, ?_⟩
  · rw [hscreen]
    dsimp only
    rw [hv, ShowRun.enter_sc, ShowRun.mod_sc, ShowRun.douser_sc, hvsc, Screen.head_setHead, Screen.setHead_setHead]
    rfl
  · rw [hsound]
    refine State.onShow_asked s sc _ .playing .programme ?_ rfl
    rw [hv]
    refine ShowRun.enter_last _ .playing .recovery ?_ .programme rfl
    have hheld : v.sc.phase = .held := by rw [hvsc]; simpa using hphase
    simp [hheld]

/-- Settles O16, by the two fault events and the recovery. -/
theorem secondFaultHaltsTheScreen : Obligations.SecondFaultHaltsTheScreen := by
  unfold Obligations.SecondFaultHaltsTheScreen
  rintro s sc h r rfl hphase hh
  refine ⟨fun hl => ?_, fun ha hm => ?_, exec_atSpeed_recovers s sc h hphase hh⟩
  · exact event_halts (f := fun w => w.lampOk h false) _ hphase hh ((s.showRun sc).lampOk_lost h hl)
  · obtain ⟨t, ht, hscreen, hasked⟩ := event_halts (f := fun w => w.atSpeed h false) _ hphase hh
      ((s.showRun sc).atSpeed_lost h ha hm)
    refine ⟨t, ht, hscreen.trans ?_, hasked⟩
    cases h <;> rfl

end Sys2Proof.Machine
end

section
/-! PROOF. RUNOUT at a head whose motor is on (R15, R20, R21, R26). -/

namespace Sys2Proof.Machine

theorem Screen.setHead_head (r : Screen) (h : Head) : r.setHead h (r.head h) = r := by cases h <;> rfl

/-- A screen's timeline with the line of a head that has come to its runout. -/
def ShowRun.ranOut (w : ShowRun) (h : Head) : ShowRun :=
  { w with sc := w.sc.setHead h { w.sc.head h with runout := true } }

theorem ShowRun.runout_on (w : ShowRun) (h : Head) (hm : (w.sc.head h).motor = true)
    (hr : (w.sc.head h).runout = false) : w.runout h true = (w.ranOut h).runoutOn h := by
  unfold ShowRun.runout
  dsimp only
  rw [if_neg (by simp [hr]), if_pos rfl, if_pos hm,
    w.modHead_quiet h _ fun hf => (HeadRec.fault_iff (w.sc.head h) { w.sc.head h with runout := true } rfl rfl).2 hf]
  rfl

@[simp] theorem ShowRun.ranOut_phase (w : ShowRun) (h : Head) : (w.ranOut h).sc.phase = w.sc.phase :=
  Screen.setHead_phase _ _ _

/-- A head that its runout finds marked to stop stops (R15). -/
def ShowRun.stoppedAtRunout (w : ShowRun) (h : Head) : ShowRun :=
  if (w.sc.head h).stopAtRunout then (w.motor h false).clearStop h else w

theorem ShowRun.stoppedAtRunout_unmarked (w : ShowRun) (h : Head) (hs : (w.sc.head h).stopAtRunout = false) :
    w.stoppedAtRunout h = w :=
  if_neg (by rw [hs]; decide)

/-- With its speed not lost, a head stops at its runout without a report. -/
theorem ShowRun.stoppedAtRunout_eq (w : ShowRun) (h : Head) (hs : (w.sc.head h).speedLost = false) :
    w.stoppedAtRunout h = { w with sc := w.sc.setHead h { w.sc.head h with
      motor := (w.sc.head h).motor && !(w.sc.head h).stopAtRunout, stopAtRunout := false } } := by
  unfold ShowRun.stoppedAtRunout
  split
  · next hstop =>
    rw [w.motor_eq h false hs, ShowRun.clearStop_eq]
    simp [hstop]
  · next hstop =>
    have hstop : (w.sc.head h).stopAtRunout = false := by simpa using hstop
    have hsame (x : HeadRec) (hx : x.stopAtRunout = false) :
        ({ x with motor := x.motor && !x.stopAtRunout, stopAtRunout := false } : HeadRec) = x := by
      cases x; simp_all
    rw [hsame _ hstop, Screen.setHead_head]

section branches
variable (w : ShowRun) (h : Head)

theorem ShowRun.stoppedAtRunout_sc_keeps : (w.stoppedAtRunout h).sc.phase = w.sc.phase ∧
    (∀ k, (w.stoppedAtRunout h).sc.isOnScreen k = w.sc.isOnScreen k) ∧
    (w.stoppedAtRunout h).sc.heldHead = w.sc.heldHead ∧ (w.stoppedAtRunout h).sc.active = w.sc.active ∧
    (w.stoppedAtRunout h).sc.stopped = w.sc.stopped := by
  unfold ShowRun.stoppedAtRunout
  split
  · refine ⟨by simp, fun k => by simp [Screen.isOnScreen_setHead], by simp, by simp, ?_⟩
    rw [ShowRun.clearStop_sc, ShowRun.motor_sc, Screen.head_setHead, Screen.setHead_setHead]
    exact Screen.stopped_setHead _ _ _ rfl
  · exact ⟨rfl, fun _ => rfl, rfl, rfl, rfl⟩

/-- The on-screen head's runout in PLAYING ends its reel (R20). -/
theorem ShowRun.runoutOn_playing (hphase : w.sc.phase = .playing) (hon : w.sc.isOnScreen h = true) :
    w.runoutOn h = (w.stoppedAtRunout h).reelRunsOut h := by
  obtain ⟨hp, ho, -⟩ := w.stoppedAtRunout_sc_keeps h
  exact if_pos ⟨hp.trans hphase, (ho h).trans hon⟩

/-- The on-screen head's runout in HELD for the incoming head darkens the screen (R21). -/
theorem ShowRun.runoutOn_held (hphase : w.sc.phase = .held) (hon : w.sc.isOnScreen h = true)
    (hh : w.sc.heldHead ≠ some h) : w.runoutOn h = (w.stoppedAtRunout h).darken h := by
  obtain ⟨hp, ho, hk, -⟩ := w.stoppedAtRunout_sc_keeps h
  refine (if_neg fun hc => ?_).trans (if_pos ⟨hp.trans hphase, (ho h).trans hon, fun hc => hh (hk.symm.trans hc)⟩)
  have hc := hp.symm.trans hc.1
  rw [hphase] at hc
  cases hc

/-- The runout of a head that is off screen stops it where it is marked, and does no more (R15). -/
theorem ShowRun.runoutOn_off (hon : w.sc.isOnScreen h = false) : w.runoutOn h = w.stoppedAtRunout h := by
  obtain ⟨-, ho, -⟩ := w.stoppedAtRunout_sc_keeps h
  have hoff : (w.stoppedAtRunout h).sc.isOnScreen h ≠ true := by rw [ho, hon]; decide
  exact (if_neg fun hc => hoff hc.2).trans (if_neg fun hc => hoff hc.2.1)

theorem ShowRun.reelRunsOut_ends (hn : w.sc.unfiredChangeover = none) : w.reelRunsOut h = w.endShow .runout := by
  unfold ShowRun.reelRunsOut
  rw [hn]

/-- A screen's timeline as its CHANGEOVER cue is about to fire early (R20). -/
def ShowRun.early (i : Nat) : ShowRun :=
  (w.raise (.changeoverEarly w.id w.sc.reel w.sc.frame)).mod fun sc => sc.markFired i

theorem ShowRun.early_phase (i : Nat) : (w.early i).sc.phase = w.sc.phase := rfl

theorem ShowRun.reelRunsOut_early {i frame len : Nat} (hc : w.sc.unfiredChangeover = some (i, ⟨.changeover, frame, len⟩)) :
    w.reelRunsOut h =
      (if (ShowRun.fireChangeover len (w.early i)).sc.phase = .held ∧
          (ShowRun.fireChangeover len (w.early i)).sc.isOnScreen h = true
        then (ShowRun.fireChangeover len (w.early i)).darken h else ShowRun.fireChangeover len (w.early i)) := by
  unfold ShowRun.reelRunsOut
  rw [hc]
  rfl

end branches

/-- Whether a CHANGEOVER is left to fire is told by the active set alone. -/
theorem Screen.unfiredChangeover_congr {r t : Screen} (h : t.active = r.active) :
    t.unfiredChangeover = r.unfiredChangeover := by
  simp only [Screen.unfiredChangeover, h]

/-- The head on screen is not the one that comes in. -/
theorem Screen.onScreen_ne_incoming {r : Screen} {h : Head} (hon : r.isOnScreen h = true) : h ≠ r.incoming := by
  have hother : otherHead r.incoming = h := Screen.outgoing_of_isOnScreen hon
  intro he
  rw [← he] at hother
  cases h <;> cases hother

/-! ## The cases of the statement -/

section cases
variable {s : State} {sc : ScreenId} {h : Head} (hm : (s.screens[sc].head h).motor = true)
  (hr : (s.screens[sc].head h).runout = false)

include hm hr

/-- The end of the show (R20, R26). -/
theorem exec_runout_ends (hphase : s.screens[sc].phase = .playing) (hon : s.screens[sc].isOnScreen h = true)
    (hn : s.screens[sc].unfiredChangeover = none) : ∃ t, exec (.runoutChange sc h true) s = .next t ∧
      t.screens[sc] = { (s.screens[sc].setHead h { s.screens[sc].head h with runout := true }).stopped with
        phase := .ended, orderingOpen := false } ∧
      t.yard.held[sc] = [] ∧ t.sound[sc].asked = .mute := by
  obtain ⟨hp, -, -, hactive, hstopped⟩ := ((s.showRun sc).ranOut h).stoppedAtRunout_sc_keeps h
  have hrun : (s.showRun sc).runout h true = (((s.showRun sc).ranOut h).stoppedAtRunout h).endShow .runout := by
    rw [ShowRun.runout_on _ h hm hr, ShowRun.runoutOn_playing _ h (by simpa [ShowRun.ranOut] using hphase)
      (by simpa [ShowRun.ranOut, Screen.isOnScreen_setHead] using hon), ShowRun.reelRunsOut_ends]
    rw [Screen.unfiredChangeover_congr hactive, ← hn]
    exact Screen.unfiredChangeover_congr (Screen.setHead_active _ _ _)
  have hne : (((s.showRun sc).ranOut h).stoppedAtRunout h).sc.phase ≠ .ended := by
    rw [hp, ShowRun.ranOut_phase, State.showRun_sc, hphase]
    decide
  obtain ⟨t, ht, hscreen, hsound, hheld, -⟩ := event_show_screen (s := s) (sc := sc) fun w => w.runout h true
  refine ⟨t, ht, ?_, ?_, ?_⟩
  · rw [hscreen, hrun, ShowRun.endShow_sc, hstopped]
    rfl
  · rw [hheld]
    refine State.onShow_released _ _ _ ?_
    rw [hrun]
    exact ShowRun.endShow_releases _ _
  · rw [hsound]
    refine State.onShow_asked s sc _ .ended .mute ?_ rfl
    rw [hrun]
    exact ShowRun.endShow_last _ _ hne

section early
variable (hphase : s.screens[sc].phase = .playing) (hon : s.screens[sc].isOnScreen h = true)
  (hstop : (s.screens[sc].head h).stopAtRunout = false) {i frame len : Nat}
  (hc : s.screens[sc].unfiredChangeover = some (i, ⟨.changeover, frame, len⟩))

include hphase hon hstop hc

theorem runout_early : (s.showRun sc).runout h true =
    (if (ShowRun.fireChangeover len (((s.showRun sc).ranOut h).early i)).sc.phase = .held ∧
        (ShowRun.fireChangeover len (((s.showRun sc).ranOut h).early i)).sc.isOnScreen h = true
      then (ShowRun.fireChangeover len (((s.showRun sc).ranOut h).early i)).darken h
      else ShowRun.fireChangeover len (((s.showRun sc).ranOut h).early i)) := by
  rw [ShowRun.runout_on _ h hm hr, ShowRun.runoutOn_playing _ h (by simpa [ShowRun.ranOut] using hphase)
    (by simpa [ShowRun.ranOut, Screen.isOnScreen_setHead] using hon),
    ShowRun.stoppedAtRunout_unmarked _ h (by simpa [ShowRun.ranOut] using hstop),
    ShowRun.reelRunsOut_early _ h ((Screen.unfiredChangeover_congr (Screen.setHead_active _ _ _)).trans hc)]

theorem runout_breaks (hlen : 0 < len) :
    (s.showRun sc).runout h true = (((s.showRun sc).ranOut h).early i).enterBreak len := by
  have hfire : ShowRun.fireChangeover len (((s.showRun sc).ranOut h).early i) =
      (((s.showRun sc).ranOut h).early i).enterBreak len := ShowRun.changeover_break _ _ _ hlen
  rw [runout_early hm hr hphase hon hstop hc, hfire, if_neg]
  rw [ShowRun.enterBreak_sc, Screen.breakEntered_phase]
  exact fun hh => by cases hh.1

/-- The cue with a break length fires early and starts the break (R17, R20). -/
theorem exec_runout_breaks (hlen : 0 < len) : ∃ t, exec (.runoutChange sc h true) s = .next t ∧
    t.screens[sc] =
      ((s.screens[sc].setHead h { s.screens[sc].head h with runout := true }).markFired i).breakEntered len ∧
    t.sound[sc].asked = .onBreak ∧ (s.settled → ∃ reports, t.link =
      s.link.after (.changeoverEarly sc s.screens[sc].reel s.screens[sc].frame :: reports)) := by
  have hrun := runout_breaks hm hr hphase hon hstop hc hlen
  obtain ⟨t, ht, hscreen, hsound, -, hlink⟩ := event_show_screen (s := s) (sc := sc) fun w => w.runout h true
  refine ⟨t, ht, ?_, ?_, fun hs => ?_⟩
  · rw [hscreen, hrun, ShowRun.enterBreak_sc]
    rfl
  · rw [hsound]
    refine State.onShow_asked s sc _ .onBreak .onBreak ?_ rfl
    rw [hrun]
    exact ShowRun.enterBreak_last _ _ (by rw [ShowRun.early_phase, ShowRun.ranOut_phase, State.showRun_sc, hphase]; decide)
  · have hfirst : ∃ post, ((s.showRun sc).runout h true).out =
        .report (.changeoverEarly sc s.screens[sc].reel s.screens[sc].frame) :: post := by
      rw [hrun]
      obtain ⟨post, hpost⟩ := ShowRun.enterBreak_told (((s.showRun sc).ranOut h).early i) len
      refine ⟨post, ?_⟩
      rw [← hpost]
      simp [ShowRun.early, ShowRun.ranOut]
    obtain ⟨post, hpost⟩ := hfirst
    obtain ⟨b, hb⟩ := State.onShow_tells_first (f := fun w => w.runout h true) hpost
    exact ⟨b, by rw [hlink, hb, hs]; rfl⟩

/-- The cue with a break length of 0 fires early and finds the incoming head not RUNNING: the screen is HELD for it, in the
dark (R16, R20). -/
theorem exec_runout_holds (hlen : len = 0) (hs : s.settled) (hsl : (s.screens[sc].head h).speedLost = false)
    (m : HeadRec) (hmr : m = { s.screens[sc].head s.screens[sc].incoming with motor := true, stopAtRunout := false })
    (hinc : (s.screens[sc].head s.screens[sc].incoming).state ≠ .running) (hrun : m.state ≠ .running) :
    exec (.runoutChange sc h true) s = .next ((s.withScreen sc
      { ((s.screens[sc].markFired i).setHead s.screens[sc].incoming m).setHead h { s.screens[sc].head h with
          runout := true, motor := false, douser := false } with
        phase := .held, heldHead := some s.screens[sc].incoming, countdown := none }).reported
      [.changeoverEarly sc s.screens[sc].reel s.screens[sc].frame,
        .changeoverLate sc s.screens[sc].reel m.state,
        .showState sc .playing .held s.screens[sc].reel .changeover]) := by
  subst hlen
  have hear := runout_early hm hr hphase hon hstop hc
  have hne : h ≠ s.screens[sc].incoming := Screen.onScreen_ne_incoming hon
  obtain ⟨v, hv⟩ : ∃ v, ((s.showRun sc).ranOut h).early i = v := ⟨_, rfl⟩
  have hvsc : v.sc = (s.screens[sc].setHead h { s.screens[sc].head h with runout := true }).markFired i := by rw [← hv]; rfl
  have hvinc : v.sc.incoming = s.screens[sc].incoming := by
    rw [hvsc, Screen.markFired_incoming, Screen.setHead_incoming]
  have hvhead : v.sc.head v.sc.incoming = s.screens[sc].head s.screens[sc].incoming := by
    rw [hvinc, hvsc, Screen.markFired_head, Screen.head_setHead_other _ _ _ _ hne.symm]
  have hvphase : v.sc.phase = .playing := by rw [hvsc, Screen.markFired_phase, Screen.setHead_phase, hphase]
  have hnot : v.sc.phase ≠ .held := by rw [hvphase]; decide
  have hvid : v.id = sc := by rw [← hv]; rfl
  have hvout : v.out = [.report (.changeoverEarly sc s.screens[sc].reel s.screens[sc].frame)] := by
    rw [← hv, ShowRun.early, ShowRun.mod_out, ShowRun.raise_out]
    simp [ShowRun.ranOut]
  have hvreel : v.sc.reel = s.screens[sc].reel := by rw [hvsc, Screen.markFired_reel, Screen.setHead_reel]
  have hlate : ShowRun.fireChangeover 0 v = v.holdForIncoming :=
    ShowRun.changeover_late _ v m hnot (hvhead ▸ hmr) (hvhead ▸ hinc) hrun
  have hfire := hlate.trans (v.holdForIncoming_eq m hnot (hvhead ▸ hmr))
  rw [hvinc, hvphase, hvid, hvout, hvreel] at hfire
  obtain ⟨u, hu⟩ : ∃ u : Screen, ({ v.sc.setHead s.screens[sc].incoming m with
    phase := .held, heldHead := some s.screens[sc].incoming, countdown := none } : Screen) = u := ⟨_, rfl⟩
  rw [hu] at hfire
  have huhead : u.head h = { s.screens[sc].head h with runout := true } := by
    rw [← hu, hvsc]
    revert hne
    generalize s.screens[sc].incoming = k
    intro hne
    cases h <;> cases k <;> first | exact absurd rfl hne | rfl
  have huon : u.isOnScreen h = true := by
    rw [← hu, ← hon, hvsc]
    cases h <;> cases s.screens[sc].incoming <;> rfl
  have huphase : u.phase = .held := by rw [← hu]
  rw [hv, hfire, if_pos ⟨huphase, huon⟩, ShowRun.darken, ShowRun.douser_eq, ShowRun.motor_eq] at hear
  · refine event_show_reports (f := fun w => w.runout h true) hs (hear.trans ?_)
    simp only [huhead, Screen.setHead_setHead, Screen.head_setHead, List.map_cons, List.map_nil, List.cons_append,
      List.nil_append]
    rw [← hu, hvsc]
    revert hne
    generalize s.screens[sc].incoming = k
    intro hne
    cases h <;> cases k <;> first | exact absurd rfl hne | rfl
  · simpa [huhead] using hsl

end early

/-- In HELD for the incoming head, the outgoing picture ends (R21). -/
theorem exec_runout_darkens (hs : s.settled) (hphase : s.screens[sc].phase = .held)
    (hon : s.screens[sc].isOnScreen h = true) (hh : s.screens[sc].heldHead ≠ some h)
    (hsl : (s.screens[sc].head h).speedLost = false) :
    exec (.runoutChange sc h true) s = .next ((s.withScreen sc (s.screens[sc].setHead h { s.screens[sc].head h with
      runout := true, motor := false, douser := false, stopAtRunout := false })).reported []) := by
  refine event_show_reports (f := fun w => w.runout h true) (rs := []) hs ?_
  rw [ShowRun.runout_on _ h hm hr, ShowRun.runoutOn_held _ h (by simpa [ShowRun.ranOut] using hphase)
    (by simpa [ShowRun.ranOut, Screen.isOnScreen_setHead] using hon) (by simpa [ShowRun.ranOut] using hh),
    ShowRun.stoppedAtRunout_eq _ h (by simpa [ShowRun.ranOut] using hsl), ShowRun.darken, ShowRun.douser_eq,
    ShowRun.motor_eq]
  · simp [ShowRun.ranOut]
  · simpa [ShowRun.ranOut] using hsl

/-- A head off screen that is marked to stop stops at its runout (R15). -/
theorem exec_runout_stops (hs : s.settled) (hon : s.screens[sc].isOnScreen h = false)
    (hstop : (s.screens[sc].head h).stopAtRunout = true) (hsl : (s.screens[sc].head h).speedLost = false) :
    exec (.runoutChange sc h true) s = .next ((s.withScreen sc (s.screens[sc].setHead h { s.screens[sc].head h with
      runout := true, motor := false, stopAtRunout := false })).reported []) := by
  refine event_show_reports (f := fun w => w.runout h true) (rs := []) hs ?_
  rw [ShowRun.runout_on _ h hm hr, ShowRun.runoutOn_off _ h (by simpa [ShowRun.ranOut, Screen.isOnScreen_setHead] using hon),
    ShowRun.stoppedAtRunout_eq _ h (by simpa [ShowRun.ranOut] using hsl)]
  rw [Fin.getElem_fin] at hstop
  simp [ShowRun.ranOut, hstop]

end cases

/-- Settles O17, by the show state, the head and the CHANGEOVER cue left to fire. -/
theorem runoutEndsTheShow : Obligations.RunoutEndsTheShow := by
  unfold Obligations.RunoutEndsTheShow
  rintro s sc h r rfl hm hr
  refine ⟨exec_runout_ends hm hr, fun hphase hon hstop i frame len hc => ⟨fun hlen => ?_, fun hlen hs hsl m hmr hinc hrun => ?_⟩,
    fun hs hphase hon hh hsl => exec_runout_darkens hm hr hs hphase hon hh hsl,
    fun hs hon hstop hsl => exec_runout_stops hm hr hs hon hstop hsl⟩
  · obtain ⟨t, ht, hscreen, hasked, hlink⟩ := exec_runout_breaks hm hr hphase hon hstop hc hlen
    have hout := Screen.breakEntered_outgoing
      ((s.screens[sc].setHead h { s.screens[sc].head h with runout := true }).markFired i) len
    rw [← hscreen, Screen.outgoing_of_isOnScreen (h := h) (by rw [← hon]; cases h <;> rfl)] at hout
    refine ⟨t, ht, ?_, ?_, ?_, ?_, hout.1, hout.2, hasked, fun hs _ => hlink hs⟩ <;> rw [hscreen]
    · rw [Screen.breakEntered_phase]
    · rw [Screen.breakEntered_reel, Screen.markFired_reel, Screen.setHead_reel]
    · rw [Screen.breakEntered_countdown]
    · rw [Screen.breakEntered_active]
      cases h <;> rfl
  · exact exec_runout_holds hm hr hphase hon hstop hc hlen hs hsl m hmr hinc hrun

end Sys2Proof.Machine
end

section
/-! PROOF. How a break runs down (R18, R19), and how a show starts (R7, R12, R13). -/

namespace Sys2Proof.Machine

/-! ## The break -/

theorem ShowRun.startMotor_eq (w : ShowRun) (h : Head) : w.startMotor h = { w with
    sc := w.sc.setHead h { w.sc.head h with motor := true, stopAtRunout := false } } := by
  have hsc := w.startMotor_sc h
  have hid := w.startMotor_id h
  have hout := w.startMotor_out h
  cases hw : w.startMotor h
  simp_all

theorem ShowRun.leadReached_lead (w : ShowRun) (hphase : w.sc.phase = .onBreak) (hc : w.sc.countdown.isSome = true)
    (hl : w.sc.leadSetting ≠ 0) : w.leadReached = w.startMotor w.sc.incoming :=
  if_pos ⟨hphase, hc, hl⟩

theorem ShowRun.leadReached_none (w : ShowRun) (hl : w.sc.leadSetting = 0) : w.leadReached = w :=
  if_neg fun hc => hc.2.2 hl

theorem ShowRun.countdownExpired_break (w : ShowRun) (hphase : w.sc.phase = .onBreak)
    (hc : w.sc.countdown.isSome = true) : w.countdownExpired = w.endBreak :=
  if_pos ⟨hphase, hc⟩

theorem ShowRun.takeResume_break (w : ShowRun) (hphase : w.sc.phase = .onBreak) : w.takeResume = (true, w.endBreak) :=
  if_pos hphase

/-- A break that ends with the incoming head not RUNNING, even with its motor on, waits for it (R19). -/
theorem ShowRun.endBreak_late (w : ShowRun) (x : HeadRec) (hphase : w.sc.phase ≠ .held)
    (hx : x = { w.sc.head w.sc.incoming with motor := true, stopAtRunout := false })
    (hhead : (w.sc.head w.sc.incoming).state ≠ .running) (hrun : x.state ≠ .running) :
    w.endBreak = w.holdForIncoming :=
  ShowRun.changeover_late ShowRun.finishChangeover w x hphase hx hhead hrun

theorem ShowRun.endBreak_running (w : ShowRun) (h : (w.sc.head w.sc.incoming).state = .running) :
    w.endBreak = w.finishChangeover :=
  ShowRun.changeover_running ShowRun.finishChangeover w h

theorem exec_resume (tag : Nat) (sc : ScreenId) (s : State) :
    exec (.resume tag sc.val) s = request 0x03 tag (inRun (showBody sc ShowRun.takeResume)) s := by
  change request 0x03 tag (withFin 4 sc.val fun sc => inRun (showBody sc ShowRun.takeResume)) s = _
  rw [withFin_val]

/-- RESUME in BREAK is answered OK and ends the break (R19). -/
theorem resumeBody_break (s : State) (sc : ScreenId) (hrun : s.link.part = .run)
    (hphase : s.screens[sc].phase = .onBreak) :
    inRun (showBody sc ShowRun.takeResume) s = (Reply.ok, s.onShow sc fun w => w.takeResume.2) :=
  (inRun_run _ _ hrun).trans
    (showBody_taken sc ShowRun.takeResume s (by rw [ShowRun.takeResume_break _ hphase]))

/-- Settles O21, by the motor lead and the two ways a break ends. -/
theorem breakRunsDown : Obligations.BreakRunsDown := by
  unfold Obligations.BreakRunsDown
  rintro s sc r m hs rfl hphase hc rfl
  have hlate (hhead : (s.screens[sc].head s.screens[sc].incoming).state ≠ .running)
      (hrun : ((s.screens[sc].setHead s.screens[sc].incoming { s.screens[sc].head s.screens[sc].incoming with
        motor := true, stopAtRunout := false }).head s.screens[sc].incoming).state ≠ .running) :
      (s.showRun sc).endBreak = _ :=
    (ShowRun.endBreak_late (s.showRun sc) _ (by rw [State.showRun_sc, hphase]; decide) rfl hhead
      (by rwa [Screen.head_setHead] at hrun)).trans
      ((s.showRun sc).holdForIncoming_eq _ (by rw [State.showRun_sc, hphase]; decide) rfl)
  refine ⟨fun hl => ?_, fun hl => event_show_same hs (ShowRun.leadReached_none _ hl), fun hhead hrun => ⟨?_, ?_⟩⟩
  · exact event_show_reports (rs := []) hs
      ((ShowRun.leadReached_lead _ hphase hc hl).trans (ShowRun.startMotor_eq _ _))
  · rw [Screen.head_setHead]
    refine event_show_reports (f := ShowRun.countdownExpired) hs ?_
    rw [ShowRun.countdownExpired_break _ hphase hc, hlate hhead hrun]
    simp only [State.showRun_sc, hphase]
    rfl
  · intro hpart hroomy tag
    rw [Screen.head_setHead, exec_resume]
    refine request_show_reports ⟨hs, hroomy⟩ (resumeBody_break s sc hpart hphase) ?_
    rw [ShowRun.takeResume_break _ hphase, hlate hhead hrun]
    simp only [State.showRun_sc, hphase]
    rfl

end Sys2Proof.Machine
end

section
/-! PROOF. The changeover at the end of a break and of a hold (R11, R14, R19, R23), and the start of a show (R7, R12,
R13). -/

namespace Sys2Proof.Machine

/-! ## A request that a timeline takes, with what it tells -/

theorem request_show_link {kind tag : Nat} {body : State → Reply × State} {s : State} {sc : ScreenId}
    {f : ShowRun → ShowRun} (h : s.link.roomy) (hb : body s = (Reply.ok, s.onShow sc f)) :
    ∃ u, request kind tag body s = .next u ∧ u.screens[sc] = (f (s.showRun sc)).sc ∧
      u.sound = (s.onShow sc f).sound ∧
      u.link = (s.link.addPlace (.request kind tag Reply.ok)).after (s.onShow sc f).yard.raised := by
  refine ⟨_, request_next kind tag body s, ?_⟩
  rw [request_roomy kind tag body s h, hb]
  refine ⟨?_, rfl, ?_⟩
  · rw [State.finish_screens, State.onShow_screen]
  · rw [State.finish_link, State.onShow_link]

/-! ## What the completion tells (R11, R14) -/

section finish
variable (w : ShowRun)

theorem ShowRun.reelPassed_id : w.reelPassed.id = w.id := by
  unfold ShowRun.reelPassed
  dsimp only [ShowRun.mod_id]
  split <;> simp

theorem ShowRun.reelPassed_sc : w.reelPassed.sc.reel = w.sc.reel + 1 ∧ w.reelPassed.sc.staged = w.sc.staged ∧
    w.reelPassed.sc.phase = w.sc.phase := by
  unfold ShowRun.reelPassed
  dsimp only [ShowRun.mod_sc]
  split <;> simp

theorem ShowRun.pictureOpened_last (inc : Head) (h : w.sc.phase ≠ .playing) :
    (w.pictureOpened inc).out.getLast? = some (.notice .playing) :=
  ShowRun.enter_last _ .playing .changeover (by simpa using h) .programme rfl

theorem ShowRun.activate_phase : w.activate.sc.phase = w.sc.phase := by
  rw [ShowRun.activate_sc]

/-- Past the completion, cues that are no CHANGEOVER send no notice: that of PLAYING is the last. -/
theorem ShowRun.finishChangeover_notice (hphase : w.sc.phase ≠ .playing) (hq : noChangeover (w.sc.completed.due 0)) :
    ∃ pre post, w.finishChangeover.out = pre ++ .notice .playing :: post ∧ ∀ e ∈ post, e.isNotice = false := by
  have hlast : w.complete.out.getLast? = some (.notice .playing) := by
    rw [ShowRun.complete_eq]
    exact ShowRun.pictureOpened_last _ _ (by rw [ShowRun.activate_phase, w.reelPassed_sc.2.2]; exact hphase)
  obtain ⟨pre, hpre⟩ := List.getLast?_eq_some_iff.mp hlast
  obtain ⟨post, hpost, hquiet⟩ := ShowRun.fireDue_quiet 2 0 w.complete (by rwa [ShowRun.complete_sc])
  exact ⟨pre, post, by rw [ShowRun.finishChangeover, hpost, hpre]; simp, hquiet⟩

theorem ShowRun.finishChangeover_sc (sc : ScreenId) (hq : noChangeover (w.sc.completed.due 0)) :
    w.finishChangeover.sc = w.sc.completed.cuesFired sc 0 := by
  have hsc := ShowRun.fireDue_sc 2 0 w.complete sc (by rwa [ShowRun.complete_sc])
  rwa [ShowRun.complete_sc] at hsc

theorem ShowRun.finishChangeover_inBreak (pre : List (Nat × Cue)) (i len : Nat)
    (hdue : w.sc.completed.due 0 = pre ++ [(i, ⟨.changeover, 0, len⟩)]) (hpre : noChangeover pre) (hlen : 0 < len) :
    w.finishChangeover.sc.inBreak (w.sc.reel + 1) len := by
  have hbreak := ShowRun.fireDue_inBreak 2 w.complete pre i len (by rwa [ShowRun.complete_sc]) hpre hlen
  rwa [ShowRun.complete_sc] at hbreak

/-- What the examination of the staged slot tells is told by the changeover. -/
theorem ShowRun.finishChangeover_tells (r : Report)
    (h : w.reelPassed.activate.out = w.reelPassed.out ++ [.report r]) :
    ∃ pre post, w.finishChangeover.out = pre ++ .report r :: post := by
  have htold : w.reelPassed.activate.out <+: w.finishChangeover.out := by
    rw [ShowRun.finishChangeover, ShowRun.complete_eq]
    exact (ShowRun.pictureOpened_told _ _).trans (ShowRun.fireDue_told _ _ _)
  obtain ⟨post, hpost⟩ := htold
  exact ⟨w.reelPassed.out, post, by rw [← hpost, h]; simp⟩

theorem ShowRun.finishChangeover_missing (h : w.sc.staged = none) :
    ∃ pre post, w.finishChangeover.out = pre ++ .report (.cuesetMissing w.id (w.sc.reel + 1)) :: post := by
  refine w.finishChangeover_tells _ ?_
  obtain ⟨hreel, hstaged, -⟩ := w.reelPassed_sc
  unfold ShowRun.activate
  dsimp only
  rw [hstaged, h, hreel]
  simp [ShowRun.reelPassed_id]

theorem ShowRun.finishChangeover_mismatch (cs : CueSet) (h : w.sc.staged = some cs) (hne : cs.reel ≠ w.sc.reel + 1) :
    ∃ pre post, w.finishChangeover.out =
      pre ++ .report (.cuesetMismatch w.id (w.sc.reel + 1) cs.reel) :: post := by
  refine w.finishChangeover_tells _ ?_
  obtain ⟨hreel, hstaged, -⟩ := w.reelPassed_sc
  unfold ShowRun.activate
  dsimp only
  rw [hstaged, h, hreel]
  simp [ShowRun.reelPassed_id, hne]

end finish

/-! ## The end of a break and of a hold (R19, R23) -/

/-- The two commands that end a break whose incoming head is RUNNING: each completes the changeover. -/
theorem exec_break_finishes {s : State} {sc : ScreenId} {tag : Nat} {c : Instr} (hs : s.ready)
    (hpart : s.link.part = .run) (hphase : s.screens[sc].phase = .onBreak)
    (hc : s.screens[sc].countdown.isSome = true)
    (hrun : (s.screens[sc].head s.screens[sc].incoming).state = .running)
    (hmem : c ∈ [Instr.breakCountdownExpiry sc, .resume tag sc.val]) :
    ∃ t f l, exec c s = .next t ∧ f (s.showRun sc) = (s.showRun sc).finishChangeover ∧
      t.screens[sc] = (s.showRun sc).finishChangeover.sc ∧ t.sound = (s.onShow sc f).sound ∧
      (l = s.link ∨ l = s.link.addPlace (.request 0x03 tag Reply.ok)) ∧
      t.link = l.after (s.onShow sc f).yard.raised := by
  have hend : (s.showRun sc).endBreak = (s.showRun sc).finishChangeover := ShowRun.endBreak_running _ hrun
  simp only [List.mem_cons, List.not_mem_nil, or_false] at hmem
  obtain rfl | rfl := hmem
  · have hf := (ShowRun.countdownExpired_break _ hphase hc).trans hend
    obtain ⟨t, ht, hscreen, hsound, -, hlink⟩ := event_show_screen (s := s) (sc := sc) ShowRun.countdownExpired
    exact ⟨t, _, _, ht, hf, by rw [hscreen, hf], hsound, .inl rfl, hlink⟩
  · have hf : (fun w : ShowRun => w.takeResume.2) (s.showRun sc) = (s.showRun sc).finishChangeover := by
      dsimp only
      rw [ShowRun.takeResume_break _ hphase, hend]
    obtain ⟨t, ht, hscreen, hsound, hlink⟩ :=
      request_show_link (kind := 0x03) (tag := tag) hs.2 (resumeBody_break s sc hpart hphase)
    exact ⟨t, _, _, (exec_resume tag sc s).trans ht, hf, hscreen.trans (congrArg ShowRun.sc hf), hsound, .inr rfl, hlink⟩

/-- A report of a timeline operation in a settled state stands in the link's queue in its place. -/
theorem link_after_tells {s t : State} {sc : ScreenId} {f : ShowRun → ShowRun} {w : ShowRun} {l : Link} {r : Report}
    (hs : s.settled) (hf : f (s.showRun sc) = w) (hw : ∃ pre post, w.out = pre ++ .report r :: post)
    (hlink : t.link = l.after (s.onShow sc f).yard.raised) : ∃ pre post, t.link = l.after (pre ++ r :: post) := by
  obtain ⟨pre, post, hout⟩ := hw
  obtain ⟨a, b, hab⟩ := State.onShow_tells (f := f) (by rw [hf]; exact hout)
  exact ⟨a, b, by rw [hlink, hab, hs, List.nil_append]⟩

/-- A screen held for its incoming head completes the changeover when that head comes to RUNNING (R23). -/
theorem exec_atSpeed_completes (s : State) (sc : ScreenId) (h : Head) (hphase : s.screens[sc].phase = .held)
    (hh : s.screens[sc].heldHead = some h) (hon : s.screens[sc].isOnScreen h = false)
    (ha : (s.screens[sc].head h).atSpeed = false) (hm : (s.screens[sc].head h).motor = true)
    (hl : (s.screens[sc].head h).lampOk = true) (hr : (s.screens[sc].head h).runout = false) (m : Screen)
    (hmr : m = s.screens[sc].setHead h { s.screens[sc].head h with atSpeed := true, speedLost := false })
    (hq : noChangeover (m.completed.due 0)) :
    ∃ t, exec (.atSpeedChange sc h true) s = .next t ∧ t.screens[sc] = m.completed.cuesFired sc 0 := by
  obtain ⟨v, hv, -, hvsc⟩ := (s.showRun sc).atSpeed_runs h ha hm hl hr
  rw [v.cameToRunning_held h (by rw [hvsc]; simpa using hphase) (by rw [hvsc]; simpa using hh),
    v.heldReady_changeover h (by rw [hvsc, Screen.isOnScreen_setHead]; exact hon)] at hv
  obtain ⟨t, ht, hscreen, -⟩ := event_show_screen (s := s) (sc := sc) fun w => w.atSpeed h true
  obtain rfl : v.sc = m := hvsc.trans hmr.symm
  exact ⟨t, ht, by rw [hscreen, hv, v.finishChangeover_sc sc hq]⟩

/-- Settles O22, by the end of a break and the end of a hold. -/
theorem breakEndsInChangeover : Obligations.BreakEndsInChangeover := by
  unfold Obligations.BreakEndsInChangeover
  rintro s sc r tag hs hpart rfl
  refine ⟨fun hphase hc hrun c hmem => ?_, fun m hphase hh hon ha hm hl hr hmr hq =>
    exec_atSpeed_completes s sc _ hphase hh hon ha hm hl hr m hmr hq⟩
  obtain ⟨t, f, l, ht, hf, hscreen, hsound, hl, hlink⟩ := exec_break_finishes hs hpart hphase hc hrun hmem
  refine ⟨fun hq => ⟨t, ht, ?_, ?_⟩, fun pre i len hdue hpre hlen => ⟨t, ht, ?_⟩, t, l, ht, hl, fun hst => ?_,
    fun cs hst hne => ?_⟩
  · rw [hscreen, ShowRun.finishChangeover_sc _ sc hq]
    rfl
  · obtain ⟨pre, post, hout, hquiet⟩ := (s.showRun sc).finishChangeover_notice
      (by rw [State.showRun_sc, hphase]; decide) hq
    rw [hsound]
    exact State.onShow_asked_of_notice s sc f pre post .playing .programme (hf ▸ hout) hquiet rfl
  · rw [hscreen]
    exact ShowRun.finishChangeover_inBreak _ pre i len hdue hpre hlen
  · exact link_after_tells hs.1 hf ((s.showRun sc).finishChangeover_missing hst) hlink
  · exact link_after_tells hs.1 hf ((s.showRun sc).finishChangeover_mismatch cs hst hne) hlink

end Sys2Proof.Machine
end

section
/-! PROOF. The start of a show (R7, R12, R13). -/

namespace Sys2Proof.Machine

/-! ## The first frame (R7, R13) -/

/-- A screen as its show begins: the start timer stopped, head A's douser open, frames counted from 0 (R13). -/
def Screen.begun (r : Screen) : Screen :=
  { r with
    headA := { r.headA with douser := true }, startTimer := none, frame := 0, f := 0, phase := .playing }

/-- A screen's timeline when its show has begun and the frame-0 cues are about to fire. -/
def ShowRun.begun (w : ShowRun) : ShowRun :=
  (((w.mod fun sc => { sc with startTimer := none }).douser .a true).mod fun sc =>
    { sc with frame := 0, f := 0 }).enter .playing .start

theorem ShowRun.begun_sc (w : ShowRun) : w.begun.sc = w.sc.begun := by
  rw [ShowRun.begun, ShowRun.enter_sc, ShowRun.mod_sc, ShowRun.douser_sc]
  rfl

theorem ShowRun.begun_last (w : ShowRun) (h : w.sc.phase ≠ .playing) :
    w.begun.out.getLast? = some (.notice .playing) :=
  ShowRun.enter_last _ .playing .start (by simpa using h) .programme rfl

theorem ShowRun.begin_eq (w : ShowRun) : w.begin = (ShowRun.fireDue 3 0 w.begun).tell (.frameEvent 0) := rfl

theorem Screen.begun_due (r : Screen) (frame : Nat) : r.begun.due frame = r.due frame := rfl

section begin
variable (w : ShowRun)

theorem ShowRun.begin_sc (sc : ScreenId) (hq : noChangeover (w.sc.due 0)) : w.begin.sc = w.sc.begun.cuesFired sc 0 := by
  rw [ShowRun.begin_eq, ShowRun.tell_sc, ShowRun.fireDue_sc 2 0 w.begun sc (by rwa [ShowRun.begun_sc]), ShowRun.begun_sc]

/-- The last notice of a beginning is that of PLAYING where no CHANGEOVER is among the frame-0 cues. -/
theorem ShowRun.begin_notice (h : w.sc.phase ≠ .playing) (hq : noChangeover (w.sc.due 0)) :
    ∃ pre post, w.begin.out = pre ++ .notice .playing :: post ∧ ∀ e ∈ post, e.isNotice = false := by
  obtain ⟨pre, hpre⟩ := List.getLast?_eq_some_iff.mp (w.begun_last h)
  obtain ⟨post, hpost, hquiet⟩ := ShowRun.fireDue_quiet 2 0 w.begun (by rwa [ShowRun.begun_sc])
  refine ⟨pre, post ++ [.frameEvent 0], ?_, fun e he => ?_⟩
  · rw [ShowRun.begin_eq, ShowRun.tell_out, hpost, hpre]
    simp
  · rcases List.mem_append.1 he with he | he
    · exact hquiet e he
    · rw [List.mem_singleton.1 he]
      rfl

variable (pre : List (Nat × Cue)) (i len : Nat) (hdue : w.sc.due 0 = pre ++ [(i, ⟨.changeover, 0, len⟩)])
  (hpre : noChangeover pre) (hlen : 0 < len)

include hdue hpre hlen

theorem ShowRun.begin_inBreak : w.begin.sc.inBreak w.sc.reel len := by
  have hbreak := ShowRun.fireDue_inBreak 2 w.begun pre i len (by rwa [ShowRun.begun_sc]) hpre hlen
  rwa [ShowRun.begun_sc] at hbreak

/-- With a break among the frame-0 cues the last notice of a beginning is that of BREAK. -/
theorem ShowRun.begin_break_notice :
    ∃ a b, w.begin.out = a ++ .notice .onBreak :: b ∧ ∀ e ∈ b, e.isNotice = false := by
  have hphase : (pre.foldl ShowRun.fireEffect w.begun).sc.phase ≠ .onBreak := by
    rw [(ShowRun.foldl_fireEffect_keeps pre w.begun).1, ShowRun.begun_sc]
    exact ShowState.noConfusion
  have hlast := ShowRun.enterBreak_last ((pre.foldl ShowRun.fireEffect w.begun).mod fun r => r.markFired i) len hphase
  obtain ⟨a, ha⟩ := List.getLast?_eq_some_iff.mp hlast
  refine ⟨a, [.frameEvent 0], ?_, by simp [Effect.isNotice]⟩
  rw [ShowRun.begin_eq, ShowRun.tell_out,
    ShowRun.fireDue_changeover 2 0 w.begun pre i 0 len (by rwa [ShowRun.begun_sc]) hpre,
    ShowRun.changeover_break _ _ _ hlen, ha]
  simp

end begin

/-! ## START and the start timer (R12, R13) -/

theorem exec_start (tag : Nat) (sc : ScreenId) (s : State) :
    exec (.start tag sc.val) s = request 0x02 tag (inRun (showBody sc ShowRun.takeStart)) s := by
  change request 0x02 tag (withFin 4 sc.val fun sc => inRun (showBody sc ShowRun.takeStart)) s = _
  rw [withFin_val]

/-- A screen as START leaves it: head A's motor on, the start timer loaded, STARTING (R12). -/
def Screen.startTaken (r : Screen) : Screen :=
  { r with
    headA := { r.headA with motor := true }, startTimer := loadSeconds r.startSetting, phase := .starting }

theorem ShowRun.motorOn_eq (w : ShowRun) (h : Head) :
    w.motor h true = { w with sc := w.sc.setHead h { w.sc.head h with motor := true } } := by
  have hrec : ({ w.sc.head h with motor := true, speedLost := (w.sc.head h).speedLost && true } : HeadRec) =
      { w.sc.head h with motor := true } := by rw [Bool.and_true]
  refine (w.modHead_quiet h _ fun hf => ?_).trans (by rw [hrec])
  rw [hrec]
  exact (HeadRec.fault_iff (w.sc.head h) { w.sc.head h with motor := true } rfl rfl).2 hf

/-- A screen's timeline as START leaves it, before head A is looked at. -/
def ShowRun.startTaken (w : ShowRun) : ShowRun :=
  { w with sc := w.sc.startTaken, out := w.out ++ [.report (.showState w.id .loaded .starting w.sc.reel .start)] }

theorem ShowRun.takeStart_loaded (w : ShowRun) (hphase : w.sc.phase = .loaded) : w.takeStart =
    (true, if w.startTaken.isRunning .a then w.startTaken.begin else w.startTaken) := by
  have henter : ((w.motor .a true).mod fun sc => { sc with startTimer := loadSeconds sc.startSetting }).enter .starting
      .start = w.startTaken := by
    rw [ShowRun.motorOn_eq]
    unfold ShowRun.enter
    dsimp only [ShowRun.mod_sc]
    rw [Screen.setHead_phase, hphase]
    rfl
  unfold ShowRun.takeStart
  dsimp only
  rw [if_pos hphase, henter]

theorem ShowRun.startExpired_starting (w : ShowRun) (hphase : w.sc.phase = .starting)
    (ht : w.sc.startTimer.isSome = true) : ∃ rs : List Report, (∀ q ∈ rs, ∃ st, q = .headOk w.id .a st) ∧
      w.startExpired = { w with
        sc := { w.sc with
          headA := { w.sc.headA with motor := false, speedLost := false }, startTimer := none, phase := .loaded }
        out := w.out ++ (rs ++ [Report.startFailed w.id w.sc.headA.state,
          Report.showState w.id .starting .loaded w.sc.reel .startTimer]).map Effect.report } := by
  obtain ⟨rs, hrs, hm⟩ := (w.mod fun sc => { sc with startTimer := none }).modHead_tells .a
    fun r => { r with motor := false, speedLost := r.speedLost && false }
  refine ⟨rs, hrs, ?_⟩
  unfold ShowRun.startExpired ShowRun.motor
  rw [if_pos ⟨hphase, ht⟩, hm]
  simp [ShowRun.enter, ShowRun.raise, ShowRun.tell, ShowRun.mod, Screen.setHead, Screen.head, hphase]

section start
variable {s : State} {sc : ScreenId}

theorem startBody_loaded (hpart : s.link.part = .run) (hphase : s.screens[sc].phase = .loaded) :
    inRun (showBody sc ShowRun.takeStart) s = (Reply.ok, s.onShow sc fun w => w.takeStart.2) :=
  (inRun_run _ _ hpart).trans
    (showBody_taken sc ShowRun.takeStart s (by rw [ShowRun.takeStart_loaded (s.showRun sc) hphase]))

/-- What becomes of the source and the screen when an operation comes to the beginning of a show. -/
theorem onShow_begin {f : ShowRun → ShowRun} {v : ShowRun} (hf : f (s.showRun sc) = v.begin)
    (hphase : v.sc.phase ≠ .playing) (hq : noChangeover (v.sc.due 0)) :
    (f (s.showRun sc)).sc = v.sc.begun.cuesFired sc 0 ∧ ((s.onShow sc f).sound[sc]).asked = .programme := by
  obtain ⟨pre, post, hout, hquiet⟩ := v.begin_notice hphase hq
  exact ⟨by rw [hf, v.begin_sc sc hq],
    State.onShow_asked_of_notice s sc f pre post .playing .programme (hf ▸ hout) hquiet rfl⟩

/-- Head A comes to RUNNING in STARTING (R13). -/
theorem atSpeed_begins (hphase : s.screens[sc].phase = .starting) (ha : s.screens[sc].headA.atSpeed = false)
    (hm : s.screens[sc].headA.motor = true) (hl : s.screens[sc].headA.lampOk = true)
    (hr : s.screens[sc].headA.runout = false) : ∃ v : ShowRun, (s.showRun sc).atSpeed .a true = v.begin ∧
      v.sc = { s.screens[sc] with headA := { s.screens[sc].headA with atSpeed := true, speedLost := false } } := by
  obtain ⟨v, hv, -, hvsc⟩ := (s.showRun sc).atSpeed_runs .a ha hm hl hr
  refine ⟨v, hv.trans (if_pos ⟨?_, rfl⟩), hvsc⟩
  rw [hvsc, Screen.setHead_phase]
  exact hphase

end start

/-- Settles O20, by the show state and head A. -/
theorem showStarts : Obligations.ShowStarts := by
  unfold Obligations.ShowStarts
  rintro s tag sc r a hs hpart rfl rfl
  have hrunning : ((s.showRun sc).startTaken.isRunning .a) =
      decide (({ s.screens[sc].headA with motor := true } : HeadRec).state = .running) := rfl
  refine ⟨fun hphase hrun => ?_, fun hphase hrun hq => ?_, fun hphase => ?_, fun hphase ha hm hl hr => ?_,
    fun hphase ht => ?_, fun hno => ?_⟩
  · rw [exec_start]
    refine request_show_reports hs (startBody_loaded hpart hphase) ?_
    rw [ShowRun.takeStart_loaded _ hphase, hrunning, decide_eq_false hrun]
    rfl
  · have hf : (fun w : ShowRun => w.takeStart.2) (s.showRun sc) = (s.showRun sc).startTaken.begin := by
      dsimp only
      rw [ShowRun.takeStart_loaded _ hphase, hrunning, decide_eq_true hrun]
      rfl
    obtain ⟨hscreen, hasked⟩ := onShow_begin (f := fun w => w.takeStart.2) (v := (s.showRun sc).startTaken) hf
      ShowState.noConfusion hq
    obtain ⟨t, ht, htscreen, htsound, -, hreplies⟩ := request_show_taken 0x02 tag
      (inRun (showBody sc ShowRun.takeStart)) s sc _ hs.2 (startBody_loaded hpart hphase)
    refine ⟨t, (exec_start tag sc s).trans ht, htscreen.trans hscreen, ?_, hreplies⟩
    rw [htsound]
    exact hasked
  · rw [exec_start]
    refine request_refused _ _ _ _ _ hs ((inRun_run _ _ hpart).trans (showBody_refused _ _ _ ?_))
    exact congrArg Prod.fst (if_neg hphase : (s.showRun sc).takeStart = (false, s.showRun sc))
  · obtain ⟨v, hf, hvsc⟩ := atSpeed_begins hphase ha hm hl hr
    have hplaying : v.sc.phase ≠ .playing := by rw [hvsc]; dsimp only; rw [hphase]; decide
    have hdue : v.sc.due 0 = s.screens[sc].due 0 := by rw [hvsc]; rfl
    obtain ⟨t, ht, htscreen, htsound, -⟩ := event_show_screen (s := s) (sc := sc) fun w => w.atSpeed .a true
    refine ⟨fun hq => ?_, fun pre i len hd hpre hlen => ?_⟩
    · obtain ⟨hscreen, hasked⟩ := onShow_begin (f := fun w => w.atSpeed .a true) hf hplaying (hdue ▸ hq)
      refine ⟨t, ht, htscreen.trans (hscreen.trans ?_), by rw [htsound]; exact hasked⟩
      rw [hvsc]
      rfl
    · refine ⟨t, ht, ?_, ?_⟩
      · rw [htscreen, hf]
        have hbreak := v.begin_inBreak pre i len (hdue.trans hd) hpre hlen
        rwa [hvsc] at hbreak
      · obtain ⟨x, y, hout, hquiet⟩ := v.begin_break_notice pre i len (hdue.trans hd) hpre hlen
        rw [htsound]
        exact State.onShow_asked_of_notice s sc (fun w => w.atSpeed .a true) x y .onBreak .onBreak (hf ▸ hout) hquiet rfl
  · obtain ⟨rs, hrs, hf⟩ := (s.showRun sc).startExpired_starting hphase ht
    exact ⟨rs, event_show_reports hs.1 hf, hrs⟩
  · refine event_show_same hs.1 (if_neg fun hc => ?_)
    rcases hno with hphase | ht
    · exact hphase hc.1
    · have hsome := hc.2
      rw [State.showRun_sc, ht] at hsome
      cases hsome

end Sys2Proof.Machine
end

section
/-! PROOF. LOAD CUES, the settings of a screen, and RESET SCREEN (R9, R10, R28, R30, R33, R63). -/

namespace Sys2Proof.Machine

/-! ## The checks of LOAD CUES (R9) -/

theorem cuesOk_iff (length least : Nat) (cues : List Cue) : cuesOk length least cues = true ↔
    (∀ c ∈ cues, least ≤ c.frame ∧ c.frame < length ∧ c.arg ≤ c.kind.argMax) ∧
    cues.Pairwise (fun x y => x.frame ≤ y.frame) ∧
    ∀ i c, cues[i]? = some c → c.kind = .changeover → i + 1 = cues.length := by
  induction cues generalizing least with
  | nil => simp [cuesOk]
  | cons c cs ih =>
    simp only [cuesOk, Bool.and_eq_true, decide_eq_true_eq, ih c.frame, List.mem_cons, forall_eq_or_imp,
      List.pairwise_cons, Bool.or_eq_true, Bool.not_eq_true', decide_eq_false_iff_not, List.isEmpty_iff]
    constructor
    · rintro ⟨⟨⟨⟨hleast, hlen⟩, harg⟩, hlast⟩, hcs, hpair, hchange⟩
      refine ⟨⟨⟨hleast, hlen, harg⟩, fun x hx => ⟨hleast.trans (hcs x hx).1, (hcs x hx).2⟩⟩,
        ⟨fun x hx => (hcs x hx).1, hpair⟩, fun i x hx hk => ?_⟩
      cases i with
      | zero =>
        obtain rfl := Option.some.inj hx
        rw [hlast.resolve_left (fun hn => hn hk)]
        rfl
      | succ i => exact congrArg Nat.succ (hchange i x hx hk)
    · rintro ⟨⟨⟨hleast, hlen, harg⟩, hcs⟩, ⟨hord, hpair⟩, hchange⟩
      refine ⟨⟨⟨⟨hleast, hlen⟩, harg⟩, ?_⟩, fun x hx => ⟨hord x hx, (hcs x hx).2⟩, hpair, fun i x hx hk =>
        Nat.succ.inj (hchange (i + 1) x hx hk)⟩
      by_cases hk : c.kind = .changeover
      · exact .inr (List.length_eq_zero_iff.1 (Nat.succ.inj (hchange 0 c rfl hk)).symm)
      · exact .inl hk

/-- The whole of R9's checks, for a length that a request can carry. -/
theorem setOk_iff (reel length : Nat) (cues : List Cue) (hl : length ≤ 65535) : setOk reel length cues = true ↔
    1 ≤ reel ∧ reel ≤ 15 ∧ 0 < length ∧ cues.length ≤ 32 ∧ cues.Pairwise (fun x y => x.frame ≤ y.frame) ∧
      (∀ c ∈ cues, c.frame < length ∧ c.arg ≤ c.kind.argMax) ∧
      ∀ i c, cues[i]? = some c → c.kind = .changeover → i + 1 = cues.length ∧ reel ≠ 15 := by
  have hany : (cues.any fun c => decide (c.kind = .changeover)) = true ↔
      ∃ (i : Nat) (c : Cue), cues[i]? = some c ∧ c.kind = .changeover := by
    simp only [List.any_eq_true, decide_eq_true_eq, List.mem_iff_getElem?]
    exact ⟨fun ⟨c, ⟨i, hi⟩, hk⟩ => ⟨i, c, hi, hk⟩, fun ⟨i, c, hi, hk⟩ => ⟨c, ⟨i, hi⟩, hk⟩⟩
  simp only [setOk, Bool.and_eq_true, decide_eq_true_eq, cuesOk_iff, Nat.zero_le, true_and, Bool.not_eq_true',
    Bool.and_eq_false_iff, decide_eq_false_iff_not]
  constructor
  · rintro ⟨⟨⟨⟨⟨⟨h1, h15⟩, hpos⟩, -⟩, h32⟩, hcs, hpair, hchange⟩, hlast⟩
    refine ⟨h1, h15, hpos, h32, hpair, hcs, fun i c hi hk => ⟨hchange i c hi hk, fun he => ?_⟩⟩
    exact absurd (hany.2 ⟨i, c, hi, hk⟩) (by rw [hlast.resolve_left (fun hn => hn he)]; decide)
  · rintro ⟨h1, h15, hpos, h32, hpair, hcs, hchange⟩
    refine ⟨⟨⟨⟨⟨⟨h1, h15⟩, hpos⟩, hl⟩, h32⟩, hcs, hpair, fun i c hi hk => (hchange i c hi hk).1⟩, ?_⟩
    by_cases he : reel = 15
    · refine .inr (Bool.eq_false_iff.2 fun ht => ?_)
      obtain ⟨i, c, hi, hk⟩ := hany.1 ht
      exact (hchange i c hi hk).2 he
    · exact .inl he

/-! ## Where a set goes (R10) -/

/-- A request does what its body does in the state it finds. -/
theorem request_congr (kind tag : Nat) {body body' : State → Reply × State} {s : State} (h : body s = body' s) :
    request kind tag body s = request kind tag body' s := by
  simp only [request, State.request, h]

theorem exec_loadCues (s : State) (tag : Nat) (sc : ScreenId) (reel len : Nat) (wire : List WireCue) (cues : List Cue)
    (hpart : s.link.part = .run) (hw : cuesOf wire = some cues) : exec (.loadCues tag sc.val reel len wire) s =
      request 0x01 tag (loadCuesBody sc reel len cues) s := by
  change request 0x01 tag (withFin 4 sc.val fun sc s => match cuesOf wire with
    | some list => inRun (loadCuesBody sc reel len list) s
    | none => malformed s) s = _
  rw [withFin_val]
  refine request_congr _ _ ?_
  rw [hw]
  exact inRun_run _ _ hpart

theorem loadCuesBody_range (s : State) (sc : ScreenId) (reel len : Nat) (cues : List Cue)
    (h : ¬setOk reel len cues = true) : loadCuesBody sc reel len cues s = refused .range s :=
  if_neg h

theorem loadCuesBody_ended (s : State) (sc : ScreenId) (reel len : Nat) (cues : List Cue)
    (h : setOk reel len cues = true) (hp : s.screens[sc].phase = .ended ∨ s.screens[sc].phase = .halted) :
    loadCuesBody sc reel len cues s = refused .state s := by
  unfold loadCuesBody
  rw [if_pos h]
  rcases hp with hp | hp <;> rw [hp]

theorem loadCuesBody_taken (s : State) (sc : ScreenId) (reel len : Nat) (cues : List Cue)
    (h : setOk reel len cues = true) (he : s.screens[sc].phase ≠ .ended) (hh : s.screens[sc].phase ≠ .halted) :
    loadCuesBody sc reel len cues s =
      (Reply.ok, s.onShow sc fun w => (w.load (freshSet reel len cues)).2) := by
  unfold loadCuesBody
  rw [if_pos h]
  split
  · next hp => exact absurd hp he
  · next hp => exact absurd hp hh
  · rfl

theorem ShowRun.load_active (w : ShowRun) (cs : CueSet) (hp : w.sc.phase = .dark) (hr : cs.reel = 1) : (w.load cs).2 =
    { w with
      sc := { w.sc with active := some cs, reel := 1, frame := 0, f := 0, phase := .loaded }
      out := w.out ++ [.report (.showState w.id .dark .loaded 1 .loadCues)] } := by
  unfold ShowRun.load
  rw [hp]
  dsimp only
  rw [if_pos hr]
  simp [ShowRun.enter, ShowRun.mod, ShowRun.raise, ShowRun.tell, hp]

theorem ShowRun.load_staged (w : ShowRun) (cs : CueSet) (he : w.sc.phase ≠ .ended) (hh : w.sc.phase ≠ .halted)
    (hn : ¬(w.sc.phase = .dark ∧ cs.reel = 1)) : (w.load cs).2 = { w with sc := { w.sc with staged := some cs } } := by
  unfold ShowRun.load
  split
  · next hp => exact absurd hp he
  · next hp => exact absurd hp hh
  · next hp => rw [if_neg fun hr => hn ⟨hp, hr⟩]; rfl
  · rfl

/-- Settles O23, by the checks and the show state. -/
theorem loadCuesPlacesTheSet : Obligations.LoadCuesPlacesTheSet := by
  unfold Obligations.LoadCuesPlacesTheSet
  rintro s tag sc reel len wire cues r ok hs hpart rfl hw hlen hok
  have hargs : ok ↔ setOk reel len cues = true := by
    rw [hok, setOk_iff reel len cues hlen]
    have harg (k : CueKind) : k.argMax = match k with
        | .changeover => 3600
        | .lights => 3
        | .mark => 255
        | .motor => 0
        | .gateClose => 0
        | .lastCall => 0
        | .breakLead => 0 := by cases k <;> rfl
    simp only [harg] <;> rfl
  rw [exec_loadCues s tag sc reel len wire cues hpart hw, hargs]
  refine ⟨fun h => ?_, fun h hp => ?_, fun h hp hr => ?_, fun h he hh hn => ?_⟩
  · exact request_refused _ _ _ _ _ hs (loadCuesBody_range s sc reel len cues h)
  · exact request_refused _ _ _ _ _ hs (loadCuesBody_ended s sc reel len cues h hp)
  · exact request_show_reports hs (loadCuesBody_taken s sc reel len cues h (by rw [hp]; decide) (by rw [hp]; decide))
      ((s.showRun sc).load_active (freshSet reel len cues) hp hr)
  · exact request_show_reports (rs := []) hs (loadCuesBody_taken s sc reel len cues h he hh)
      ((s.showRun sc).load_staged (freshSet reel len cues) he hh hn)

end Sys2Proof.Machine
end

section
/-! PROOF. The settings of a screen, and RESET SCREEN (R28, R30, R33, R63). -/

namespace Sys2Proof.Machine

/-! ## Flags and lights (R28) -/

/-- A request that changes one screen's record and tells nothing. -/
theorem request_show_mod {kind tag : Nat} {body : State → Reply × State} {s : State} {sc : ScreenId} {p : Reply}
    {g : Screen → Screen} (hs : s.ready) (hb : body s = (p, s.onShow sc fun w => w.mod g)) :
    request kind tag body s = .next ((s.withScreen sc (g s.screens[sc])).answered kind tag p []) :=
  request_show_reports (rs := []) hs hb rfl

theorem exec_flagSet (s : State) (tag : Nat) (sc : ScreenId) (flag value : Nat) (f : ShowFlag) (v : Bool) (hs : s.ready)
    (hpart : s.link.part = .run) (hf : ShowFlag.of flag = some f) (hv : openOf value = some v) :
    exec (.flagSet tag sc.val flag value) s =
      .next ((s.withScreen sc (s.screens[sc].setFlag f v)).answered 0x06 tag Reply.ok []) := by
  change request 0x06 tag (withFin 4 sc.val fun sc s =>
    match ShowFlag.of flag, openOf value with
    | some f, some v => inRun (fun s => done (s.onShow sc fun w => w.mod fun r => r.setFlag f v)) s
    | _, _ => malformed s) s = _
  rw [withFin_val, hf, hv]
  exact request_show_mod (g := fun r => r.setFlag f v) hs (inRun_run _ _ hpart)

theorem exec_lights (s : State) (tag : Nat) (sc : ScreenId) (level : Nat) (hs : s.ready)
    (hpart : s.link.part = .run) : exec (.lights tag sc.val level) s =
      .next ((s.withScreen sc { s.screens[sc] with lights := min level 3 }).answered 0x07 tag
        (Reply.setting (decide (3 < level)) (u8 (min level 3))) []) := by
  change request 0x07 tag (withFin 4 sc.val fun sc => inRun fun s =>
    (Reply.setting (decide (3 < level)) (u8 (min level 3)),
      s.onShow sc fun w => w.mod fun r => { r with lights := min level 3 })) s = _
  rw [withFin_val]
  exact request_show_mod (g := fun r => { r with lights := min level 3 }) hs (inRun_run _ _ hpart)

/-! ## The timers' settings (R30) -/

theorem exec_timelineSet (s : State) (tag : Nat) (sc : ScreenId) (start lead : Nat) (hs : s.ready) (n : Screen)
    (hn : (s.showRun sc).setTimers (clampTimer 2 60 start) (clampTimer 2 30 lead) =
      { id := sc, sc := n, out := [] }) : exec (.timelineSet tag sc.val start lead) s =
      .next ((s.withScreen sc n).answered 0x08 tag
        (Reply.setting (decide (clampTimer 2 60 start ≠ start ∨ clampTimer 2 30 lead ≠ lead))
          (u8 (clampTimer 2 60 start) ++ u8 (clampTimer 2 30 lead))) []) := by
  change request 0x08 tag (withFin 4 sc.val fun sc s =>
    (Reply.setting (decide (clampTimer 2 60 start ≠ start ∨ clampTimer 2 30 lead ≠ lead))
        (u8 (clampTimer 2 60 start) ++ u8 (clampTimer 2 30 lead)),
      s.onShow sc fun w => w.setTimers (clampTimer 2 60 start) (clampTimer 2 30 lead))) s = _
  rw [withFin_val]
  exact request_show_reports (rs := []) hs rfl hn

section timers
variable (w : ShowRun) (start lead : Nat)

/-- A screen with new timer settings. -/
def Screen.withSettings (r : Screen) (start lead : Nat) : Screen :=
  { r with startSetting := start, leadSetting := lead }

/-- With no break countdown running, the settings alone change. -/
theorem ShowRun.setTimers_idle (h : w.sc.countdown = none ∨ w.sc.phase ≠ .onBreak) :
    w.setTimers start lead = { w with sc := w.sc.withSettings start lead } := by
  unfold ShowRun.setTimers
  dsimp only [ShowRun.mod_sc]
  split
  · next hc =>
    refine if_neg fun hp => ?_
    rw [hc] at h
    exact h.elim (fun hn => by cases hn) fun hn => hn hp.1
  · rfl

/-- A break countdown that has not come to the new motor lead leaves the motor alone. -/
theorem ShowRun.setTimers_early {ms : Nat} (hc : w.sc.countdown = some ms) (h : lead = 0 ∨ lead * 1000 < ms) :
    w.setTimers start lead = { w with sc := w.sc.withSettings start lead } := by
  unfold ShowRun.setTimers
  dsimp only [ShowRun.mod_sc]
  rw [hc]
  exact if_neg fun hp => by omega

/-- One that has commands the incoming motor on at once. -/
theorem ShowRun.setTimers_due {ms : Nat} (hp : w.sc.phase = .onBreak) (hc : w.sc.countdown = some ms) (hl : lead ≠ 0)
    (hms : ms ≤ lead * 1000) : w.setTimers start lead = { w with
      sc := (w.sc.withSettings start lead).setHead w.sc.incoming
        { w.sc.head w.sc.incoming with motor := true, stopAtRunout := false } } := by
  unfold ShowRun.setTimers
  dsimp only [ShowRun.mod_sc]
  rw [hc]
  refine (if_pos ⟨hp, hl, hms⟩).trans ((ShowRun.startMotor_eq _ _).trans ?_)
  unfold Screen.incoming
  dsimp only [ShowRun.mod, Screen.withSettings]
  split <;> rfl

end timers

/-- Settles O25, by the request and, of TIMELINE SET, by the break countdown. -/
theorem timelineSettings : Obligations.TimelineSettings := by
  unfold Obligations.TimelineSettings
  rintro s tag sc r hs rfl
  refine ⟨fun hpart => ⟨?_, ?_, ?_, ?_, fun level => ?_⟩, fun start lead a b m n ha hb hm hn => ?_⟩
  · exact exec_flagSet s tag sc 0 0 .gate true hs hpart rfl rfl
  · exact exec_flagSet s tag sc 0 1 .gate false hs hpart rfl rfl
  · exact exec_flagSet s tag sc 1 0 .ordering true hs hpart rfl rfl
  · exact exec_flagSet s tag sc 1 1 .ordering false hs hpart rfl rfl
  · rw [exec_lights s tag sc level hs hpart]
    by_cases hlevel : 3 < level
    · simp [Reply.setting, hlevel, u8, Nat.min_eq_right hlevel.le]
    · simp [Reply.setting, hlevel]
  · obtain rfl : a = clampTimer 2 60 start := ha
    obtain rfl : b = clampTimer 2 30 lead := hb
    have hreply : Reply.setting (decide (clampTimer 2 60 start ≠ start ∨ clampTimer 2 30 lead ≠ lead))
        (u8 (clampTimer 2 60 start) ++ u8 (clampTimer 2 30 lead)) =
        if clampTimer 2 60 start = start ∧ clampTimer 2 30 lead = lead then Reply.ok
        else { result := .clamped, indication := .none,
               fields := [.raw [BitVec.ofNat 8 (clampTimer 2 60 start), BitVec.ofNat 8 (clampTimer 2 30 lead)]] } := by
      by_cases hsame : clampTimer 2 60 start = start ∧ clampTimer 2 30 lead = lead
      · simp [Reply.setting, hsame]
      · rw [if_neg hsame, Reply.setting, decide_eq_true (Classical.not_and_iff_not_or_not.1 hsame)]
        rfl
    rw [← hreply]
    refine exec_timelineSet s tag sc start lead hs n ?_
    rcases hn with ⟨hidle, rfl⟩ | ⟨ms, hp, hc, hearly, rfl⟩ | ⟨ms, hp, hc, hl, hms, rfl⟩
    · rw [hm]
      exact (s.showRun sc).setTimers_idle _ _ hidle
    · rw [hm]
      exact (s.showRun sc).setTimers_early _ _ hc hearly
    · rw [hm]
      exact (s.showRun sc).setTimers_due _ _ hp hc hl hms

/-! ## RESET SCREEN (R33, R63) -/

theorem exec_resetScreen (s : State) (tag : Nat) (sc : ScreenId) :
    exec (.resetScreen tag sc.val) s = request 0x0A tag (fun s => done (s.resetScreen sc)) s := by
  change request 0x0A tag (withFin 4 sc.val fun sc s => done (s.resetScreen sc)) s = _
  rw [withFin_val]

theorem ShowRun.reset_sc (w : ShowRun) : w.reset.sc = { Screen.reset with
    headA := w.sc.headA.stopped, headB := w.sc.headB.stopped, startSetting := w.sc.startSetting
    leadSetting := w.sc.leadSetting } := by
  rw [ShowRun.reset, ShowRun.tell_sc, ShowRun.enter_sc, ShowRun.mod_sc, ShowRun.shutDown_sc]
  rfl

theorem ShowRun.reset_releases (w : ShowRun) : .release ∈ w.reset.out := by
  simp [ShowRun.reset]

/-- Whether what a timeline tells leaves a sound path that stands at MUTE as it is. -/
def Effect.leavesMute : Effect → Bool
  | .report _ => true
  | .notice st => decide (noticeSource st = some .mute)
  | .frameEvent _ => false
  | .release => true

theorem State.foldl_effect_mute (sc : ScreenId) (es : List Effect) (s : State) (hsrc : s.sound[sc].source = .mute)
    (hramp : s.sound[sc].ramp = none) (hes : ∀ e ∈ es, e.leavesMute = true) :
    (es.foldl (State.effect sc) s).sound = s.sound := by
  induction es generalizing s with
  | nil => rfl
  | cons e es ih =>
    have he : (s.effect sc e).sound = s.sound := by
      cases e with
      | report r => rfl
      | notice st =>
        have hst : noticeSource st = some .mute := of_decide_eq_true (hes _ List.mem_cons_self)
        have hrequest : (SoundRun.notice { id := sc, sd := s.sound[sc], out := [] } st).sd = s.sound[sc] := by
          unfold SoundRun.notice
          rw [hst]
          simp only [SoundRun.request, hramp, hsrc, Option.isSome_none, Bool.false_eq_true, if_false, if_true]
        simp only [State.effect, State.onSound_sound, hrequest]
        exact Vector.set_getElem_self _
      | frameEvent f => cases hes _ List.mem_cons_self
      | release => rfl
    rw [List.foldl_cons, ih (s.effect sc e) (by rw [he]; exact hsrc) (by rw [he]; exact hramp)
      fun x hx => hes x (List.mem_cons_of_mem _ hx), he]

/-- A timeline operation that tells nothing but what leaves MUTE alone leaves a sound path at MUTE alone. -/
theorem State.onShow_mute (s : State) (sc : ScreenId) (f : ShowRun → ShowRun) (hsrc : s.sound[sc].source = .mute)
    (hramp : s.sound[sc].ramp = none) (hf : ∀ e ∈ (f (s.showRun sc)).out, e.leavesMute = true) :
    (s.onShow sc f).sound = s.sound :=
  State.foldl_effect_mute sc _ { s with screens := s.screens.set sc (f (s.showRun sc)).sc } hsrc hramp hf

/-- What a reset of a timeline tells: heads that leave FAULT, DARK with its notice, the release (R33). -/
theorem ShowRun.reset_leavesMute (w : ShowRun) (h : w.out = []) : ∀ e ∈ w.reset.out, e.leavesMute = true := by
  have hhead (v : ShowRun) (k : Head) (f : HeadRec → HeadRec) (hv : ∀ e ∈ v.out, e.leavesMute = true) :
      ∀ e ∈ (v.modHead k f).out, e.leavesMute = true := by
    obtain ⟨rs, -, hm⟩ := v.modHead_tells k f
    intro e he
    rw [hm] at he
    rcases List.mem_append.1 he with he | he
    · exact hv e he
    · obtain ⟨q, -, rfl⟩ := List.mem_map.1 he
      rfl
  have hstep (v : ShowRun) (g : ShowRun → Head → ShowRun) (hg : ∀ v k, ∃ f, g v k = v.modHead k f)
      (hv : ∀ e ∈ v.out, e.leavesMute = true) : ∀ e ∈ (g (g v .a) .b).out, e.leavesMute = true := by
    obtain ⟨f, hf⟩ := hg v .a
    obtain ⟨f', hf'⟩ := hg (g v .a) .b
    rw [hf']
    refine hhead _ _ _ ?_
    rw [hf]
    exact hhead _ _ _ hv
  have hdown : ∀ e ∈ w.shutDown.out, e.leavesMute = true := by
    rw [ShowRun.shutDown, ShowRun.mod_out]
    refine hstep _ ShowRun.clearStop (fun _ _ => ⟨_, rfl⟩) ?_
    refine hstep _ (fun v k => v.motor k false) (fun _ _ => ⟨_, rfl⟩) ?_
    exact hstep _ (fun v k => v.douser k false) (fun _ _ => ⟨_, rfl⟩) (by simp [h])
  have henter (v : ShowRun) (hv : ∀ e ∈ v.out, e.leavesMute = true) :
      ∀ e ∈ (v.enter .dark .resetScreen).out, e.leavesMute = true := by
    unfold ShowRun.enter
    dsimp only
    split
    · exact hv
    · intro e he
      simp only [ShowRun.tell_out, ShowRun.raise_out, ShowRun.mod_out, List.mem_append, List.mem_singleton] at he
      rcases he with (he | rfl) | rfl
      exacts [hv e he, rfl, rfl]
  intro e he
  rw [ShowRun.reset, ShowRun.tell_out] at he
  rcases List.mem_append.1 he with he | he
  · refine henter _ ?_ e he
    rw [ShowRun.mod_out]
    exact hdown
  · rw [List.mem_singleton.1 he]
    rfl

/-- Settles O26. -/
theorem resetScreenClears : Obligations.ResetScreenClears := by
  unfold Obligations.ResetScreenClears
  rintro s tag sc r hs rfl
  obtain ⟨u, hu⟩ : ∃ u : State, u = { s with sound := s.sound.set sc s.sound[sc].screenReset } := ⟨_, rfl⟩
  have hreset : s.resetScreen sc = u.onShow sc ShowRun.reset := by rw [hu]; rfl
  have hscreens : u.screens = s.screens := by rw [hu]
  have husound : u.sound = s.sound.set sc s.sound[sc].screenReset := by rw [hu]
  have hself : u.sound[sc] = s.sound[sc].screenReset := by rw [husound]; exact Vector.getElem_set_self _
  have hsound : (u.onShow sc ShowRun.reset).sound = u.sound :=
    u.onShow_mute sc _ (congrArg Sound.source hself) (congrArg Sound.ramp hself)
      (ShowRun.reset_leavesMute (u.showRun sc) rfl)
  rw [exec_resetScreen, request_next, request_roomy _ _ _ _ hs.2]
  refine ⟨_, rfl, ?_, ?_, ?_, ?_, ?_⟩
  · rw [State.finish_screens]
    dsimp only [done]
    rw [hreset, State.onShow_screen, ShowRun.reset_sc, State.showRun_sc, hscreens]
  · rw [State.finish_sound]
    dsimp only [done]
    rw [hreset, hsound, hself]
    rfl
  · rw [State.finish_yard]
    dsimp only [done]
    rw [hreset]
    exact State.onShow_released u sc ShowRun.reset (ShowRun.reset_releases _)
  · rw [State.finish_link]
    dsimp only [done]
    rw [hreset, Link.after_replies, Link.addPlace_replies, State.onShow_link, hu]
  · refine State.finish_apart (t := { (done (s.resetScreen sc)).2 with link := _ }) ?_
    dsimp only [done]
    obtain ⟨hothers, hlanes⟩ := u.onShow_apart sc ShowRun.reset
    refine ⟨fun k hk => ?_, ?_⟩
    · obtain ⟨hscreen, hpath⟩ := hothers k hk
      refine ⟨?_, ?_⟩
      · dsimp only
        rw [hreset, hscreen, hscreens]
      · dsimp only
        rw [hreset, hpath, husound, Fin.getElem_fin, Fin.getElem_fin]
        exact Vector.getElem_set_ne _ _ fun h => hk (Fin.ext h.symm)
    · dsimp only
      rw [hreset, hlanes, hu]

end Sys2Proof.Machine
end

section
/-! PROOF. The receiver of the sound link, the servo's timers, SOURCE and the settings of a sound path (R35, R41, R47 to
R49, R55, R56, R60, R61). -/

namespace Sys2Proof.Machine

/-! ## A sound path's commands -/

/-- A screen's sound path as a step finds it. -/
def State.soundRun (s : State) (sc : ScreenId) : SoundRun :=
  { id := sc, sd := s.sound[sc], out := [] }

section known
variable {s : State} {sc : ScreenId} {f : SoundRun → SoundRun} {r : Sound} {rs : List Report}

theorem event_sound (hs : s.settled) (hf : f (s.soundRun sc) = { id := sc, sd := r, out := rs }) :
    event (fun s => s.onSound sc f) s = .next ((s.withSound sc r).reported rs) := by
  rw [event_next, State.onSound_known s sc f r rs hf, State.finish_raiseAll (s.withSound sc r) rs hs]

theorem event_sound_same (hs : s.settled) (hf : f (s.soundRun sc) = s.soundRun sc) :
    event (fun s => s.onSound sc f) s = .next (s.reported []) := by
  rw [event_sound (r := s.sound[sc]) (rs := []) hs hf, State.withSound_same]

theorem request_sound {kind tag : Nat} {body : State → Reply × State} {p : Reply} (hs : s.ready)
    (hb : body s = (p, s.onSound sc f)) (hf : f (s.soundRun sc) = { id := sc, sd := r, out := rs }) :
    request kind tag body s = .next ((s.withSound sc r).answered kind tag p rs) :=
  request_answers kind tag body s (s.withSound sc r) p rs hs.2 (by rw [hb, State.onSound_known s sc f r rs hf]) hs.1

theorem request_sound_same {kind tag : Nat} {body : State → Reply × State} {p : Reply} (hs : s.ready)
    (hb : body s = (p, s.onSound sc f)) (hf : f (s.soundRun sc) = s.soundRun sc) :
    request kind tag body s = .next (s.answered kind tag p []) := by
  rw [request_sound (r := s.sound[sc]) (rs := []) hs hb hf, State.withSound_same]

end known

/-! ## The receiver (R35) -/

section receiver
variable (sd : Sound) (b : Byte)

theorem Sound.takeByte_dropped (h : sd.rx = none) (hb : b ≠ 0x5A#8) : sd.takeByte b = sd := by
  simp only [Sound.takeByte, h, if_neg hb]

theorem Sound.takeByte_opens (h : sd.rx = none) : sd.takeByte 0x5A#8 = { sd with rx := some [0x5A#8] } := by
  simp only [Sound.takeByte, h, if_true]

theorem Sound.takeByte_kept {got : List Byte} (h : sd.rx = some got) (hl : got.length < 1031) :
    sd.takeByte b = { sd with rx := some (got ++ [b]) } := by
  simp only [Sound.takeByte, h, List.length_append, List.length_singleton]
  exact if_pos (by omega)

theorem Sound.takeByte_completes {got : List Byte} (h : sd.rx = some got) (hl : got.length = 1031) :
    sd.takeByte b = ({ sd with rx := none } : Sound).takeBlock (got ++ [b]) := by
  simp only [Sound.takeByte, h, List.length_append, List.length_singleton]
  exact if_neg (by omega)

theorem Sound.takeGap_discards {got : List Byte} (h : sd.rx = some got) :
    sd.takeGap = { sd with rx := none, linkErrors := satInc sd.linkErrors } := by
  simp only [Sound.takeGap, h]

theorem Sound.takeGap_hunting (h : sd.rx = none) : sd.takeGap = sd := by
  simp only [Sound.takeGap, h]

end receiver

/-- Settles O27, by what the receiver holds. -/
theorem soundReceiverHuntsForBlocks : Obligations.SoundReceiverHuntsForBlocks := by
  unfold Obligations.SoundReceiverHuntsForBlocks
  rintro s sc b r hs rfl
  have hmod (g : Sound → Sound) : event (fun s => s.onSound sc fun w => w.mod g) s =
      .next ((s.withSound sc (g s.sound[sc])).reported []) := event_sound hs rfl
  refine ⟨fun h hb => ?_, fun h => ?_, fun got h hl => ?_, fun got h hl => ?_, fun got h => ?_, fun h => ?_⟩
  · refine (hmod _).trans ?_
    rw [Sound.takeByte_dropped _ b h hb, State.withSound_same]
  · refine (hmod _).trans ?_
    rw [Sound.takeByte_opens _ h]
  · refine (hmod _).trans ?_
    rw [Sound.takeByte_kept _ b h hl]
  · refine (hmod _).trans ?_
    rw [Sound.takeByte_completes _ b h hl]
  · refine (hmod _).trans ?_
    rw [Sound.takeGap_discards _ h]
  · refine (hmod _).trans ?_
    rw [Sound.takeGap_hunting _ h, State.withSound_same]

/-! ## The servo's timers (R47, R48) -/

section timers
variable (w : SoundRun)

theorem SoundRun.coastGapExpired_running (h : w.sd.servo.coastGap.isSome = true) : w.coastGapExpired = { w with
    sd := { w.sd with servo := { w.sd.servo with
      state := .coast, r := 0, lockRun := 0, coastGap := none, coastLimit := loadMs w.sd.servo.settings.coastLimit } }
    out := w.out ++ [.syncCoast w.id w.sd.servo.p] } := by
  obtain ⟨n, hn⟩ := Option.isSome_iff_exists.1 h
  simp only [SoundRun.coastGapExpired, hn]
  rfl

theorem SoundRun.coastLimitExpired_running (h : w.sd.servo.coastLimit.isSome = true) : w.coastLimitExpired =
    (w.closeGap.modServo fun v => { v with state := .silent, coastLimit := none }).raise
      (.syncLost w.id w.sd.servo.p) := by
  obtain ⟨n, hn⟩ := Option.isSome_iff_exists.1 h
  simp only [SoundRun.coastLimitExpired, hn]

theorem SoundRun.coastGapExpired_idle (h : w.sd.servo.coastGap = none) : w.coastGapExpired = w := by
  simp only [SoundRun.coastGapExpired, h]

theorem SoundRun.coastLimitExpired_idle (h : w.sd.servo.coastLimit = none) : w.coastLimitExpired = w := by
  simp only [SoundRun.coastLimitExpired, h]

end timers

/-- Settles O31, timer by timer. -/
theorem servoTimersExpire : Obligations.ServoTimersExpire := by
  unfold Obligations.ServoTimersExpire
  rintro s sc r hs rfl
  refine ⟨fun h => event_sound hs (SoundRun.coastGapExpired_running _ h),
    fun h => event_sound_same hs (SoundRun.coastGapExpired_idle _ h), fun h hg => event_sound hs ?_,
    fun h start n hg => event_sound hs ?_, fun h => event_sound_same hs (SoundRun.coastLimitExpired_idle _ h)⟩
  · rw [SoundRun.coastLimitExpired_running _ h, SoundRun.closeGap_none hg]
    rfl
  · rw [SoundRun.coastLimitExpired_running _ h, SoundRun.closeGap_some hg]
    rfl

/-! ## Settings (R41, R60, R61) -/

/-- A reply is OK where nothing was clamped, and CLAMPED with the values used otherwise. -/
theorem Reply.setting_eq {p : Prop} [Decidable p] (used : List Byte) : Reply.setting (decide (¬p)) used =
    if p then Reply.ok else { result := .clamped, indication := .none, fields := [.raw used] } := by
  by_cases h : p <;> simp [Reply.setting, h]

/-- Settles O33, request by request. -/
theorem soundSettings : Obligations.SoundSettings := by
  unfold Obligations.SoundSettings
  rintro s tag sc r hs rfl
  refine ⟨fun o w d k m l st hst => ?_, fun level => ?_⟩
  · have hset : st = servoSettings o w d k m l := by
      rw [hst]
      simp [servoSettings, clampInt, clampNat, clampTimer]
    obtain ⟨sent, hsent⟩ : ∃ sent : ServoSettings,
      sent = { offset := o, window := w, deadband := d, gain := k, rmax := m, coastLimit := l } := ⟨_, rfl⟩
    have hexec : exec (.servoSet tag sc.val o w d k m l) s = request 0x0C tag (fun s =>
        (Reply.setting (decide (st ≠ sent)) st.bytes, s.onSound sc fun w => w.modServo fun v => v.setSettings st)) s := by
      rw [hset, hsent]
      change request 0x0C tag (withFin 4 sc.val fun sc s => (Reply.setting (decide (servoSettings o w d k m l ≠ _)) _,
        s.onSound sc fun w' => w'.modServo fun v => v.setSettings (servoSettings o w d k m l))) s = _
      rw [withFin_val]
    rw [hexec, ← hsent, request_sound (f := fun w => w.modServo fun v => v.setSettings st) hs rfl rfl, Reply.setting_eq]
    rfl
  · change request 0x0D tag (withFin 4 sc.val fun sc s => (Reply.setting (decide (320 < level)) (u16 (min level 320)),
      s.onSound sc fun w => w.mod fun sd => { sd with target := min level 320 })) s = _
    rw [withFin_val]
    have hreply : Reply.setting (decide (320 < level)) (u16 (min level 320)) = if 320 < level then
        { result := .clamped, indication := .none, fields := [.raw [1#8, 64#8]] } else Reply.ok := by
      by_cases hl : 320 < level
      · simp [Reply.setting, hl, Nat.min_eq_right hl.le, u16]
      · simp [Reply.setting, hl]
    rw [← hreply]
    exact request_sound hs rfl rfl

end Sys2Proof.Machine
end

section
/-! PROOF. SOURCE in every part state and ramp (R49, R52, R55, R56, R58), and the checks of a sound block (R36 to R39). -/

namespace Sys2Proof.Machine

/-! ## A change of source (R49, R56) -/

section switch
variable (w : SoundRun) (src : Source) (cause : SourceCause)

/-- A sound path as its source is about to leave: the new source current, no ramp-down, SOURCE_CHANGED raised. -/
def SoundRun.switched : SoundRun :=
  (w.mod fun sd => { sd with source := src, ramp := none }).raise (.sourceChanged w.id w.sd.source src cause)

theorem SoundRun.switch_same (h : w.sd.source = src) : w.switch src cause = w.switched src cause :=
  if_pos h

theorem SoundRun.switch_other (h : w.sd.source ≠ src) : w.switch src cause =
    if src = .programme then ((w.switched src cause).leaveSource w.sd.source).modServo Servo.pickUp
    else (w.switched src cause).leaveSource w.sd.source :=
  if_neg h

/-- What a switch reports: SOURCE_CHANGED, and the underrun gap that a PROGRAMME left with one closes. -/
theorem SoundRun.switch_out : ∃ rs, (w.switch src cause).out =
      w.out ++ .sourceChanged w.id w.sd.source src cause :: rs ∧
    (∀ q ∈ rs, ∃ start n, q = .underrun w.id start n) ∧
    ((w.sd.source = src ∨ w.sd.source ≠ .programme ∨ w.sd.servo.gap = none) →
      rs = [] ∧ (w.switch src cause).sd.underruns = w.sd.underruns) ∧
    ∀ start n, w.sd.source ≠ src → w.sd.source = .programme → w.sd.servo.gap = some (start, n) →
      rs = [.underrun w.id start n] ∧ (w.switch src cause).sd.underruns = satInc w.sd.underruns := by
  have hpick (v : SoundRun) : (if src = .programme then v.modServo Servo.pickUp else v).out = v.out ∧
      (if src = .programme then v.modServo Servo.pickUp else v).sd.underruns = v.sd.underruns := by
    split <;> exact ⟨rfl, rfl⟩
  by_cases hsame : w.sd.source = src
  · rw [w.switch_same src cause hsame]
    exact ⟨[], rfl, by simp, fun _ => ⟨rfl, rfl⟩, fun _ _ hne => absurd hsame hne⟩
  · rw [w.switch_other src cause hsame]
    obtain ⟨hout, hunder⟩ := hpick ((w.switched src cause).leaveSource w.sd.source)
    rw [hout, hunder]
    by_cases hprog : w.sd.source = .programme
    · rw [hprog, SoundRun.leaveSource]
      cases hgap : w.sd.servo.gap with
      | none =>
        have hnone : ((w.switched src cause).modServo Servo.freeze).sd.servo.gap = none := hgap
        rw [SoundRun.closeGap_none hnone]
        exact ⟨[], by simp [SoundRun.switched, hprog], by simp, fun _ => ⟨rfl, rfl⟩, fun _ _ _ _ hg => by cases hg⟩
      | some g =>
        obtain ⟨start, n⟩ := g
        have hsome : ((w.switched src cause).modServo Servo.freeze).sd.servo.gap = some (start, n) := hgap
        rw [SoundRun.closeGap_some hsome]
        refine ⟨[.underrun w.id start n], by simp [SoundRun.switched, hprog], by simp, fun h => ?_, fun a b _ _ hg => ?_⟩
        · rcases h with h | h | h
          · exact absurd (hprog.trans h) hsame
          · exact absurd rfl h
          · cases h
        · cases hg
          exact ⟨rfl, rfl⟩
    · refine ⟨[], ?_, by simp, fun _ => ⟨rfl, ?_⟩, fun _ _ _ h => absurd h hprog⟩
      all_goals cases hs : w.sd.source with
        | programme => exact absurd hs hprog
        | onBreak | mute => simp [SoundRun.leaveSource, SoundRun.switched, hs]

/-- Of a sound path, the end of an underrun gap touches the gap and the count. -/
theorem SoundRun.closeGap_sd : w.closeGap.sd = { w.sd with
    servo := { w.sd.servo with gap := none }
    underruns := if w.sd.servo.gap.isSome then satInc w.sd.underruns else w.sd.underruns } := by
  cases hgap : w.sd.servo.gap with
  | none =>
    rw [SoundRun.closeGap_none hgap]
    simp only [Option.isSome_none, Bool.false_eq_true, if_false]
    rw [← hgap]
  | some g =>
    rw [SoundRun.closeGap_some hgap]
    rfl

/-- The servo as the source changes to PROGRAMME, timer by timer (R49). -/
theorem Servo.pickUp_eq (v : Servo) : v.pickUp = { v with
    state := if v.state = .silent then .capture else v.state
    coastGap := if v.state ∈ [ServoState.track, .locked] then some 250 else v.coastGap
    coastLimit := if v.state ≠ .coast then v.coastLimit
      else if v.settings.coastLimit = 0 then none else some v.settings.coastLimit } := by
  unfold Servo.pickUp
  cases hs : v.state <;> simp [loadMs] <;> rw [← hs]

/-- What a change to another source leaves of the path (R49, R56). -/
theorem SoundRun.switch_changes (h : w.sd.source ≠ src) : w.sd.sourceChangedTo src (w.switch src cause).sd ∧
    (w.switch src cause).sd.servo.p = w.sd.servo.p := by
  rw [w.switch_other src cause h]
  unfold Sound.sourceChangedTo
  cases hs : w.sd.source with
  | programme =>
    have hsrc : src ≠ .programme := fun e => h (hs.trans e.symm)
    rw [if_neg hsrc, SoundRun.leaveSource, SoundRun.closeGap_sd]
    simp [hsrc, SoundRun.switched, Servo.freeze]
  | onBreak =>
    by_cases hsrc : src = .programme
    · simp [hsrc, SoundRun.leaveSource, SoundRun.switched, Servo.pickUp_eq]
    · simp [hsrc, SoundRun.leaveSource, SoundRun.switched]
  | mute =>
    by_cases hsrc : src = .programme
    · simp [hsrc, SoundRun.leaveSource, SoundRun.switched, Servo.pickUp_eq]
    · simp [hsrc, SoundRun.leaveSource, SoundRun.switched]

theorem SoundRun.switch_id : (w.switch src cause).id = w.id := by
  have hleave (v : SoundRun) (old : Source) : (v.leaveSource old).id = v.id := by
    cases old with
    | programme => exact SoundRun.closeGap_id _
    | onBreak => rfl
    | mute => rfl
  by_cases h : w.sd.source = src
  · rw [w.switch_same src cause h]
    rfl
  · rw [w.switch_other src cause h]
    split <;> exact hleave _ _

/-! ## SOURCE (R55) -/

theorem SoundRun.request_pending (h : w.sd.ramp.isSome = true) :
    w.request src cause = w.mod fun sd => { sd with ramp := some (src, cause) } :=
  if_pos h

theorem SoundRun.request_current (h : w.sd.ramp = none) (hs : w.sd.source = src) : w.request src cause = w := by
  simp [SoundRun.request, h, hs]

theorem SoundRun.request_ramps (h : w.sd.ramp = none) (hs : w.sd.source ≠ src) (hl : w.sd.level ≠ 0) :
    w.request src cause = w.mod fun sd => { sd with ramp := some (src, cause) } := by
  simp [SoundRun.request, h, hs, hl]

theorem SoundRun.request_switches (h : w.sd.ramp = none) (hs : w.sd.source ≠ src) (hl : w.sd.level = 0) :
    w.request src cause = w.switch src cause := by
  simp [SoundRun.request, h, hs, hl]

end switch

theorem exec_source (s : State) (tag : Nat) (sc : ScreenId) (src : Source) :
    exec (.source tag sc.val src.ctorIdx) s =
      request 0x0B tag (inRun fun s => done (s.onSound sc fun w => w.request src .host)) s := by
  change request 0x0B tag (withFin 4 sc.val fun sc s =>
    match Source.of src.ctorIdx with
    | some new => inRun (fun s => done (s.onSound sc fun w => w.request new .host)) s
    | none => malformed s) s = _
  rw [withFin_val]
  cases src <;> rfl

/-- Settles O32, by the part state, the ramp and the level. -/
theorem sourceRequestTaken : Obligations.SourceRequestTaken := by
  unfold Obligations.SourceRequestTaken
  rintro s tag sc src r hs rfl
  have hbody (hpart : s.link.part = .run) :
      inRun (fun s => done (s.onSound sc fun w => w.request src .host)) s =
        (Reply.ok, s.onSound sc fun w => w.request src .host) := inRun_run _ _ hpart
  rw [exec_source]
  refine ⟨fun hpart => request_refused _ _ _ _ _ hs (inRun_setup _ _ hpart), fun hpart hr hsrc =>
    request_sound_same hs (hbody hpart) ((s.soundRun sc).request_current src .host hr hsrc), fun hpart h => ?_,
    fun hpart hr hmute hl hbreak => ?_, fun hpart hr hsrc hl => ?_⟩
  · have hramp : (s.soundRun sc).request src .host =
        (s.soundRun sc).mod fun sd => { sd with ramp := some (src, .host) } := by
      by_cases hr : s.sound[sc].ramp.isSome = true
      · exact (s.soundRun sc).request_pending src .host hr
      · obtain ⟨hsrc, hl⟩ := h.resolve_left hr
        exact (s.soundRun sc).request_ramps src .host (Option.not_isSome_iff_eq_none.1 hr) hsrc hl
    exact request_sound (f := fun w => w.request src .host) hs (hbody hpart) hramp
  · subst hbreak
    have hne : (s.soundRun sc).sd.source ≠ .onBreak := by rw [State.soundRun, hmute]; decide
    refine request_sound (f := fun w => w.request .onBreak .host) hs (hbody hpart) ?_
    rw [(s.soundRun sc).request_switches .onBreak .host hr hne hl, (s.soundRun sc).switch_other .onBreak .host hne,
      if_neg (by decide)]
    simp only [State.soundRun, hmute, SoundRun.leaveSource, SoundRun.switched, SoundRun.raise, SoundRun.mod, hr,
      List.nil_append]
  · have hf := (s.soundRun sc).request_switches src .host hr hsrc hl
    obtain ⟨rs, hout, -, hquiet, hgap⟩ := (s.soundRun sc).switch_out src .host
    obtain ⟨hchange, hp⟩ := (s.soundRun sc).switch_changes src .host hsrc
    obtain ⟨sd, hsd⟩ : ∃ sd, ((s.soundRun sc).switch src .host).sd = sd := ⟨_, rfl⟩
    rw [hsd] at hchange hp hquiet hgap
    have hself : (s.withSound sc sd).sound[sc] = sd := Vector.getElem_set_self _
    have hid : ((s.soundRun sc).switch src .host).id = sc := SoundRun.switch_id _ _ _
    refine ⟨s.withSound sc sd, rs, request_sound (f := fun w => w.request src .host) hs (hbody hpart) ?_, ?_⟩
    · rw [hf]
      change SoundRun.mk ((s.soundRun sc).switch src .host).id ((s.soundRun sc).switch src .host).sd
        ((s.soundRun sc).switch src .host).out = _
      rw [hid, hsd, hout]
      rfl
    · rw [hself]
      exact ⟨hchange.1, hchange.2.1, hp, hchange, fun h => hquiet (.inr h), fun start n hprog hg => hgap start n hsrc hprog hg⟩


end Sys2Proof.Machine
end

section
/-! PROOF. The checks of a complete sound block and what the rings do with it (R36 to R39). -/

namespace Sys2Proof.Machine

/-- A value that is not the default is read where it was written, whatever the table. -/
theorem Tab.get_put_of_ne {α : Type} [DecidableEq α] {d : α} (t : Tab α) (i : Nat) {v : α} (hv : v ≠ d) :
    Tab.get d (Tab.put d t i v) i = v := by
  induction t with
  | nil => simp [Tab.put, Tab.get, hv]
  | cons e t ih =>
    obtain ⟨k, w⟩ := e
    unfold Tab.put
    split
    · simp [Tab.get, hv]
    · split
      · simp [Tab.get, hv]
      · next hne => simpa [Tab.get, hne] using ih

/-! ## A block's bytes (R36) -/

theorem getU16_eq_append (hi lo : Byte) : BitVec.ofNat 16 (getU16 hi lo) = hi ++ lo := by
  apply BitVec.eq_of_toNat_eq
  have := hi.isLt
  have := lo.isLt
  rw [BitVec.toNat_append, BitVec.toNat_ofNat, getU16, ← Nat.shiftLeft_add_eq_or_of_lt lo.isLt, Nat.shiftLeft_eq]
  omega

/-- The frames of a SAMPLES field, four bytes to a frame. -/
theorem framesOf_getElem? (n k : Nat) (samples : List Byte) (hl : samples.length = 4 * n) (hk : k < n) :
    (framesOf samples)[k]? = some
      ((samples.getD (4 * k) 0 ++ samples.getD (4 * k + 1) 0).toInt,
        (samples.getD (4 * k + 2) 0 ++ samples.getD (4 * k + 3) 0).toInt) := by
  induction n generalizing k samples with
  | zero => cases hk
  | succ n ih =>
    match samples, hl with
    | a :: b :: c :: d :: rest, hl =>
      cases k with
      | zero => rfl
      | succ k =>
        have hrest : rest.length = 4 * n := by simp only [List.length_cons] at hl; omega
        rw [framesOf, List.getElem?_cons_succ, ih k rest hrest (by omega)]
        simp only [show 4 * (k + 1) = 4 * k + 1 + 1 + 1 + 1 by omega, List.getD_cons_succ,
          show 4 * k + 1 + 1 + 1 + 1 + 1 = (4 * k + 1) + 1 + 1 + 1 + 1 by omega,
          show 4 * k + 1 + 1 + 1 + 1 + 2 = (4 * k + 2) + 1 + 1 + 1 + 1 by omega,
          show 4 * k + 1 + 1 + 1 + 1 + 3 = (4 * k + 3) + 1 + 1 + 1 + 1 by omega]

section block
variable {sync kind s3 s2 s1 s0 c1 c0 : Byte} {samples : List Byte} (sd : Sound) (hlen : samples.length = 1024)

/-- Whether the CRC of a block's parts matches (R36). -/
def blockSound (kind s3 s2 s1 s0 c1 c0 : Byte) (samples : List Byte) : Bool :=
  decide (crc16 (kind :: s3 :: s2 :: s1 :: s0 :: samples) = c1 ++ c0)

include hlen in
/-- A complete block, by its parts (R36). -/
theorem Sound.takeBlock_parts : sd.takeBlock (sync :: kind :: s3 :: s2 :: s1 :: s0 :: (samples ++ [c1, c0])) =
    if blockSound kind s3 s2 s1 s0 c1 c0 samples && decide (kind = 0x01#8) &&
        decide ((getU16 s3 s2 * 65536 + getU16 s1 s0) % 256 = 0) then
      sd.takeProgramme { tag := (getU16 s3 s2 * 65536 + getU16 s1 s0) / 256, frames := framesOf samples }
    else if blockSound kind s3 s2 s1 s0 c1 c0 samples && decide (kind = 0x02#8) && decide (getU16 s3 s2 = 0) then
      sd.takeBreak { tag := getU16 s1 s0, frames := framesOf samples }
    else { sd with linkErrors := satInc sd.linkErrors } := by
  have htake : (samples ++ [c1, c0]).take 1024 = samples := by rw [← hlen, List.take_left]
  have hdrop : (samples ++ [c1, c0]).drop 1024 = [c1, c0] := by rw [← hlen, List.drop_left]
  have hdrop' : (samples ++ [c1, c0]).drop 1025 = [c0] := by
    rw [show 1025 = 1024 + 1 from rfl, ← List.drop_drop, hdrop]
    rfl
  have hcrc : ((sync :: kind :: s3 :: s2 :: s1 :: s0 :: (samples ++ [c1, c0])).drop 1).take 1029 =
      kind :: s3 :: s2 :: s1 :: s0 :: samples := by
    simp only [List.drop_succ_cons, List.drop_zero, List.take_succ_cons, htake]
  simp only [Sound.takeBlock, hcrc, htake, hdrop, hdrop', List.headD_cons, getU16_eq_append]
  rfl

theorem start_of_bytes : s3.toNat * 16777216 + s2.toNat * 65536 + s1.toNat * 256 + s0.toNat =
    getU16 s3 s2 * 65536 + getU16 s1 s0 := by
  simp only [getU16]
  omega

theorem upper_zero_iff : getU16 s3 s2 = 0 ↔ getU16 s3 s2 * 65536 + getU16 s1 s0 < 65536 := by
  have h1 : getU16 s1 s0 < 65536 := by
    have := s1.isLt
    have := s0.isLt
    simp only [getU16]
    omega
  omega

end block

/-! ## The rings (R37 to R39) -/

section judge
variable {dist : Nat → Int} {held : Option Nat} {b : Nat}

theorem judge_late (h : dist b < 0) : judge dist held b = .late := if_pos h

theorem judge_early {t : Nat} (h : 0 ≤ dist b) (hh : held = some t) (ht : 0 ≤ dist t) (hb : dist t < dist b) :
    judge dist held b = .early := by
  subst hh
  exact (if_neg (not_lt.2 h)).trans (if_pos ⟨ht, hb⟩)

theorem judge_store (h : 0 ≤ dist b) (hh : ∀ t, held = some t → dist t < 0 ∨ dist b ≤ dist t) :
    judge dist held b = .store := by
  unfold judge
  rw [if_neg (not_lt.2 h)]
  cases held with
  | none => rfl
  | some t =>
    refine if_neg fun hc => ?_
    rcases hh t rfl with ht | ht
    · exact absurd hc.1 (not_le.2 ht)
    · exact absurd hc.2 (not_lt.2 ht)

end judge

section rings
variable (sd : Sound) (b : Block)

theorem Sound.takeProgramme_stored
    (h : judge (fun x => dist24 x sd.servo.block) ((sd.progSlot (b.tag % 64)).map Block.tag) b.tag = .store) :
    sd.takeProgramme b = { sd with prog := Tab.put none sd.prog (b.tag % 64) (some b) } := by
  simp only [Sound.takeProgramme, h]

/-- The positions a stored block covers play its frames (R38). -/
theorem Sound.sampleAt?_stored (ht : b.tag < 16777216) (k : Nat) (hk : k < 256)
    (h : (sd.takeProgramme b) = { sd with prog := Tab.put none sd.prog (b.tag % 64) (some b) }) :
    (sd.takeProgramme b).sampleAt? (BitVec.ofNat 32 (b.tag * 256 + k)) = some (b.frames.getD k (0, 0)) := by
  have hnat : (BitVec.ofNat 32 (b.tag * 256 + k)).toNat = b.tag * 256 + k := by
    rw [BitVec.toNat_ofNat]
    exact Nat.mod_eq_of_lt (by omega)
  have hdiv : (b.tag * 256 + k) / 256 = b.tag := by omega
  have hmod : (b.tag * 256 + k) % 256 = k := by omega
  have hslot : Sound.progSlot { sd with prog := Tab.put none sd.prog (b.tag % 64) (some b) } (b.tag % 64) = some b :=
    Tab.get_put_of_ne _ _ (Option.some_ne_none b)
  rw [h]
  simp only [Sound.sampleAt?, hnat, hdiv, hmod, hslot, if_true]

section judged
variable {sd b} {k off : Nat} (hc : sd.cursor = some (k, off))
include hc

theorem Sound.takeBreak_late
    (h : judge (fun x => dist16 x k) ((sd.brkSlot (b.tag % 16)).map Block.tag) b.tag = .late) :
    sd.takeBreak b = { sd with late := satInc sd.late } := by
  simp only [Sound.takeBreak, hc, h]

theorem Sound.takeBreak_early
    (h : judge (fun x => dist16 x k) ((sd.brkSlot (b.tag % 16)).map Block.tag) b.tag = .early) :
    sd.takeBreak b = { sd with early := satInc sd.early } := by
  simp only [Sound.takeBreak, hc, h]

theorem Sound.takeBreak_stored
    (h : judge (fun x => dist16 x k) ((sd.brkSlot (b.tag % 16)).map Block.tag) b.tag = .store) :
    sd.takeBreak b = { sd with brk := Tab.put none sd.brk (b.tag % 16) (some b) } := by
  simp only [Sound.takeBreak, hc, h]

end judged

end rings

/-- Settles O28, by the checks of the block and the judgement of its ring. -/
theorem soundBlocksJudged : Obligations.SoundBlocksJudged := by
  unfold Obligations.SoundBlocksJudged
  refine ⟨fun sd sync kind s3 s2 s1 s0 c1 c0 samples block start good hlen hblock hstart hgood => ?_, fun sd b ht => ?_⟩
  · subst hblock
    have hstart := hstart.trans start_of_bytes
    obtain rfl : good = blockSound kind s3 s2 s1 s0 c1 c0 samples := hgood
    rw [sd.takeBlock_parts hlen, ← hstart]
    refine ⟨fun hg hk h0 => ?_, fun hg hk hs => ?_, fun hbad => ?_, fun k hk => framesOf_getElem? 256 k samples hlen hk⟩
    · subst hk
      simp [hg, h0]
    · have hu := (upper_zero_iff (s1 := s1) (s0 := s0)).2 (hstart ▸ hs)
      have hlow : getU16 s1 s0 = start := by rw [hstart, hu]; omega
      subst hk
      simp [hg, hu, hlow]
    · have hupper : getU16 s3 s2 = 0 ↔ start < 65536 := by rw [hstart]; exact upper_zero_iff
      rw [if_neg, if_neg]
      all_goals
        simp only [Bool.and_eq_true, decide_eq_true_eq, and_assoc, hupper]
        grind
  · refine ⟨fun hd => ?_, fun hd held hs hh hb => ?_, fun hd hh k hk => ?_, fun hc => ⟨?_, ?_⟩, fun k off hc => ⟨fun hd => ?_,
      fun hd held hs hh hb => ?_, fun hd hh => ?_⟩⟩
    · simp only [Sound.takeProgramme, judge_late (dist := fun x => dist24 x sd.servo.block) hd]
    · simp only [Sound.takeProgramme, judge_early (dist := fun x => dist24 x sd.servo.block) hd
        (congrArg (Option.map Block.tag) hs) hh hb]
    · refine sd.sampleAt?_stored b ht k hk (sd.takeProgramme_stored b (judge_store hd fun t htag => ?_))
      obtain ⟨held, hslot, rfl⟩ := Option.map_eq_some_iff.1 htag
      exact hh held hslot
    · simp only [Sound.takeBreak, hc, Sound.brkSlot]
      exact Tab.get_put_of_ne _ _ (Option.some_ne_none b)
    · simp only [Sound.takeBreak, hc]
    · exact Sound.takeBreak_late hc (judge_late (dist := fun x => dist16 x k) hd)
    · exact Sound.takeBreak_early hc (judge_early (dist := fun x => dist16 x k) hd
        (congrArg (Option.map Block.tag) hs) hh hb)
    · have hstore : judge (fun x => dist16 x k) ((sd.brkSlot (b.tag % 16)).map Block.tag) b.tag = .store := by
        refine judge_store hd fun t htag => ?_
        obtain ⟨held, hslot, rfl⟩ := Option.map_eq_some_iff.1 htag
        exact hh held hslot
      rw [Sound.takeBreak_stored hc hstore]
      exact ⟨Tab.get_put_of_ne _ _ (Option.some_ne_none b), rfl, fun i hi => Tab.get_put_other _ _ _ hi⟩

end Sys2Proof.Machine
end

section
/-! PROOF. The output tick: the sample the source supplies, the level with its switch point, and both outputs (R40, R49 to
R54, R56, R59). -/

namespace Sys2Proof.Machine

/-! ## What the source supplies -/

/-- The position, the accumulator and the sample of a servo's move on a programme tick (R50). -/
def Servo.moved (v : Servo) (sd : Sound) : BitVec 32 × Int × Stereo :=
  let a := v.a + v.r
  if 65536 ≤ a then (v.p + 2#32, a - 65536, average (sd.sampleAt v.p) (sd.sampleAt (v.p + 1#32)))
  else if a ≤ -65536 then (v.p, a + 65536, average v.prev (sd.sampleAt v.p))
  else (v.p + 1#32, a, sd.sampleAt v.p)

theorem Servo.advance_eq (v : Servo) (sd : Sound) : v.advance sd = ((v.moved sd).2.2, { v with
    p := (v.moved sd).1, a := (v.moved sd).2.1, prev := (v.moved sd).2.2 }) := by
  unfold Servo.advance Servo.moved
  dsimp only
  split
  · rfl
  · split <;> rfl

/-- The sample a source supplies on a tick, with what it leaves of its own part of the path (R40, R50, R51). -/
def SoundRun.supply (w : SoundRun) : Stereo × SoundRun :=
  match w.sd.source with
  | .programme => w.programmeTick
  | .onBreak => (w.sd.breakTick.1, w.mod fun _ => w.sd.breakTick.2)
  | .mute => ((0, 0), w)

/-- A sound path with both outputs at a sample. -/
def SoundRun.played (w : SoundRun) (o : Stereo) : SoundRun :=
  w.mod fun sd => { sd with feed := o, bus := o }

theorem SoundRun.tick_eq (w : SoundRun) :
    w.tick = (w.supply.2.played (scale w.supply.2.sd.level w.supply.1)).levelTick := by
  unfold SoundRun.tick SoundRun.supply
  cases w.sd.source <;> rfl

section supply
variable (w : SoundRun)

theorem SoundRun.supply_silent (h : w.sd.source = .programme)
    (hst : w.sd.servo.state ∈ [ServoState.silent, .capture]) :
    w.supply = ((0, 0), w.modServo fun v => { v with prev := (0, 0) }) := by
  simp only [List.mem_cons, List.not_mem_nil, or_false] at hst
  unfold SoundRun.supply SoundRun.programmeTick
  rw [h]
  rcases hst with hst | hst <;> rw [hst]

theorem SoundRun.supply_moving (h : w.sd.source = .programme)
    (hst : w.sd.servo.state ∈ [ServoState.track, .locked, .coast]) :
    w.supply = (w.gapTick.sd.servo.advance w.gapTick.sd |>.1,
      w.gapTick.modServo fun _ => (w.gapTick.sd.servo.advance w.gapTick.sd).2) := by
  simp only [List.mem_cons, List.not_mem_nil, or_false] at hst
  unfold SoundRun.supply SoundRun.programmeTick
  rw [h]
  rcases hst with hst | hst | hst <;> rw [hst]

theorem SoundRun.supply_break (h : w.sd.source = .onBreak) :
    w.supply = (w.sd.breakTick.1, w.mod fun _ => w.sd.breakTick.2) := by
  simp only [SoundRun.supply, h]

theorem SoundRun.supply_mute (h : w.sd.source = .mute) : w.supply = ((0, 0), w) := by
  simp only [SoundRun.supply, h]

/-- The underrun rule touches the gap and the count of underruns (R52). -/
theorem SoundRun.gapTick_eq : ∃ g n rs, w.gapTick = { w with
      sd := { w.sd with servo := { w.sd.servo with gap := g }, underruns := n }, out := w.out ++ rs } ∧
    (w.sd.sampleAt? w.sd.servo.p = none → n = w.sd.underruns ∧ rs = [] ∧
      (w.sd.servo.gap = none → g = some (w.sd.servo.p, 1)) ∧
      ∀ start k, w.sd.servo.gap = some (start, k) → g = some (start, k + 1)) ∧
    (∀ x, w.sd.sampleAt? w.sd.servo.p = some x → g = none ∧
      (w.sd.servo.gap = none → n = w.sd.underruns ∧ rs = []) ∧
      ∀ start k, w.sd.servo.gap = some (start, k) → n = satInc w.sd.underruns ∧ rs = [.underrun w.id start k]) ∧
    ∀ q ∈ rs, ∃ start k, q = .underrun w.id start k := by
  unfold SoundRun.gapTick
  cases hx : w.sd.sampleAt? w.sd.servo.p with
  | some x =>
    cases hg : w.sd.servo.gap with
    | none =>
      refine ⟨none, w.sd.underruns, [], ?_, by simp, by simp, by simp⟩
      rw [SoundRun.closeGap_none hg, List.append_nil, ← hg]
    | some g =>
      obtain ⟨start, k⟩ := g
      refine ⟨none, satInc w.sd.underruns, [.underrun w.id start k], SoundRun.closeGap_some hg, by simp, ?_, by simp⟩
      rintro x -
      refine ⟨rfl, by simp, fun a b hab => ?_⟩
      cases hab
      exact ⟨rfl, rfl⟩
  | none =>
    cases hg : w.sd.servo.gap with
    | none => exact ⟨some (w.sd.servo.p, 1), w.sd.underruns, [], by simp [SoundRun.modServo], by simp, by simp, by simp⟩
    | some g =>
      obtain ⟨start, k⟩ := g
      refine ⟨some (start, k + 1), w.sd.underruns, [], by simp [SoundRun.modServo], ?_, by simp, by simp⟩
      refine fun _ => ⟨rfl, rfl, by simp, fun a b hab => ?_⟩
      cases hab
      rfl

end supply

/-! ## The level and the switch point (R54, R56) -/

section level
variable (w : SoundRun) (src : Source) (cause : SourceCause)

/-- The parts of a sound path that a switch of source may write, and those it leaves (R49, R56). -/
theorem SoundRun.switch_sd : ∃ brk cursor isOpen st g cg cl n, (w.switch src cause).sd = { w.sd with
      source := src, ramp := none, brk := brk, cursor := cursor, breakGapOpen := isOpen
      servo := { w.sd.servo with state := st, gap := g, coastGap := cg, coastLimit := cl }, underruns := n } ∧
    ((w.sd.source ≠ .onBreak ∨ w.sd.source = src) →
      brk = w.sd.brk ∧ cursor = w.sd.cursor ∧ isOpen = w.sd.breakGapOpen) ∧
    (w.sd.source = .onBreak → w.sd.source ≠ src → brk = [] ∧ cursor = none ∧ isOpen = false) := by
  by_cases hsame : w.sd.source = src
  · rw [w.switch_same src cause hsame]
    exact ⟨w.sd.brk, w.sd.cursor, w.sd.breakGapOpen, w.sd.servo.state, w.sd.servo.gap, w.sd.servo.coastGap,
      w.sd.servo.coastLimit, w.sd.underruns, rfl, fun _ => ⟨rfl, rfl, rfl⟩, fun _ hne => absurd hsame hne⟩
  · rw [w.switch_other src cause hsame]
    cases hs : w.sd.source with
    | programme =>
      have hsrc : src ≠ .programme := fun e => hsame (hs.trans e.symm)
      rw [if_neg hsrc, SoundRun.leaveSource, SoundRun.closeGap_sd]
      exact ⟨w.sd.brk, w.sd.cursor, w.sd.breakGapOpen, w.sd.servo.state, none, none, none, _, rfl,
        fun _ => ⟨rfl, rfl, rfl⟩, fun hb => by cases hb⟩
    | onBreak =>
      refine ⟨[], none, false, if src = .programme then w.sd.servo.pickUp.state else w.sd.servo.state, w.sd.servo.gap,
        if src = .programme then w.sd.servo.pickUp.coastGap else w.sd.servo.coastGap,
        if src = .programme then w.sd.servo.pickUp.coastLimit else w.sd.servo.coastLimit, w.sd.underruns, ?_,
        fun h => ?_, fun _ _ => ⟨rfl, rfl, rfl⟩⟩
      · by_cases hsrc : src = .programme
        · simp [hsrc, SoundRun.leaveSource, SoundRun.switched, Servo.pickUp_eq]
        · simp only [hsrc, if_false, SoundRun.leaveSource, SoundRun.switched]
          rfl
      · exact h.elim (fun hn => absurd rfl hn) fun he => absurd (hs.trans he) hsame
    | mute =>
      refine ⟨w.sd.brk, w.sd.cursor, w.sd.breakGapOpen,
        if src = .programme then w.sd.servo.pickUp.state else w.sd.servo.state, w.sd.servo.gap,
        if src = .programme then w.sd.servo.pickUp.coastGap else w.sd.servo.coastGap,
        if src = .programme then w.sd.servo.pickUp.coastLimit else w.sd.servo.coastLimit, w.sd.underruns, ?_,
        fun _ => ⟨rfl, rfl, rfl⟩, fun hb => by cases hb⟩
      by_cases hsrc : src = .programme
      · simp [hsrc, SoundRun.leaveSource, SoundRun.switched, Servo.pickUp_eq]
      · simp only [hsrc, if_false, SoundRun.leaveSource, SoundRun.switched]
        rfl

/-- Whether a tick leaves the source and the ramp as they are: no ramp-down, no wrap of the step count, or a level that
does not come to 0. -/
def Sound.staysOn (sd : Sound) : Prop :=
  sd.ramp = none ∨ sd.stepCount < 47 ∨ 1 < sd.level

/-- The step count after a tick (R54). -/
def Sound.nextStep (sd : Sound) : Nat :=
  if sd.stepCount < 47 then sd.stepCount + 1 else 0

/-- The level after a tick (R54). -/
def Sound.nextLevel (sd : Sound) : Nat :=
  if sd.stepCount < 47 then sd.level else stepToward sd.aim sd.level

theorem SoundRun.levelTick_stays (h : w.sd.staysOn) :
    w.levelTick = w.mod fun sd => { sd with stepCount := sd.nextStep, level := sd.nextLevel } := by
  unfold SoundRun.levelTick Sound.nextStep Sound.nextLevel
  split
  · next hc => simp only [SoundRun.mod, hc, if_true]
  · next hc =>
    simp only [SoundRun.mod, hc, if_false]
    split
    · next s c hr =>
      have hl : 1 < w.sd.level := by
        rcases h with h | h | h
        · rw [h] at hr; cases hr
        · exact absurd h hc
        · exact h
      refine if_neg ?_
      have haim : w.sd.aim = 0 := if_pos (.inl (by rw [hr]; rfl))
      simp only [haim, stepToward]
      split <;> [omega; skip]
      split <;> omega
    · rfl

theorem SoundRun.levelTick_switches (hr : w.sd.ramp = some (src, cause)) (hc : 47 ≤ w.sd.stepCount) (hl : w.sd.level ≤ 1) :
    w.levelTick = (w.mod fun sd => { sd with stepCount := 0, level := 0 }).switch src cause := by
  have haim : w.sd.aim = 0 := if_pos (.inl (by rw [hr]; rfl))
  have hzero : stepToward w.sd.aim w.sd.level = 0 := by
    rw [haim, stepToward]
    split <;> [omega; skip]
    split <;> omega
  unfold SoundRun.levelTick
  rw [if_neg (Nat.not_lt.2 hc)]
  simp only [SoundRun.mod, hzero, hr, if_true]

end level

/-! ## The tick -/

/-- An output tick reaches one sound path and the report queue. -/
theorem exec_outputTick (s : State) (sc : ScreenId) (hs : s.settled) : ∃ t, exec (.outputTick sc) s = .next t ∧
    t.sound[sc] = (s.soundRun sc).tick.sd ∧ t.link = s.link.after (s.soundRun sc).tick.out ∧
    t.screens = s.screens ∧ t.lanes = s.lanes ∧ t.yard = s.yard ∧ ∀ k : ScreenId, k ≠ sc → t.sound[k] = s.sound[k] := by
  have hyard : ({ s.yard with raised := [] } : Yard) = s.yard := by
    rw [State.settled] at hs
    rw [← hs]
  refine ⟨_, rfl, Vector.getElem_set_self _, ?_, rfl, rfl, hyard, fun k hk => ?_⟩
  · refine congrArg s.link.after ?_
    change s.yard.raised ++ (s.soundRun sc).tick.out = _
    rw [hs, List.nil_append]
  · simp only [State.finish_sound, State.onSound_sound, Fin.getElem_fin]
    exact Vector.getElem_set_ne _ _ fun h => hk (Fin.ext h.symm)

end Sys2Proof.Machine
end

section
/-! PROOF. The output tick, clause by clause (R40, R49 to R54, R56, R59). -/

namespace Sys2Proof.Machine

/-! ## The parts of a path a tick may write -/

/-- The parts of a path that the supply of a sample may write. -/
def Sound.withSupply (sd : Sound) (v : Servo) (n : Nat) (c : Option (Nat × Nat)) (o : Bool) (k : Nat) : Sound :=
  { sd with servo := v, underruns := n, cursor := c, breakGapOpen := o, breakGaps := k }

theorem Sound.breakTick_keeps (sd : Sound) : ∃ c o k,
    sd.breakTick.2 = sd.withSupply sd.servo sd.underruns c o k := by
  unfold Sound.breakTick
  repeat' split
  all_goals exact ⟨_, _, _, rfl⟩

section tick
variable (w : SoundRun)

theorem SoundRun.supply_keeps : ∃ p a x g n c o k rs, w.supply.2 = { w with
      sd := w.sd.withSupply { w.sd.servo with p := p, a := a, prev := x, gap := g } n c o k, out := w.out ++ rs } ∧
    ∀ q ∈ rs, ∃ start len, q = .underrun w.id start len := by
  cases hs : w.sd.source with
  | programme =>
    by_cases hst : w.sd.servo.state ∈ [ServoState.silent, .capture]
    · rw [w.supply_silent hs hst]
      refine ⟨w.sd.servo.p, w.sd.servo.a, (0, 0), w.sd.servo.gap, w.sd.underruns, w.sd.cursor, w.sd.breakGapOpen,
        w.sd.breakGaps, [], ?_, by simp⟩
      rw [List.append_nil]
      rfl
    · have hmoving : w.sd.servo.state ∈ [ServoState.track, .locked, .coast] := by
        revert hst
        cases w.sd.servo.state <;> decide
      obtain ⟨g, n, rs, hgap, -, -, hrs⟩ := w.gapTick_eq
      rw [w.supply_moving hs hmoving, Servo.advance_eq, hgap]
      exact ⟨_, _, _, g, n, w.sd.cursor, w.sd.breakGapOpen, w.sd.breakGaps, rs, rfl, hrs⟩
  | onBreak =>
    rw [w.supply_break hs]
    obtain ⟨c, o, k, hb⟩ := w.sd.breakTick_keeps
    refine ⟨w.sd.servo.p, w.sd.servo.a, w.sd.servo.prev, w.sd.servo.gap, w.sd.underruns, c, o, k, [], ?_, by simp⟩
    rw [List.append_nil, hb]
    rfl
  | mute =>
    rw [w.supply_mute hs]
    refine ⟨w.sd.servo.p, w.sd.servo.a, w.sd.servo.prev, w.sd.servo.gap, w.sd.underruns, w.sd.cursor,
      w.sd.breakGapOpen, w.sd.breakGaps, [], ?_, by simp⟩
    rw [List.append_nil]
    rfl

/-- A sound path whose source has supplied a sample and played it, its level still to move. -/
def SoundRun.sounded : SoundRun :=
  w.supply.2.played (scale w.supply.2.sd.level w.supply.1)

theorem SoundRun.sounded_keeps : w.sounded.id = w.id ∧ w.sounded.sd.source = w.sd.source ∧
    w.sounded.sd.ramp = w.sd.ramp ∧ w.sounded.sd.stepCount = w.sd.stepCount ∧ w.sounded.sd.level = w.sd.level ∧
    w.sounded.sd.target = w.sd.target ∧ w.sounded.sd.prog = w.sd.prog ∧ w.sounded.sd.brk = w.sd.brk ∧
    w.sounded.sd.rx = w.sd.rx ∧ w.sounded.sd.linkErrors = w.sd.linkErrors ∧ w.sounded.sd.late = w.sd.late ∧
    w.sounded.sd.early = w.sd.early ∧ w.sounded.sd.jumps = w.sd.jumps ∧
    w.sounded.sd.servo.settings = w.sd.servo.settings ∧ w.sounded.sd.servo.r = w.sd.servo.r ∧
    w.sounded.sd.servo.state = w.sd.servo.state ∧ w.sounded.sd.servo.lockRun = w.sd.servo.lockRun ∧
    w.sounded.sd.servo.coastGap = w.sd.servo.coastGap ∧ w.sounded.sd.servo.coastLimit = w.sd.servo.coastLimit ∧
    w.sounded.sd.feed = scale w.sd.level w.supply.1 ∧ w.sounded.sd.bus = scale w.sd.level w.supply.1 := by
  obtain ⟨p, a, x, g, n, c, o, k, rs, h, -⟩ := w.supply_keeps
  unfold SoundRun.sounded
  rw [h]
  exact ⟨rfl, rfl, rfl, rfl, rfl, rfl, rfl, rfl, rfl, rfl, rfl, rfl, rfl, rfl, rfl, rfl, rfl, rfl, rfl, rfl, rfl⟩

theorem SoundRun.sounded_out : ∃ rs, w.sounded.out = w.out ++ rs ∧ ∀ q ∈ rs, ∃ start n, q = .underrun w.id start n := by
  obtain ⟨p, a, x, g, n, c, o, k, rs, h, hrs⟩ := w.supply_keeps
  exact ⟨rs, by unfold SoundRun.sounded; rw [h]; rfl, hrs⟩

/-- What a tick that stays on its source leaves. -/
theorem SoundRun.tick_stays (h : w.sd.staysOn) : w.tick = w.sounded.mod fun sd =>
    { sd with stepCount := w.sd.nextStep, level := w.sd.nextLevel } := by
  obtain ⟨-, hsrc, hramp, hstep, hlevel, htarget, -⟩ := w.sounded_keeps
  have hstays : w.sounded.sd.staysOn := by
    rw [Sound.staysOn, hramp, hstep, hlevel]
    exact h
  have haim : w.sounded.sd.aim = w.sd.aim := by simp only [Sound.aim, hramp, hsrc, htarget]
  have hnext : w.sounded.sd.nextStep = w.sd.nextStep := by simp only [Sound.nextStep, hstep]
  have hnextl : w.sounded.sd.nextLevel = w.sd.nextLevel := by simp only [Sound.nextLevel, hstep, hlevel, haim]
  rw [w.tick_eq]
  change w.sounded.levelTick = _
  rw [w.sounded.levelTick_stays hstays]
  simp only [SoundRun.mod, hnext, hnextl]

/-- What a tick that comes to the switch point leaves (R56). -/
theorem SoundRun.tick_switches {src : Source} {cause : SourceCause} (hr : w.sd.ramp = some (src, cause))
    (hc : 47 ≤ w.sd.stepCount) (hl : w.sd.level ≤ 1) :
    w.tick = (w.sounded.mod fun sd => { sd with stepCount := 0, level := 0 }).switch src cause := by
  obtain ⟨-, hsrc, hramp, hstep, hlevel, htarget, -⟩ := w.sounded_keeps
  rw [w.tick_eq]
  exact w.sounded.levelTick_switches src cause (hramp.trans hr) (hstep ▸ hc) (hlevel ▸ hl)

/-- A tick stays on its source, or comes to the switch point. -/
theorem Sound.staysOn_or (sd : Sound) : sd.staysOn ∨ ∃ src cause, sd.ramp = some (src, cause) ∧ 47 ≤ sd.stepCount ∧ sd.level ≤ 1 := by
  unfold Sound.staysOn
  cases hr : sd.ramp with
  | none => exact .inl (.inl rfl)
  | some x =>
    by_cases hc : sd.stepCount < 47
    · exact .inl (.inr (.inl hc))
    · by_cases hl : 1 < sd.level
      · exact .inl (.inr (.inr hl))
      · exact .inr ⟨x.1, x.2, rfl, Nat.not_lt.1 hc, Nat.not_lt.1 hl⟩

/-- What a tick leaves in any case: the outputs and what the supply wrote of the servo's move and the break gaps. -/
theorem SoundRun.tick_keeps : w.tick.sd.feed = scale w.sd.level w.supply.1 ∧ w.tick.sd.bus = w.tick.sd.feed ∧
    w.tick.sd.servo.p = w.sounded.sd.servo.p ∧ w.tick.sd.servo.a = w.sounded.sd.servo.a ∧
    w.tick.sd.servo.prev = w.sounded.sd.servo.prev ∧ w.tick.sd.servo.r = w.sd.servo.r ∧
    w.tick.sd.breakGaps = w.sounded.sd.breakGaps ∧ w.tick.sd.target = w.sd.target ∧ w.tick.sd.prog = w.sd.prog ∧
    w.tick.sd.rx = w.sd.rx ∧ w.tick.sd.linkErrors = w.sd.linkErrors ∧ w.tick.sd.late = w.sd.late ∧
    w.tick.sd.early = w.sd.early ∧ w.tick.sd.jumps = w.sd.jumps ∧
    w.tick.sd.servo.settings = w.sd.servo.settings := by
  obtain ⟨-, -, -, -, -, ht, hp, -, hrx, he, hla, hea, hj, hse, hr, -, -, -, -, hfeed, hbus⟩ := w.sounded_keeps
  rcases w.sd.staysOn_or with h | ⟨src, cause, hramp, hc, hl⟩
  · rw [w.tick_stays h]
    exact ⟨hfeed, hbus.trans hfeed.symm, rfl, rfl, rfl, hr, rfl, ht, hp, hrx, he, hla, hea, hj, hse⟩
  · rw [w.tick_switches hramp hc hl]
    obtain ⟨b, c, o, st, g, cg, cl, n, hsd, -⟩ :=
      (w.sounded.mod fun sd => { sd with stepCount := 0, level := 0 }).switch_sd src cause
    rw [hsd]
    exact ⟨hfeed, hbus.trans hfeed.symm, rfl, rfl, rfl, hr, rfl, ht, hp, hrx, he, hla, hea, hj, hse⟩

/-! ## The servo's part of a tick (R50 to R52) -/

theorem SoundRun.sounded_silent (h : w.sd.source = .programme)
    (hst : w.sd.servo.state ∈ [ServoState.silent, .capture]) :
    w.sounded.sd.servo = { w.sd.servo with prev := (0, 0) } ∧ w.sounded.out = w.out ∧ w.supply.1 = (0, 0) := by
  unfold SoundRun.sounded
  rw [w.supply_silent h hst]
  exact ⟨rfl, rfl, rfl⟩

theorem SoundRun.sounded_other (h : w.sd.source ≠ .programme) :
    w.sounded.sd.servo = w.sd.servo ∧ w.sounded.out = w.out := by
  unfold SoundRun.sounded
  cases hs : w.sd.source with
  | programme => exact absurd hs h
  | onBreak =>
    rw [w.supply_break hs]
    obtain ⟨c, o, k, hb⟩ := w.sd.breakTick_keeps
    rw [hb]
    exact ⟨rfl, rfl⟩
  | mute =>
    rw [w.supply_mute hs]
    exact ⟨rfl, rfl⟩

theorem Sound.sampleAt_withServo (sd : Sound) (v : Servo) (n : Nat) (x : BitVec 32) :
    Sound.sampleAt { sd with servo := v, underruns := n } x = sd.sampleAt x := rfl

/-- A move of the servo: its position, its accumulator and the sample, by the new accumulator (R50). -/
theorem SoundRun.sounded_moving (h : w.sd.source = .programme)
    (hst : w.sd.servo.state ∈ [ServoState.track, .locked, .coast]) :
    w.sounded.sd.servo = { w.sd.servo with
      p := (w.sd.servo.moved w.sd).1, a := (w.sd.servo.moved w.sd).2.1, prev := (w.sd.servo.moved w.sd).2.2
      gap := w.sounded.sd.servo.gap } ∧
    w.supply.1 = (w.sd.servo.moved w.sd).2.2 ∧
    (w.sd.sampleAt? w.sd.servo.p = none → w.sounded.sd.underruns = w.sd.underruns ∧ w.sounded.out = w.out ∧
      (w.sd.servo.gap = none → w.sounded.sd.servo.gap = some (w.sd.servo.p, 1)) ∧
      ∀ start k, w.sd.servo.gap = some (start, k) → w.sounded.sd.servo.gap = some (start, k + 1)) ∧
    ∀ x, w.sd.sampleAt? w.sd.servo.p = some x → w.sounded.sd.servo.gap = none ∧
      (w.sd.servo.gap = none → w.sounded.sd.underruns = w.sd.underruns ∧ w.sounded.out = w.out) ∧
      ∀ start k, w.sd.servo.gap = some (start, k) →
        w.sounded.sd.underruns = satInc w.sd.underruns ∧ w.sounded.out = w.out ++ [.underrun w.id start k] := by
  obtain ⟨g, n, rs, hgap, hnone, hsome, -⟩ := w.gapTick_eq
  unfold SoundRun.sounded
  rw [w.supply_moving h hst, Servo.advance_eq, hgap]
  refine ⟨rfl, rfl, fun hx => ?_, fun x hx => ?_⟩
  · obtain ⟨rfl, rfl, hopen, hlonger⟩ := hnone hx
    exact ⟨rfl, List.append_nil _, hopen, hlonger⟩
  · obtain ⟨rfl, hclosed, hcloses⟩ := hsome x hx
    refine ⟨rfl, fun hg => ?_, fun start k hg => ?_⟩
    · obtain ⟨rfl, rfl⟩ := hclosed hg
      exact ⟨rfl, List.append_nil _⟩
    · obtain ⟨rfl, rfl⟩ := hcloses start k hg
      exact ⟨rfl, rfl⟩

/-! ## The break cursor's part of a tick (R40) -/

theorem SoundRun.sounded_noBreak (h : w.sd.source ≠ .onBreak) : w.sounded.sd.cursor = w.sd.cursor ∧
    w.sounded.sd.breakGapOpen = w.sd.breakGapOpen ∧ w.sounded.sd.breakGaps = w.sd.breakGaps := by
  unfold SoundRun.sounded
  cases hs : w.sd.source with
  | onBreak => exact absurd hs h
  | mute =>
    rw [w.supply_mute hs]
    exact ⟨rfl, rfl, rfl⟩
  | programme =>
    by_cases hst : w.sd.servo.state ∈ [ServoState.silent, .capture]
    · rw [w.supply_silent hs hst]
      exact ⟨rfl, rfl, rfl⟩
    · have hmoving : w.sd.servo.state ∈ [ServoState.track, .locked, .coast] := by
        revert hst
        cases w.sd.servo.state <;> decide
      obtain ⟨g, n, rs, hgap, -⟩ := w.gapTick_eq
      rw [w.supply_moving hs hmoving, hgap]
      exact ⟨rfl, rfl, rfl⟩

theorem SoundRun.sounded_break (h : w.sd.source = .onBreak) : w.supply.1 = w.sd.breakTick.1 ∧
    w.sounded.sd.cursor = w.sd.breakTick.2.cursor ∧
    w.sounded.sd.breakGapOpen = w.sd.breakTick.2.breakGapOpen ∧
    w.sounded.sd.breakGaps = w.sd.breakTick.2.breakGaps := by
  unfold SoundRun.sounded
  rw [w.supply_break h]
  exact ⟨rfl, rfl, rfl, rfl⟩

end tick

section breakTick
variable (sd : Sound)

theorem Sound.breakTick_unset (h : sd.cursor = none) :
    sd.breakTick = ((0, 0), { sd with breakGapOpen := false }) := by
  simp only [Sound.breakTick, h]

theorem Sound.breakTick_held {k off : Nat} {b : Block} (h : sd.cursor = some (k, off))
    (hb : sd.brkSlot (k % 16) = some b) (ht : b.tag = k) : sd.breakTick =
      (b.frames.getD off (0, 0), { sd with cursor := some (nextCursor k off), breakGapOpen := false }) := by
  simp only [Sound.breakTick, h, hb, ht, if_true]

theorem Sound.breakTick_missing {k off : Nat} (h : sd.cursor = some (k, off))
    (hb : ∀ b, sd.brkSlot (k % 16) = some b → b.tag ≠ k) : sd.breakTick =
      ((0, 0), { sd with
        cursor := some (nextCursor k off), breakGapOpen := true
        breakGaps := if sd.breakGapOpen then sd.breakGaps else satInc sd.breakGaps }) := by
  simp only [Sound.breakTick, h]
  split
  · next b hs => rw [if_neg (hb b hs)]
  · rfl

end breakTick

end Sys2Proof.Machine
end

section
/-! PROOF. What an output tick does to the whole part (R40, R49 to R54, R56, R59). -/

namespace Sys2Proof.Machine

section tick
variable {w : SoundRun}

theorem scale_zero_level (x : Stereo) : scale 0 x = (0, 0) := by
  simp [scale, saturate, clampInt]

theorem scale_zero_sample (l : Nat) : scale l (0, 0) = (0, 0) := by
  simp [scale, saturate, clampInt]

/-! ## The servo and the outputs -/

/-- Where the servo does not move, its position and accumulator stand (R51). -/
theorem SoundRun.tick_rests (h : w.sd.source ≠ .programme ∨ w.sd.servo.state ∈ [ServoState.silent, .capture]) :
    w.tick.sd.servo.p = w.sd.servo.p ∧ w.tick.sd.servo.a = w.sd.servo.a := by
  obtain ⟨-, -, hp, ha, -⟩ := w.tick_keeps
  rw [hp, ha]
  by_cases hs : w.sd.source = .programme
  · obtain ⟨hv, -⟩ := w.sounded_silent hs (h.resolve_left (absurd hs))
    rw [hv]
    exact ⟨rfl, rfl⟩
  · rw [(w.sounded_other hs).1]
    exact ⟨rfl, rfl⟩

/-- Where the servo moves, the tick leaves its move and plays its sample (R50). -/
theorem SoundRun.tick_moves (hs : w.sd.source = .programme)
    (hst : w.sd.servo.state ∈ [ServoState.track, .locked, .coast]) :
    w.tick.sd.servo.p = (w.sd.servo.moved w.sd).1 ∧ w.tick.sd.servo.a = (w.sd.servo.moved w.sd).2.1 ∧
    w.tick.sd.servo.prev = (w.sd.servo.moved w.sd).2.2 ∧
    w.tick.sd.feed = scale w.sd.level (w.sd.servo.moved w.sd).2.2 := by
  obtain ⟨hfeed, -, hp, ha, hprev, -⟩ := w.tick_keeps
  obtain ⟨hv, hx, -⟩ := w.sounded_moving hs hst
  rw [hp, ha, hprev, hfeed, hx, hv]
  exact ⟨rfl, rfl, rfl, rfl⟩

/-- The ticks that play silence (R51, R53, R59). -/
theorem SoundRun.tick_silent (h : w.sd.source = .mute ∨ w.sd.level = 0 ∨
      w.sd.source = .programme ∧ w.sd.servo.state ∈ [ServoState.silent, .capture]) :
    w.tick.sd.feed = (0, 0) := by
  rw [w.tick_keeps.1]
  rcases h with h | h | ⟨hs, hst⟩
  · rw [w.supply_mute h]
    exact scale_zero_sample _
  · rw [h]
    exact scale_zero_level _
  · rw [(w.sounded_silent hs hst).2.2]
    exact scale_zero_sample _

theorem SoundRun.tick_stays_servo (h : w.sd.staysOn) :
    w.tick.sd.servo = w.sounded.sd.servo ∧ w.tick.out = w.sounded.out ∧
      w.tick.sd.underruns = w.sounded.sd.underruns ∧ w.tick.sd.brk = w.sd.brk ∧
      w.tick.sd.source = w.sd.source ∧ w.tick.sd.ramp = w.sd.ramp ∧ w.tick.sd.stepCount = w.sd.nextStep ∧
      w.tick.sd.level = w.sd.nextLevel ∧ w.tick.sd.cursor = w.sounded.sd.cursor ∧
      w.tick.sd.breakGapOpen = w.sounded.sd.breakGapOpen := by
  obtain ⟨-, hsrc, hramp, -, -, -, -, hbrk, -⟩ := w.sounded_keeps
  rw [w.tick_stays h]
  exact ⟨rfl, rfl, rfl, hbrk, hsrc, hramp, rfl, rfl, rfl, rfl⟩

/-! ## The switch point (R49, R56) -/

/-- The path as it comes to the switch point. -/
def SoundRun.atSwitch (w : SoundRun) : SoundRun :=
  w.sounded.mod fun sd => { sd with stepCount := 0, level := 0 }

section switch
variable {src : Source} {cause : SourceCause} (hr : w.sd.ramp = some (src, cause)) (hc : 47 ≤ w.sd.stepCount)
  (hl : w.sd.level ≤ 1)
include hr hc hl

theorem SoundRun.tick_atSwitch : w.tick = w.atSwitch.switch src cause :=
  w.tick_switches hr hc hl

theorem SoundRun.tick_switch_reports : ∃ pre post,
    w.tick.out = w.out ++ (pre ++ .sourceChanged w.id w.sd.source src cause :: post) ∧
      ∀ q ∈ pre ++ post, ∃ start n, q = .underrun w.id start n := by
  obtain ⟨hid, hsrc, -⟩ := w.sounded_keeps
  obtain ⟨pre, hpre, hpres⟩ := w.sounded_out
  obtain ⟨post, hpost, hposts, -⟩ := w.atSwitch.switch_out src cause
  refine ⟨pre, post, ?_, fun q hq => ?_⟩
  · rw [SoundRun.tick_atSwitch hr hc hl, ← List.append_assoc, ← hpre, ← hid, ← hsrc]
    exact hpost
  · rcases List.mem_append.1 hq with hq | hq
    · exact hpres q hq
    · obtain ⟨start, n, h⟩ := hposts q hq
      exact ⟨start, n, h.trans (by rw [← hid]; rfl)⟩

/-- What the switch of a tick leaves of the path and of the servo that is left or picked up. -/
theorem SoundRun.tick_switch_sd : w.tick.sd.stepCount = 0 ∧ w.tick.sd.level = 0 ∧ w.tick.sd.source = src ∧
    w.tick.sd.ramp = none ∧ w.tick.sd.servo.lockRun = w.sd.servo.lockRun ∧
    (w.sd.source ≠ .onBreak ∨ w.sd.source = src → w.tick.sd.brk = w.sd.brk ∧
      w.tick.sd.cursor = w.sounded.sd.cursor ∧ w.tick.sd.breakGapOpen = w.sounded.sd.breakGapOpen) ∧
    (w.sd.source = .onBreak → w.sd.source ≠ src →
      w.tick.sd.brk = [] ∧ w.tick.sd.cursor = none ∧ w.tick.sd.breakGapOpen = false) := by
  obtain ⟨-, hsrc, -, -, -, -, -, hbrk, -, -, -, -, -, -, -, -, hrun, -⟩ := w.sounded_keeps
  obtain ⟨b, c, o, st, g, cg, cl, n, hsd, hsame, hleft⟩ := w.atSwitch.switch_sd src cause
  have hatsrc : w.atSwitch.sd.source = w.sd.source := hsrc
  rw [hatsrc] at hsame hleft
  rw [SoundRun.tick_atSwitch hr hc hl]
  refine ⟨by rw [hsd]; rfl, by rw [hsd]; rfl, by rw [hsd], by rw [hsd], by rw [hsd]; exact hrun, fun h => ?_, fun h hne => ?_⟩
  · obtain ⟨rfl, rfl, rfl⟩ := hsame h
    refine ⟨?_, ?_, ?_⟩
    · exact (congrArg Sound.brk hsd).trans hbrk
    · rw [hsd]
      rfl
    · rw [hsd]
      rfl
  · obtain ⟨rfl, rfl, rfl⟩ := hleft h hne
    exact ⟨congrArg Sound.brk hsd, congrArg Sound.cursor hsd, congrArg Sound.breakGapOpen hsd⟩

theorem SoundRun.tick_switch_servo (hne : w.sd.source ≠ src) :
    (w.sd.source = .programme → w.tick.sd.servo.state = w.sd.servo.state ∧ w.tick.sd.servo.gap = none ∧
      w.tick.sd.servo.coastGap = none ∧ w.tick.sd.servo.coastLimit = none) ∧
    (src = .programme →
      w.tick.sd.servo.state = (if w.sd.servo.state = .silent then .capture else w.sd.servo.state) ∧
      w.tick.sd.servo.coastGap =
        (if w.sd.servo.state ∈ [ServoState.track, .locked] then some 250 else w.sd.servo.coastGap) ∧
      w.tick.sd.servo.coastLimit = (if w.sd.servo.state ≠ .coast then w.sd.servo.coastLimit
        else if w.sd.servo.settings.coastLimit = 0 then none else some w.sd.servo.settings.coastLimit)) := by
  obtain ⟨-, hsrc, -, -, -, -, -, -, -, -, -, -, -, hset, -, hstate, -, hgap, hlimit, -⟩ := w.sounded_keeps
  obtain ⟨⟨-, -, -, -, hleft, hpicked⟩, -⟩ := w.atSwitch.switch_changes src cause fun h => hne (hsrc.symm.trans h)
  rw [SoundRun.tick_atSwitch hr hc hl, ← hstate, ← hset, ← hgap, ← hlimit, ← hsrc]
  exact ⟨hleft, hpicked⟩

end switch

/-! ## The level (R54) -/

theorem SoundRun.tick_level : w.tick.sd.stepCount = w.sd.nextStep ∧ w.tick.sd.level = w.sd.nextLevel := by
  rcases w.sd.staysOn_or with h | ⟨src, cause, hr, hc, hl⟩
  · obtain ⟨-, -, -, -, -, -, hstep, hlevel, -⟩ := SoundRun.tick_stays_servo h
    exact ⟨hstep, hlevel⟩
  · obtain ⟨hstep, hlevel, -⟩ := SoundRun.tick_switch_sd hr hc hl
    rw [hstep, hlevel, Sound.nextStep, Sound.nextLevel, if_neg (Nat.not_lt.2 hc), if_neg (Nat.not_lt.2 hc)]
    refine ⟨rfl, ?_⟩
    have haim : w.sd.aim = 0 := if_pos (.inl (by rw [hr]; rfl))
    rw [haim, stepToward, if_neg (Nat.not_lt_zero _)]
    split <;> omega

/-! ## The break ring and its cursor (R40) -/

/-- A source other than BREAK leaves the break ring, its cursor and its gap. -/
theorem SoundRun.tick_noBreak (h : w.sd.source ≠ .onBreak) : w.tick.sd.cursor = w.sd.cursor ∧
    w.tick.sd.brk = w.sd.brk ∧ w.tick.sd.breakGapOpen = w.sd.breakGapOpen ∧ w.tick.sd.breakGaps = w.sd.breakGaps := by
  obtain ⟨hcursor, hopen, hgaps⟩ := w.sounded_noBreak h
  obtain ⟨-, -, -, -, -, -, hk, -⟩ := w.tick_keeps
  rw [hk, hgaps]
  rcases w.sd.staysOn_or with hst | ⟨src, cause, hr, hc, hl⟩
  · obtain ⟨-, -, -, hbrk, -, -, -, -, hc, ho⟩ := SoundRun.tick_stays_servo hst
    rw [hbrk, hc, ho, hcursor, hopen]
    exact ⟨rfl, rfl, rfl, rfl⟩
  · obtain ⟨-, -, -, -, -, hsame, -⟩ := SoundRun.tick_switch_sd hr hc hl
    obtain ⟨hbrk, hc, ho⟩ := hsame (.inl h)
    rw [hbrk, hc, ho, hcursor, hopen]
    exact ⟨rfl, rfl, rfl, rfl⟩

/-- With the source BREAK the tick plays what the break cursor supplies, and leaves the cursor and the gap as the break
tick leaves them, but for a switch to another source, which empties them. -/
theorem SoundRun.tick_break (h : w.sd.source = .onBreak) :
    w.tick.sd.feed = scale w.sd.level w.sd.breakTick.1 ∧ w.tick.sd.breakGaps = w.sd.breakTick.2.breakGaps ∧
    (w.sd.staysOn → w.tick.sd.cursor = w.sd.breakTick.2.cursor ∧
      w.tick.sd.breakGapOpen = w.sd.breakTick.2.breakGapOpen) ∧
    (w.tick.sd.cursor = w.sd.breakTick.2.cursor ∨ w.tick.sd.cursor = none) ∧
    (w.tick.sd.breakGapOpen = w.sd.breakTick.2.breakGapOpen ∨ w.tick.sd.breakGapOpen = false) := by
  obtain ⟨hx, hcursor, hopen, hgaps⟩ := w.sounded_break h
  obtain ⟨hfeed, -, -, -, -, -, hk, -⟩ := w.tick_keeps
  have hstays (hst : w.sd.staysOn) : w.tick.sd.cursor = w.sd.breakTick.2.cursor ∧
      w.tick.sd.breakGapOpen = w.sd.breakTick.2.breakGapOpen := by
    obtain ⟨-, -, -, -, -, -, -, -, hc, ho⟩ := SoundRun.tick_stays_servo hst
    exact ⟨hc.trans hcursor, ho.trans hopen⟩
  refine ⟨hx ▸ hfeed, hk.trans hgaps, hstays, ?_⟩
  rcases w.sd.staysOn_or with hst | ⟨src, cause, hr, hc, hl⟩
  · exact ⟨.inl (hstays hst).1, .inl (hstays hst).2⟩
  · obtain ⟨-, -, -, -, -, hsame, hleft⟩ := SoundRun.tick_switch_sd hr hc hl
    by_cases hsrc : w.sd.source = src
    · obtain ⟨-, hc, ho⟩ := hsame (.inr hsrc)
      exact ⟨.inl (hc.trans hcursor), .inl (ho.trans hopen)⟩
    · obtain ⟨-, hc, ho⟩ := hleft h hsrc
      exact ⟨.inr hc, .inr ho⟩

end tick

/-! ## The obligation -/

section clauses
variable (w : SoundRun)

/-- The clauses of a tick on which the servo moves (R50). -/
theorem SoundRun.tick_moves_cases (hs : w.sd.source = .programme)
    (hst : w.sd.servo.state ∈ [ServoState.track, .locked, .coast]) (a : Int) (ha : a = w.sd.servo.a + w.sd.servo.r) :
    (65536 ≤ a → w.tick.sd.servo.p = w.sd.servo.p + 2 ∧ w.tick.sd.servo.a = a - 65536 ∧
      w.tick.sd.feed = scale w.sd.level (average (w.sd.sampleAt w.sd.servo.p) (w.sd.sampleAt (w.sd.servo.p + 1)))) ∧
    (a ≤ -65536 → w.tick.sd.servo.p = w.sd.servo.p ∧ w.tick.sd.servo.a = a + 65536 ∧
      w.tick.sd.feed = scale w.sd.level (average w.sd.servo.prev (w.sd.sampleAt w.sd.servo.p))) ∧
    (-65536 < a → a < 65536 → w.tick.sd.servo.p = w.sd.servo.p + 1 ∧ w.tick.sd.servo.a = a ∧
      w.tick.sd.feed = scale w.sd.level (w.sd.sampleAt w.sd.servo.p)) ∧
    w.tick.sd.servo.prev = (if 65536 ≤ a then average (w.sd.sampleAt w.sd.servo.p) (w.sd.sampleAt (w.sd.servo.p + 1))
      else if a ≤ -65536 then average w.sd.servo.prev (w.sd.sampleAt w.sd.servo.p)
      else w.sd.sampleAt w.sd.servo.p) := by
  obtain ⟨hp, ha', hprev, hfeed⟩ := SoundRun.tick_moves hs hst
  rw [hp, ha', hprev, hfeed, Servo.moved, ← ha]
  refine ⟨fun h => ?_, fun h => ?_, fun h h' => ?_, ?_⟩
  · rw [if_pos h]
    exact ⟨rfl, rfl, rfl⟩
  · rw [if_neg (by omega), if_pos h]
    exact ⟨rfl, rfl, rfl⟩
  · rw [if_neg (by omega), if_neg (by omega)]
    exact ⟨rfl, rfl, rfl⟩
  · split
    · rfl
    · split <;> rfl

/-- The clauses of a tick that comes to the switch point (R49, R56). -/
theorem SoundRun.tick_switch_cases {src : Source} {cause : SourceCause} (hr : w.sd.ramp = some (src, cause))
    (hc : 47 ≤ w.sd.stepCount) (hl : w.sd.level ≤ 1) : w.tick.sd.source = src ∧ w.tick.sd.ramp = none ∧
    (w.sd.source = .onBreak → src ≠ .onBreak →
      w.tick.sd.brk = [] ∧ w.tick.sd.cursor = none ∧ w.tick.sd.breakGapOpen = false) ∧
    (w.sd.source = .programme → src ≠ .programme → w.tick.sd.servo.state = w.sd.servo.state ∧
      w.tick.sd.servo.lockRun = w.sd.servo.lockRun ∧ w.tick.sd.servo.gap = none ∧
      w.tick.sd.servo.coastGap = none ∧ w.tick.sd.servo.coastLimit = none) ∧
    (w.sd.source ≠ .programme → src = .programme →
      w.tick.sd.servo.state = (if w.sd.servo.state = .silent then .capture else w.sd.servo.state) ∧
      w.tick.sd.servo.coastGap =
        (if w.sd.servo.state ∈ [ServoState.track, .locked] then some 250 else w.sd.servo.coastGap) ∧
      w.tick.sd.servo.coastLimit = (if w.sd.servo.state ≠ .coast then w.sd.servo.coastLimit
        else if w.sd.servo.settings.coastLimit = 0 then none else some w.sd.servo.settings.coastLimit)) ∧
    (w.sd.source = src → w.tick.sd.prog = w.sd.prog ∧ w.tick.sd.brk = w.sd.brk) := by
  obtain ⟨-, -, hsrc, hramp, hrun, hsame, hleft⟩ := SoundRun.tick_switch_sd hr hc hl
  obtain ⟨-, -, -, -, -, -, -, -, hprog, -⟩ := w.tick_keeps
  refine ⟨hsrc, hramp, fun h hne => hleft h fun e => hne (e.symm.trans h), fun h hne => ?_, fun hne h => ?_,
    fun h => ⟨hprog, (hsame (.inr h)).1⟩⟩
  · obtain ⟨hst, hgap, hcg, hcl⟩ := (SoundRun.tick_switch_servo hr hc hl fun e => hne (e.symm.trans h)).1 h
    exact ⟨hst, hrun, hgap, hcg, hcl⟩
  · exact (SoundRun.tick_switch_servo hr hc hl fun e => hne (e.trans h)).2 h

/-- The clauses of the break cursor (R40). -/
theorem SoundRun.tick_break_cases (h : w.sd.source = .onBreak) :
    (w.sd.cursor = none → w.tick.sd.cursor = none ∧ w.tick.sd.feed = (0, 0) ∧
      w.tick.sd.breakGapOpen = false ∧ w.tick.sd.breakGaps = w.sd.breakGaps) ∧
    ∀ k off, w.sd.cursor = some (k, off) →
      (w.sd.staysOn → w.tick.sd.cursor = some (if off = 255 then ((k + 1) % 65536, 0) else (k, off + 1))) ∧
      (∀ b, w.sd.brkSlot (k % 16) = some b → b.tag = k →
        w.tick.sd.feed = scale w.sd.level (b.frames.getD off (0, 0)) ∧ w.tick.sd.breakGaps = w.sd.breakGaps ∧
        w.tick.sd.breakGapOpen = false) ∧
      ((∀ b, w.sd.brkSlot (k % 16) = some b → b.tag ≠ k) →
        w.tick.sd.feed = (0, 0) ∧ (w.sd.staysOn → w.tick.sd.breakGapOpen = true) ∧
        w.tick.sd.breakGaps = (if w.sd.breakGapOpen = true then w.sd.breakGaps else satInc w.sd.breakGaps)) := by
  obtain ⟨hfeed, hgaps, hstays, hcursor, hopen⟩ := SoundRun.tick_break h
  refine ⟨fun hc => ?_, fun k off hc => ⟨fun hst => ?_, fun b hb ht => ?_, fun hb => ?_⟩⟩
  · rw [Sound.breakTick_unset _ hc] at hfeed hgaps hcursor hopen
    exact ⟨hcursor.elim (·.trans hc) fun hn => hn, hfeed.trans (scale_zero_sample _), or_self_iff.1 hopen, hgaps⟩
  · rw [(hstays hst).1]
    by_cases hb : ∃ b, w.sd.brkSlot (k % 16) = some b ∧ b.tag = k
    · obtain ⟨b, hb, ht⟩ := hb
      rw [Sound.breakTick_held _ hc hb ht]
      rfl
    · rw [Sound.breakTick_missing _ hc fun b hs ht => hb ⟨b, hs, ht⟩]
      rfl
  · rw [Sound.breakTick_held _ hc hb ht] at hfeed hgaps hopen
    exact ⟨hfeed, hgaps, or_self_iff.1 hopen⟩
  · rw [Sound.breakTick_missing _ hc hb] at hfeed hgaps hstays
    exact ⟨hfeed.trans (scale_zero_sample _), fun hst => (hstays hst).2, hgaps⟩

end clauses

/-- Settles O30, by what the source supplies, whether the tick comes to the switch point, and the level. -/
theorem outputTickMovesTheServo : Obligations.OutputTickMovesTheServo := by
  unfold Obligations.OutputTickMovesTheServo
  rintro s sc r a aim hs hr rfl rfl stays hstays
  obtain ⟨t, ht, hsound, hlink, hscreens, hlanes, hyard, hothers⟩ := exec_outputTick s sc hs
  subst hr
  refine ⟨t, ht, ?_⟩
  have hout : (s.soundRun sc).out = [] := rfl
  have hid : (s.soundRun sc).id = sc := rfl
  have hsd : s.sound[sc] = (s.soundRun sc).sd := rfl
  rw [hsound, hlink]
  clear hsound hlink ht
  rw [hsd] at hstays ⊢
  generalize s.soundRun sc = w at *
  obtain ⟨-, hbus, -, -, -, hrate, -, htarget, hprog, hrx, herrors, hlate, hearly, hjumps, hset⟩ := w.tick_keeps
  obtain ⟨hstep, hlevel⟩ := w.tick_level
  have hstay (h : stays) : w.tick.sd.servo = w.sounded.sd.servo ∧ w.tick.out = w.sounded.out ∧
      w.tick.sd.underruns = w.sounded.sd.underruns ∧ w.tick.sd.brk = w.sd.brk := by
    obtain ⟨hv, ho, hu, hb, -⟩ := SoundRun.tick_stays_servo (hstays.1 h)
    exact ⟨hv, ho, hu, hb⟩
  have hkeeps (h : w.sd.staysOn) : w.tick.sd.source = w.sd.source ∧ w.tick.sd.ramp = w.sd.ramp := by
    obtain ⟨-, -, -, -, hsrc, hramp, -⟩ := SoundRun.tick_stays_servo h
    exact ⟨hsrc, hramp⟩
  refine ⟨hbus, hrate, hscreens, hlanes, hyard, hothers, SoundRun.tick_rests, fun h hst => ?moves, SoundRun.tick_silent,
    fun h hsrc hst => ?silent, fun h hsrc => ?other, fun h hsrc hst => ?gap, fun src cause hr hc hl => ?reports,
    htarget, hprog, hrx, herrors, hlate, hearly, hjumps, hset, fun h => (hstay h).2.2.2, fun hc => ?short,
    fun hc => ?wraps, SoundRun.tick_noBreak, fun h => ?onBreak⟩
  case moves =>
    obtain ⟨hup, hdown, hone, hprev⟩ := w.tick_moves_cases h hst _ rfl
    refine ⟨hup, hdown, hone, fun x hx => ⟨hprev.trans hx.symm, fun hs' => ?_⟩⟩
    obtain ⟨hv, -⟩ := w.sounded_moving h hst
    rw [← hprev.trans hx.symm, (hstay hs').1]
    exact hv.trans (by rw [hv])
  case silent =>
    obtain ⟨hv, ho, -⟩ := w.sounded_silent hsrc hst
    rw [(hstay h).1, (hstay h).2.1, ho, hout]
    exact ⟨hv, rfl⟩
  case other =>
    obtain ⟨hv, ho⟩ := w.sounded_other hsrc
    rw [(hstay h).1, (hstay h).2.1, ho, hout]
    exact ⟨hv, rfl⟩
  case gap =>
    obtain ⟨hv, ho, hu, -⟩ := hstay h
    obtain ⟨-, -, hmissing, hfound⟩ := w.sounded_moving hsrc hst
    rw [hv, ho, hu]
    refine ⟨fun hx => ?_, fun x hx => ?_⟩
    · obtain ⟨hcount, hrs, hopen, hlonger⟩ := hmissing hx
      exact ⟨hcount, by rw [hrs, hout], hopen, hlonger⟩
    · obtain ⟨hnone, hclosed, hcloses⟩ := hfound x hx
      refine ⟨hnone, fun hg => ?_, fun start n hg => ?_⟩
      · obtain ⟨hcount, hrs⟩ := hclosed hg
        exact ⟨hcount, by rw [hrs, hout]⟩
      · obtain ⟨hcount, hrs⟩ := hcloses start n hg
        exact ⟨hcount, by rw [hrs, hout, hid]; rfl⟩
  case reports =>
    obtain ⟨pre, post, ho, hq⟩ := SoundRun.tick_switch_reports hr hc hl
    rw [hid] at ho hq
    exact ⟨pre, post, by rw [ho, hout]; rfl, hq⟩
  case short =>
    obtain ⟨hsrc, hramp⟩ := hkeeps (.inr (.inl hc))
    exact ⟨hstep.trans (if_pos hc), hlevel.trans (if_pos hc), hsrc, hramp⟩
  case wraps =>
    refine ⟨hstep.trans (if_neg (Nat.not_lt.2 hc)), hlevel.trans (if_neg (Nat.not_lt.2 hc)), fun hr => ?_,
      fun src cause hr => ⟨fun hl => hkeeps (.inr (.inr hl)), fun hl => w.tick_switch_cases hr hc hl⟩⟩
    obtain ⟨hsrc, hramp⟩ := hkeeps (.inl hr)
    exact ⟨hsrc, hramp.trans hr⟩
  case onBreak =>
    obtain ⟨hunset, hset⟩ := w.tick_break_cases h
    refine ⟨hunset, fun k off hc => ?_⟩
    obtain ⟨hnext, hheld, hmissing⟩ := hset k off hc
    refine ⟨fun hs' => hnext (hstays.1 hs'), hheld, fun hb => ?_⟩
    obtain ⟨hfeed, hopen, hgaps⟩ := hmissing hb
    exact ⟨hfeed, fun hs' => hopen (hstays.1 hs'), hgaps⟩

end Sys2Proof.Machine
end

section
/-! PROOF. The rules of a loop's record in the yard, and the start of its transactions (R65, R66, R73, R74). -/

namespace Sys2Proof.Machine

/-! ## A yard that differs by one loop's record and the reports raised -/

/-- A yard with one loop's record in place of its own, that has raised some reports more. -/
def Yard.told (y : Yard) (lp : ScreenId) (l : LoopRec) (rs : List Report) : Yard :=
  { y with loops := y.loops.set lp l, raised := y.raised ++ rs }

section told
variable (y : Yard) (lp : ScreenId) (l : LoopRec) (rs : List Report)

theorem Yard.told_same : y.told lp y.loops[lp] [] = y := by
  simp [Yard.told]

theorem Yard.modLoop_told (f : LoopRec → LoopRec) : y.modLoop lp f = y.told lp (f y.loops[lp]) [] := by
  simp [Yard.told, Yard.modLoop]

theorem Yard.raise_told (r : Report) : y.raise r = y.told lp y.loops[lp] [r] := by
  simp [Yard.told, Yard.raise]

theorem Yard.told_loop : (y.told lp l rs).loops[lp] = l := by
  simp [Yard.told]

theorem Yard.told_told (l' : LoopRec) (rs' : List Report) :
    (y.told lp l rs).told lp l' rs' = y.told lp l' (rs ++ rs') := by
  simp [Yard.told, List.append_assoc]

theorem Yard.told_modLoop (f : LoopRec → LoopRec) : (y.told lp l rs).modLoop lp f = y.told lp (f l) rs := by
  rw [Yard.modLoop_told, Yard.told_told, Yard.told_loop, List.append_nil]

theorem Yard.told_raise (r : Report) : (y.told lp l rs).raise r = y.told lp l (rs ++ [r]) := by
  rw [Yard.raise_told _ lp, Yard.told_told, Yard.told_loop]

theorem Yard.told_store : (y.told lp l rs).store = y.store := rfl

end told

/-! ## An event that reaches one loop -/

section event
variable {s : State} {lp : ScreenId} {l : LoopRec} {rs : List Report}

/-- The end of a step that has changed one loop's record and raised some reports. -/
theorem State.finish_told (hs : s.settled) (lp : ScreenId) (l : LoopRec) (rs : List Report) :
    ({ s with yard := s.yard.told lp l rs } : State).finish = (s.withLoop lp l).reported rs :=
  State.finish_raiseAll (s.withLoop lp l) rs hs

theorem event_loop {f : State → Yard → Yard} (hs : s.settled) (hf : f s s.yard = s.yard.told lp l rs) :
    event (fun s => s.onYard (f s)) s = .next ((s.withLoop lp l).reported rs) := by
  rw [event_next, State.onYard, hf, State.finish_told hs]

theorem event_yard_same {f : State → Yard → Yard} (hs : s.settled) (hf : f s s.yard = s.yard) :
    event (fun s => s.onYard (f s)) s = .next (s.reported []) := by
  rw [event_next, State.onYard, hf]
  exact congrArg _ (State.finish_settled s hs)

theorem event_onLoop {f : LoopRec → LoopRec} (hs : s.settled) (hf : f s.yard.loops[lp] = l) :
    event (fun s => s.onLoop lp f) s = .next ((s.withLoop lp l).reported []) :=
  event_loop (f := fun _ y => y.modLoop lp f) hs (by rw [Yard.modLoop_told, hf])

theorem event_onLoop_same {f : LoopRec → LoopRec} (hs : s.settled) (hf : f s.yard.loops[lp] = s.yard.loops[lp]) :
    event (fun s => s.onLoop lp f) s = .next (s.reported []) := by
  rw [event_onLoop hs hf, State.withLoop_same]

end event

/-! ## The best of a list of slots -/

section pick
variable {ι : Type} (hit : ι → Bool) (better : ι → ι → Bool)

/-- One step of the search for the best hit. -/
def pickBest (best : Option ι) (i : ι) : Option ι :=
  if hit i then
    match best with
    | none => some i
    | some j => if better i j then some i else some j
  else best

theorem pickBest_miss {best : Option ι} {i : ι} (h : hit i = false) : pickBest hit better best i = best :=
  if_neg (by rw [h]; decide)

theorem foldl_pickBest_none {list : List ι} (h : ∀ i ∈ list, hit i = false) (best : Option ι) :
    list.foldl (pickBest hit better) best = best := by
  induction list generalizing best with
  | nil => rfl
  | cons i list ih =>
    rw [List.foldl_cons, pickBest_miss hit better (h i List.mem_cons_self)]
    exact ih (fun j hj => h j (List.mem_cons_of_mem _ hj)) best

/-- A hit that is better than every other hit is found. -/
theorem foldl_pickBest [DecidableEq ι] {i : ι} (hi : hit i = true)
    (hbest : ∀ j, j ≠ i → hit j = true → better i j = true ∧ better j i = false) {list : List ι} {best : Option ι}
    (hb : ∀ j, best = some j → hit j = true) (hmem : i ∈ list ∨ best = some i) :
    list.foldl (pickBest hit better) best = some i := by
  induction list generalizing best with
  | nil => exact hmem.resolve_left List.not_mem_nil
  | cons k list ih =>
    rw [List.foldl_cons]
    by_cases hk : hit k = true
    · by_cases hki : k = i
      · subst hki
        refine ih (best := pickBest hit better best k) ?_ (.inr ?_)
        all_goals unfold pickBest; rw [if_pos hk]
        · cases best with
          | none => rintro j ⟨⟩; exact hk
          | some b =>
            dsimp only
            split
            · rintro j ⟨⟩; exact hk
            · exact hb
        · cases best with
          | none => rfl
          | some b =>
            by_cases hbk : b = k
            · subst hbk
              dsimp only
              split <;> rfl
            · simp only [(hbest b hbk (hb b rfl)).1, if_true]
      · refine ih (best := pickBest hit better best k) ?_ ?_
        all_goals unfold pickBest; rw [if_pos hk]
        · cases best with
          | none => rintro j ⟨⟩; exact hk
          | some b =>
            dsimp only
            split
            · rintro j ⟨⟩; exact hk
            · exact hb
        · rcases hmem with hmem | rfl
          · exact .inl ((List.mem_cons.1 hmem).resolve_left (Ne.symm hki))
          · simp only [(hbest k hki hk).2]
            exact .inr rfl
    · rw [pickBest_miss hit better (Bool.eq_false_iff.2 hk)]
      refine ih hb (hmem.imp_left fun hmem => (List.mem_cons.1 hmem).resolve_left ?_)
      rintro rfl
      exact hk hi

end pick

theorem mem_slotNumbers (i : Fin 16) : i ∈ slotNumbers := by
  revert i
  decide

/-! ## Which slot and which post (R73, R74) -/

section choose
variable {l : LoopRec}

theorem LoopRec.sendSlot?_eq (l : LoopRec) : l.sendSlot? = slotNumbers.foldl
    (pickBest (fun i => decide ((l.slots[i]).use = .pending)) fun i j => (l.slots[i]).before l.slots[j]) none := by
  unfold LoopRec.sendSlot?
  congr 1
  funext best i
  unfold pickBest
  by_cases h : (l.slots[i]).use = .pending
  · simp only [h, if_true, decide_true]
    cases best <;> rfl
  · simp only [h, if_false, decide_false]
    rfl

theorem LoopRec.sendSlot?_none (h : ∀ i : Fin 16, (l.slots[i]).use ≠ .pending) : l.sendSlot? = none := by
  rw [LoopRec.sendSlot?_eq]
  exact foldl_pickBest_none _ _ (fun i _ => decide_eq_false (h i)) none

theorem LoopRec.sendSlot?_best {i : Fin 16} (hi : (l.slots[i]).use = .pending)
    (hbest : ∀ j : Fin 16, j ≠ i → (l.slots[j]).use = .pending → (l.slots[j]).prio < (l.slots[i]).prio ∨
      (l.slots[j]).prio = (l.slots[i]).prio ∧ (l.slots[i]).age < (l.slots[j]).age) : l.sendSlot? = some i := by
  rw [LoopRec.sendSlot?_eq]
  refine foldl_pickBest (best := none) (fun i => decide ((l.slots[i]).use = .pending)) (fun i j => (l.slots[i]).before l.slots[j])
    (decide_eq_true hi) (fun j hj hu => ?_) (fun j hj => by cases hj) (.inl (mem_slotNumbers i))
  have := hbest j hj (of_decide_eq_true hu)
  simp only [OutSlot.before, Bool.or_eq_true, Bool.and_eq_true, decide_eq_true_eq, Bool.or_eq_false_iff,
    Bool.and_eq_false_iff, decide_eq_false_iff_not]
  omega

theorem firstFrom_none {q : Nat → Bool} {n i : Nat} (h : ∀ k, i ≤ k → k < i + n → q k = false) :
    firstFrom q n i = none := by
  induction n generalizing i with
  | zero => rfl
  | succ n ih =>
    rw [firstFrom, h i (Nat.le_refl i) (by omega)]
    exact ih fun k hk hk' => h k (by omega) (by omega)

theorem firstFrom_first {q : Nat → Bool} {n i p : Nat} (hp : q p = true) (hi : i ≤ p) (hn : p < i + n)
    (h : ∀ k, i ≤ k → k < p → q k = false) : firstFrom q n i = some p := by
  induction n generalizing i with
  | zero => omega
  | succ n ih =>
    rw [firstFrom]
    by_cases hip : i = p
    · rw [hip, hp]
      rfl
    · rw [h i (Nat.le_refl i) (by omega)]
      exact ih (by omega) (by omega) fun k hk hk' => h k (by omega) hk'

/-- Whether the polling round passes a post by. -/
def Post.passed (e : Post) : Prop :=
  e.present = false ∨ e.conf = .dropped

theorem LoopRec.pollSearch_passed {n p : Nat} (h : (l.post p).passed) :
    LoopRec.pollSearch (n + 1) p l = LoopRec.pollSearch n ((p + 1) % 128) l := by
  rcases h with h | h <;> simp [LoopRec.pollSearch, h]

theorem LoopRec.pollSearch_heard {n p : Nat} (h : (l.post p).present = true) (hc : (l.post p).conf = .heard) :
    LoopRec.pollSearch (n + 1) p l = (some p, l) := by
  simp [LoopRec.pollSearch, h, hc]

theorem LoopRec.pollSearch_fourth {n p : Nat} (h : (l.post p).present = true) (hc : (l.post p).conf = .doubtful)
    (ht : (l.post p).turn = 3) :
    LoopRec.pollSearch (n + 1) p l = (some p, l.setPost p { l.post p with turn := 0 }) := by
  simp [LoopRec.pollSearch, h, hc, ht]

theorem LoopRec.pollSearch_turn {n p : Nat} (h : (l.post p).present = true) (hc : (l.post p).conf = .doubtful)
    (ht : (l.post p).turn ≠ 3) : LoopRec.pollSearch (n + 1) p l =
      LoopRec.pollSearch n ((p + 1) % 128) (l.setPost p { l.post p with turn := (l.post p).turn + 1 }) := by
  simp [LoopRec.pollSearch, h, hc, ht]

/-- The first HEARD post of the round, past posts that are passed by. -/
theorem LoopRec.pollSearch_first {n d c : Nat} (hd : d < n) (hp : (l.post ((c + d) % 128)).present = true)
    (hc : (l.post ((c + d) % 128)).conf = .heard) (hpass : ∀ k, k < d → (l.post ((c + k) % 128)).passed) (hc' : c < 128) :
    LoopRec.pollSearch n c l = (some ((c + d) % 128), l) := by
  induction d generalizing n c with
  | zero =>
    obtain ⟨m, rfl⟩ := Nat.exists_eq_succ_of_ne_zero (Nat.ne_of_gt hd)
    rw [Nat.add_zero, Nat.mod_eq_of_lt hc'] at hp hc ⊢
    exact LoopRec.pollSearch_heard hp hc
  | succ d ih =>
    obtain ⟨m, rfl⟩ := Nat.exists_eq_succ_of_ne_zero (Nat.ne_of_gt (Nat.lt_of_le_of_lt (Nat.zero_le _) hd))
    have hfirst := hpass 0 (Nat.succ_pos d)
    rw [Nat.add_zero, Nat.mod_eq_of_lt hc'] at hfirst
    have hnext (k : Nat) : ((c + 1) % 128 + k) % 128 = (c + (k + 1)) % 128 := by omega
    rw [LoopRec.pollSearch_passed hfirst, ← hnext d]
    rw [← hnext d] at hp hc
    exact ih (by omega) hp hc (fun k hk => by rw [hnext k]; exact hpass (k + 1) (by omega)) (Nat.mod_lt _ (by decide))

theorem LoopRec.pollSearch_none {n c : Nat} (hc : c < 128) (h : ∀ q, q < 128 → (l.post q).passed) :
    LoopRec.pollSearch n c l = (none, l) := by
  induction n generalizing c with
  | zero => rfl
  | succ n ih =>
    rw [LoopRec.pollSearch_passed (h c hc)]
    exact ih (Nat.mod_lt _ (by decide))

end choose

/-! ## The start of a transaction -/

section start
variable {l : LoopRec}

theorem LoopRec.start_idle (h : l.owner ≠ .polling ∨ l.current.isSome = true) : l.start = l := by
  refine if_neg fun hc => ?_
  obtain ⟨ho, hn⟩ := hc
  rcases h with h | h
  · exact h ho
  · rw [Option.isNone_iff_eq_none] at hn
    rw [hn] at h
    cases h

theorem LoopRec.start_chooses (ho : l.owner = .polling) (hn : l.current = none) : l.start = l.choose :=
  if_pos ⟨ho, by rw [hn]; rfl⟩

theorem LoopRec.choose_repeat {r : RepeatDue} (hr : l.repeatDue = some r) : l.choose = { l with
    repeatDue := none
    current := some { post := r.post, fn := r.fn, slot := r.slot, waits := 0, agains := r.agains, header := r.header,
                      window := .sending } } := by
  simp only [LoopRec.choose, hr]

theorem LoopRec.choose_probe {p : Nat} (hr : l.repeatDue = none) (hp : l.probeDuePost = some p) :
    l.choose = (l.setPost p { l.post p with probeDue := false }).startPost p .probe := by
  simp only [LoopRec.choose, hr, hp]

theorem LoopRec.choose_send {i : Fin 16} (hr : l.repeatDue = none) (hp : l.probeDuePost = none)
    (hi : l.sendSlot? = some i) (hrun : l.sendRun < 4) : l.choose = l.startSend i := by
  simp only [LoopRec.choose, hr, hp, hi, hrun, if_true]

theorem LoopRec.choose_poll (hr : l.repeatDue = none) (hp : l.probeDuePost = none)
    (hi : l.sendSlot? = none ∨ 4 ≤ l.sendRun) : l.choose = l.startPoll := by
  cases hs : l.sendSlot? with
  | none => simp only [LoopRec.choose, hr, hp, hs]
  | some i =>
    have hrun : ¬l.sendRun < 4 := Nat.not_lt.2 (hi.resolve_left (by rw [hs]; simp))
    simp only [LoopRec.choose, hr, hp, hs, hrun, if_false]

theorem LoopRec.startPoll_found {p : Nat} {l' : LoopRec} (h : LoopRec.pollSearch 512 l.cursor l = (some p, l')) :
    l.startPoll = { l' with cursor := (p + 1) % 128 }.startPost p .poll := by
  simp only [LoopRec.startPoll, h]

theorem LoopRec.startPoll_none {i : Fin 16} (h : LoopRec.pollSearch 512 l.cursor l = (none, l))
    (hi : l.sendSlot? = some i) : l.startPoll = l.startSend i := by
  simp only [LoopRec.startPoll, h, hi]

theorem LoopRec.startPoll_nothing (h : LoopRec.pollSearch 512 l.cursor l = (none, l)) (hi : l.sendSlot? = none) :
    l.startPoll = l := by
  simp only [LoopRec.startPoll, h, hi]

theorem LoopRec.probeDuePost_none (h : ∀ q, q < 128 → (l.post q).probeDue = false) : l.probeDuePost = none :=
  firstFrom_none fun k _ hk => h k (by omega)

theorem LoopRec.probeDuePost_first {p : Nat} (hp : p < 128) (hd : (l.post p).probeDue = true)
    (h : ∀ q, q < p → (l.post q).probeDue = false) : l.probeDuePost = some p :=
  firstFrom_first hd (Nat.zero_le p) (by omega) fun k _ hk => h k hk

theorem Post.ack_congr {e e' : Post} (h : e.lastSeq = e'.lastSeq) : e.ack = e'.ack := by
  unfold Post.ack
  rw [h]

theorem LoopRec.startPost_eq {p : Nat} {fn : LoopFn} {e : Post} (h : (l.post p).lastSeq = e.lastSeq) :
    l.startPost p fn = { l with
      current := some { post := p, fn := fn, slot := none, waits := 0, agains := 0,
                        header := headerBytes p fn e.ack [], window := .sending }
      sendRun := 0 } := by
  rw [← Post.ack_congr h]
  rfl

/-- The POLL of the post the search has found, whose last accepted sequence the search has left. -/
theorem LoopRec.startPoll_polls {p : Nat} {l' : LoopRec} {e : Post}
    (h : LoopRec.pollSearch 512 l.cursor l = (some p, l')) (hseq : (l'.post p).lastSeq = e.lastSeq) :
    l.startPoll = { l' with
      cursor := (p + 1) % 128
      current := some { post := p, fn := .poll, slot := none, waits := 0, agains := 0,
                        header := headerBytes p .poll e.ack [], window := .sending }
      sendRun := 0 } :=
  (LoopRec.startPoll_found h).trans (LoopRec.startPost_eq (l := { l' with cursor := (p + 1) % 128 }) hseq)

end start

/-- Settles O34, by the choice point's order: the repeat, the probe, the SEND, and the polling round. -/
theorem loopTransactionsStart : Obligations.LoopTransactionsStart := by
  unfold Obligations.LoopTransactionsStart
  rintro s lp l hs rfl hcanon
  have hposts : Tab.wf Post.reset s.yard.loops[lp].posts = true := (Bool.and_eq_true _ _ ▸ hcanon).1
  generalize hl : s.yard.loops[lp] = l at *
  have hstart {l' : LoopRec} (ho : l.owner = .polling) (hn : l.current = none) (h : l.choose = l') :
      exec (.transactionStart lp) s = .next ((s.withLoop lp l').reported []) :=
    event_onLoop hs (by rw [hl, LoopRec.start_chooses ho hn, h])
  have hpoll (hr : l.repeatDue = none) (hd : ∀ q, q < 128 → (l.post q).probeDue = false)
      (hnone : (∀ i : Fin 16, (l.slots[i]).use ≠ .pending) ∨ 4 ≤ l.sendRun) : l.choose = l.startPoll :=
    LoopRec.choose_poll hr (LoopRec.probeDuePost_none hd) (hnone.imp_left LoopRec.sendSlot?_none)
  refine ⟨fun h => ?idle, fun ho hn r hr => ?again, fun ho hn hr p hp hd hfirst => ?probe,
    fun ho hn hr hd hrun i hi hbest => ?send, fun ho hn hr hd hnone hpres hconf => ?poll,
    fun ho hn hr hd hnone hcur => ⟨fun d p hd' hp hpres hconf hpass => ?round, fun hpres hconf hturn => ?fourth,
      fun hpres hconf hturn p hp hpres' hconf' => ?turn, fun hslots hpass => ?nothing⟩,
    fun t left ht hw hleft => ?sent, fun hn => ?unsent⟩
  case idle => exact event_onLoop_same hs (by rw [hl]; exact LoopRec.start_idle h)
  case again => exact hstart ho hn (LoopRec.choose_repeat hr)
  case probe =>
    exact hstart ho hn ((LoopRec.choose_probe hr (LoopRec.probeDuePost_first hp hd hfirst)).trans
      (LoopRec.startPost_eq ((congrArg Post.lastSeq (LoopRec.post_setPost _ hposts p _)).trans rfl)))
  case send =>
    have hprobe := LoopRec.probeDuePost_none hd
    have hslot := LoopRec.sendSlot?_best hi hbest
    refine hstart ho hn (.trans ?_ rfl) (l' := l.startSend i)
    by_cases hlt : l.sendRun < 4
    · exact LoopRec.choose_send hr hprobe hslot hlt
    · obtain ⟨hcur, hpass⟩ := hrun.resolve_left hlt
      rw [LoopRec.choose_poll hr hprobe (.inr (Nat.not_lt.1 hlt)),
        LoopRec.startPoll_none (LoopRec.pollSearch_none hcur hpass) hslot]
  case poll =>
    exact hstart ho hn ((hpoll hr hd hnone).trans
      (LoopRec.startPoll_polls (LoopRec.pollSearch_heard hpres hconf) rfl))
  case round =>
    subst hp
    exact hstart ho hn ((hpoll hr hd hnone).trans
      (LoopRec.startPoll_polls (LoopRec.pollSearch_first (by omega) hpres hconf hpass hcur) rfl))
  case fourth =>
    exact hstart ho hn ((hpoll hr hd hnone).trans (LoopRec.startPoll_polls (LoopRec.pollSearch_fourth hpres hconf hturn)
      ((congrArg Post.lastSeq (LoopRec.post_setPost l hposts l.cursor _)).trans rfl)))
  case turn =>
    have hget := LoopRec.post_setPost_other l l.cursor p { l.post l.cursor with turn := (l.post l.cursor).turn + 1 }
      (by omega)
    have hfound := LoopRec.pollSearch_turn (n := 511) hpres hconf hturn
    rw [← hp] at hfound
    replace hfound := hfound.trans (LoopRec.pollSearch_heard (n := 510) (p := p) (by rw [hget]; exact hpres')
      (by rw [hget]; exact hconf'))
    exact hstart ho hn ((hpoll hr hd hnone).trans (LoopRec.startPoll_polls hfound (congrArg Post.lastSeq hget)))
  case nothing =>
    have hslot := LoopRec.sendSlot?_none hslots
    rw [hstart ho hn ((hpoll hr hd (.inl hslots)).trans
      (LoopRec.startPoll_nothing (LoopRec.pollSearch_none hcur hpass) hslot)), ← hl, State.withLoop_same]
  case sent =>
    refine event_onLoop hs ?_
    simp only [hl, LoopRec.openWindow, ht, hw, if_true, hleft]
  case unsent =>
    refine event_onLoop_same hs ?_
    simp only [hl, LoopRec.openWindow, hn]

end Sys2Proof.Machine
end

section
/-! PROOF. The end of a loop's transactions (R66 to R71, R77). -/

namespace Sys2Proof.Machine

/-! ## The parts of a transaction's end -/

/-- The slot's outcome and the loop's error count at the end of a transaction (R69, R77). -/
def Yard.ended (y : Yard) (lp : ScreenId) (t : Transaction) (e : Ending) : Yard :=
  let y := y.modLoop lp fun l => { l with current := none }
  let y : Yard := match t.slot with
    | some i => y.sendOutcome lp i e
    | none => y
  match e with
  | .good => y
  | .error => y.modLoop lp fun l => { l with errors := satInc l.errors }

/-- The outcome on the post at the end of a transaction (R69 to R71). -/
def Yard.judged (y : Yard) (lp : ScreenId) (t : Transaction) (e : Ending) : Yard :=
  if t.fn = .probe ∧ ((y.loops[lp]).post t.post).present ∧ ((y.loops[lp]).post t.post).conf = .dropped then
    y.probeOutcome lp t.post e
  else y.countOutcome lp t.post e

section parts
variable (y : Yard) (site : Site) (lp : ScreenId) (t : Transaction)

theorem Yard.endTransaction_eq (e : Ending) (record : List Byte) : y.endTransaction site lp t e record =
    (((y.ended lp t e).judged lp t e).takeRecord site lp t.post record).grantLoan lp := rfl

theorem Yard.takeRecord_nil (post : Nat) : y.takeRecord site lp post [] = y := rfl

theorem Yard.grantLoan_elsewhere (h : (y.loops[lp]).owner ≠ .yielding) : y.grantLoan lp = y :=
  if_neg fun hc => h hc.1

theorem Yard.grantLoan_raised {l : LoopRec} (rs : List Report) (h : l.owner = .yielding) (hn : l.current = none) :
    (y.told lp l rs).grantLoan lp =
      y.told lp { l with owner := .lent, grant := true, lendTimer := loadSeconds l.lendSetting } (rs ++ [.lendStart lp]) := by
  unfold Yard.grantLoan
  rw [Yard.told_loop, if_pos ⟨h, by rw [hn]; rfl⟩, Yard.told_modLoop, Yard.told_raise]

/-! ## A transaction without a slot -/

theorem Yard.ended_good (h : t.slot = none) :
    y.ended lp t .good = y.told lp { y.loops[lp] with current := none } [] := by
  unfold Yard.ended
  rw [h, Yard.modLoop_told]

theorem Yard.ended_error (h : t.slot = none) : y.ended lp t .error =
    y.told lp { y.loops[lp] with current := none, errors := satInc y.loops[lp].errors } [] := by
  unfold Yard.ended
  rw [h]
  simp only [Yard.modLoop_told y, Yard.told_modLoop]

/-! ## The count of a post (R69, R70) -/

/-- The error count of a post after an ending. -/
def Post.counted (p : Post) : Ending → Nat
  | .good => p.errors - 1
  | .error => min (p.errors + 8) 255

/-- A PRESENT post with its error count at a new value (R69, R70). -/
def Yard.charged (y : Yard) (lp : ScreenId) (post : Nat) (p : Post) (n : Nat) : Yard :=
  let conf := confinementOf p.conf n
  let newly := decide (p.conf ≠ .dropped) && decide (conf = .dropped)
  let y := y.modLoop lp fun l => l.setPost post { p with
    errors := n, conf := conf, recovery := if newly then some recoveryTime else p.recovery }
  let y := if p.conf ≠ conf then y.raise (.postState lp post p.conf conf n) else y
  if newly then y.dropSlots lp post else y

theorem Yard.countOutcome_eq (post : Nat) (e : Ending) : y.countOutcome lp post e =
    if ((y.loops[lp]).post post).present then
      y.charged lp post ((y.loops[lp]).post post) (((y.loops[lp]).post post).counted e)
    else y := by
  cases e <;> rfl

variable {y lp t}

theorem Yard.judged_count {l : LoopRec} {rs : List Report} {e : Ending}
    (h : t.fn ≠ .probe ∨ (l.post t.post).conf ≠ .dropped) :
    (y.told lp l rs).judged lp t e = (y.told lp l rs).countOutcome lp t.post e := by
  refine if_neg ?_
  rw [Yard.told_loop]
  exact fun hc => h.elim (· hc.1) (· hc.2.2)

theorem confinementOf_below {c : Confinement} {n : Nat} (hc : c ≠ .dropped) (hn : n < 192) :
    confinementOf c n = if 96 ≤ n then .doubtful else .heard := by
  cases c with
  | dropped => exact absurd rfl hc
  | heard => simp only [confinementOf, Nat.not_le.2 hn, if_false]
  | doubtful =>
    simp only [confinementOf, Nat.not_le.2 hn, if_false]
    by_cases h : 96 ≤ n
    · rw [if_pos h, if_neg (Nat.not_lt.2 h)]
    · rw [if_neg h, if_pos (Nat.not_le.1 h)]

theorem confinementOf_above {c : Confinement} {n : Nat} (hn : 192 ≤ n) : confinementOf c n = .dropped := by
  cases c <;> simp only [confinementOf, hn, if_true]

/-- A post of a round whose count stays short of the drop. -/
theorem Yard.countOutcome_stays {l : LoopRec} {rs : List Report} {post : Nat} {e : Ending} {p : Post}
    (hp : l.post post = p) (hpres : p.present = true) (hconf : p.conf ≠ .dropped) (hn : p.counted e < 192) :
    ∀ conf, conf = (if 96 ≤ p.counted e then Confinement.doubtful else .heard) →
    (y.told lp l rs).countOutcome lp post e = y.told lp (l.setPost post { p with errors := p.counted e, conf := conf })
      (rs ++ if p.conf = conf then [] else [.postState lp post p.conf conf (p.counted e)]) := by
  rintro conf rfl
  have hc := confinementOf_below hconf hn
  have hne : (if 96 ≤ p.counted e then Confinement.doubtful else .heard) ≠ .dropped := by split <;> decide
  generalize (if 96 ≤ p.counted e then Confinement.doubtful else .heard) = conf at hc hne ⊢
  rw [Yard.countOutcome_eq, Yard.told_loop, hp, if_pos hpres, Yard.charged]
  simp only [hc, hne, decide_false, Bool.and_false, Bool.false_eq_true, if_false, Yard.told_modLoop]
  by_cases h : p.conf = conf
  · simp only [h, ne_eq, not_true_eq_false, if_false, if_true, List.append_nil]
  · simp only [h, ne_eq, not_false_eq_true, if_false, if_true, Yard.told_raise]

theorem Yard.dropSlots_none {l : LoopRec} {rs : List Report} {post : Nat}
    (h : ∀ i : Fin 16, ¬((l.slots[i]).use = .pending ∧ (l.slots[i]).post = post)) :
    (y.told lp l rs).dropSlots lp post = y.told lp l rs := by
  have key (list : List (Fin 16)) : list.foldl (fun y i =>
      let sl := (y.loops[lp]).slots[i]
      if sl.use = .pending ∧ sl.post = post then (y.completeUndelivered lp i).afterFree Yard.drain lp else y)
      (y.told lp l rs) = y.told lp l rs := by
    induction list with
    | nil => rfl
    | cons i list ih =>
      rw [List.foldl_cons]
      simp only [Yard.told_loop, h i, if_false]
      exact ih
  exact key slotNumbers

/-- A post that is dropped, with no PENDING slot. -/
theorem Yard.countOutcome_drops {l : LoopRec} {rs : List Report} {post : Nat} {p : Post}
    (hp : l.post post = p) (hpres : p.present = true) (hconf : p.conf ≠ .dropped) (hn : 192 ≤ p.errors + 8)
    (hslots : ∀ i : Fin 16, ¬((l.slots[i]).use = .pending ∧ (l.slots[i]).post = post)) :
    (y.told lp l rs).countOutcome lp post .error = y.told lp
      (l.setPost post { p with errors := min (p.errors + 8) 255, conf := .dropped, recovery := some 10000 })
      (rs ++ [.postState lp post p.conf .dropped (min (p.errors + 8) 255)]) := by
  have hc : confinementOf p.conf (satAdd255 8 p.errors) = .dropped := confinementOf_above (by unfold satAdd255; omega)
  unfold Yard.countOutcome
  simp only [Yard.told_loop, hp, hpres, if_true, hc, hconf, ne_eq, not_false_eq_true, decide_true, Bool.and_self,
    Yard.told_modLoop, Yard.told_raise]
  exact Yard.dropSlots_none hslots

/-! ## A SEND (R77) -/

/-- A good SEND of a slot frees it and writes the post's entry. -/
theorem Yard.ended_sent {i : Fin 16} {sl : OutSlot} (h : t.slot = some i) (hsl : (y.loops[lp]).slots[i] = sl)
    (hover : (y.loops[lp]).overflow = false) : y.ended lp t .good =
      y.told lp { y.loops[lp] with
        current := none
        posts := Tab.put Post.reset y.loops[lp].posts sl.post (((y.loops[lp]).post sl.post).deliver sl)
        slots := y.loops[lp].slots.set i OutSlot.empty }
      (if sl.origin = .host then [.sendDone lp i] else []) := by
  unfold Yard.ended Yard.sendOutcome
  rw [h]
  simp only [Yard.modLoop_told y, Yard.told_modLoop, Yard.told_loop, hsl]
  have hfree (rs : List Report) (l : LoopRec) (ho : l.overflow = false) :
      (y.told lp l rs).afterFree Yard.drain lp = y.told lp l rs := by
    refine if_neg ?_
    rw [Yard.told_loop, ho]
    decide
  split
  · rw [Yard.told_raise, hfree _ _ (by exact hover)]
    rfl
  · rw [hfree _ _ (by exact hover)]
    rfl

/-- A SEND that has not gone through is set to be sent again. -/
theorem Yard.ended_retried {i : Fin 16} {sl : OutSlot} (h : t.slot = some i) (hsl : (y.loops[lp]).slots[i] = sl)
    (hpres : ((y.loops[lp]).post sl.post).present = true) (hf : sl.fails < 2) : y.ended lp t .error =
      y.told lp { y.loops[lp] with
        current := none, errors := satInc y.loops[lp].errors
        slots := y.loops[lp].slots.set i { sl with use := .pending, fails := sl.fails + 1 } } [] := by
  unfold Yard.ended Yard.sendOutcome
  rw [h]
  simp only [Yard.modLoop_told y, Yard.told_modLoop, Yard.told_loop, hsl]
  have hpres' : (LoopRec.post { y.loops[lp] with current := none } sl.post).present = true := hpres
  simp only [hpres', Nat.not_le.2 hf, Bool.not_true, decide_false, Bool.or_false, Bool.false_eq_true, if_false,
    Yard.told_modLoop]
  rfl

/-- The third time a SEND has not gone through, it is completed UNDELIVERED. -/
theorem Yard.ended_undelivered {i : Fin 16} {sl : OutSlot} (h : t.slot = some i) (hsl : (y.loops[lp]).slots[i] = sl)
    (hover : (y.loops[lp]).overflow = false) (hf : 2 ≤ sl.fails) : y.ended lp t .error =
      y.told lp { y.loops[lp] with
        current := none, errors := satInc y.loops[lp].errors, undelivered := satInc y.loops[lp].undelivered
        slots := y.loops[lp].slots.set i OutSlot.empty }
      [.sendUndelivered lp sl.post sl.kind sl.v0 sl.v1 sl.origin] := by
  unfold Yard.ended Yard.sendOutcome
  rw [h]
  simp only [Yard.modLoop_told y, Yard.told_modLoop, Yard.told_loop, hsl, hf, decide_true, Bool.or_true, if_true,
    Yard.completeUndelivered, Yard.told_raise]
  rw [Yard.afterFree, if_neg]
  · simp only [Yard.told_modLoop]
    rfl
  · rw [Yard.told_loop]
    exact fun hc => Bool.false_ne_true (hover.symm.trans hc)

end parts

end Sys2Proof.Machine
end

section
/-! PROOF. The outbound slots: an item placed, coalesced or dropped, and the requests of a loop (R75, R76, R78, R79, R83,
R87). -/

namespace Sys2Proof.Machine

/-! ## The lowest FREE slot -/

theorem slotNumbers_split (i : Fin 16) : slotNumbers = slotNumbers.take i ++ i :: slotNumbers.drop (i + 1) ∧
    ∀ j ∈ slotNumbers.take i, j < i := by
  revert i
  decide

section free
variable {l : LoopRec}

theorem LoopRec.freeSlot?_first {i : Fin 16} (hi : (l.slots[i]).use = .free)
    (hlow : ∀ j : Fin 16, j < i → (l.slots[j]).use ≠ .free) : l.freeSlot? = some i := by
  obtain ⟨hsplit, hpre⟩ := slotNumbers_split i
  unfold LoopRec.freeSlot?
  rw [hsplit, List.find?_append, List.find?_eq_none.2 fun j hj => by
    rw [decide_eq_true_iff]
    exact hlow j (hpre j hj)]
  exact List.find?_cons_of_pos (p := fun i : Fin 16 => decide ((l.slots[i]).use = .free)) (decide_eq_true hi)

theorem LoopRec.freeSlot?_none (h : ∀ j : Fin 16, (l.slots[j]).use ≠ .free) : l.freeSlot? = none :=
  List.find?_eq_none.2 fun j _ => by
    rw [decide_eq_true_iff]
    exact h j

theorem LoopRec.freeSlot?_free {i : Fin 16} (h : l.freeSlot? = some i) : (l.slots[i]).use = .free :=
  of_decide_eq_true (List.find?_some (p := fun i : Fin 16 => decide ((l.slots[i]).use = .free)) h)

theorem LoopRec.freeSlot?_isSome {i : Fin 16} (h : (l.slots[i]).use = .free) : ∃ j, l.freeSlot? = some j := by
  cases hf : l.freeSlot? with
  | some j => exact ⟨j, rfl⟩
  | none =>
    have := List.find?_eq_none.1 hf i (mem_slotNumbers i)
    rw [decide_eq_true_iff] at this
    exact absurd h this

end free

/-! ## An item placed in a FREE slot (R75) -/

section put
variable {y : Yard} {lp : ScreenId} {it : Item}

/-- The loop's record as an item takes a slot. -/
def LoopRec.placed (l : LoopRec) (i : Fin 16) (it : Item) : LoopRec :=
  { l.setSlot i (l.newSlot it) with nextAge := l.nextAge + 1 }

theorem Post.unreachable_iff (p : Post) : p.unreachable = true ↔ p.present = false ∨ p.conf = .dropped := by
  simp [Post.unreachable]

theorem Yard.putItem_placed {i : Fin 16} (hi : (y.loops[lp]).freeSlot? = some i)
    (hr : ((y.loops[lp]).post it.post).unreachable = false) :
    y.putItem lp it = ((true, true), y.told lp ((y.loops[lp]).placed i it) []) := by
  unfold Yard.putItem
  simp only [hi, hr, Bool.false_eq_true, if_false, Yard.modLoop_told y]
  rfl

theorem Yard.putItem_undelivered {i : Fin 16} (hi : (y.loops[lp]).freeSlot? = some i)
    (hr : ((y.loops[lp]).post it.post).unreachable = true) :
    y.putItem lp it = ((true, true), y.told lp { y.loops[lp] with
      slots := y.loops[lp].slots.set i OutSlot.empty
      nextAge := y.loops[lp].nextAge + 1
      undelivered := satInc y.loops[lp].undelivered }
      [.sendUndelivered lp it.post it.kind it.v0 it.v1 it.origin]) := by
  unfold Yard.putItem
  simp only [hi, hr, if_true, Yard.modLoop_told y, Yard.completeUndelivered, Yard.told_modLoop, Yard.told_raise,
    Yard.told_loop]
  have hslot : (((y.loops[lp]).setSlot i ((y.loops[lp]).newSlot it)).slots)[i] = (y.loops[lp]).newSlot it := by
    simp [LoopRec.setSlot]
  simp only [hslot]
  simp only [LoopRec.setSlot, Vector.set_set]
  rfl

/-! ## An item coalesced (R76) -/

theorem Yard.putItem_merged (h : (y.loops[lp]).freeSlot? = none) : y.putItem lp it =
    ((((y.loops[lp]).mergeSide it false).1, (((y.loops[lp]).mergeSide it false).2.mergeSide it true).1),
      y.told lp (((y.loops[lp]).mergeSide it false).2.mergeSide it true).2 []) := by
  unfold Yard.putItem
  simp only [h, Yard.modLoop_told y]

end put

section merge
variable {l : LoopRec} {it : Item} {side1 : Bool}

/-- The value an item has for one of its sides. -/
def Item.value (it : Item) (side1 : Bool) : Option Nat :=
  if side1 then it.v1 else it.v0

/-- Whether a slot is PENDING for the post and the kind of an item, with the side enabled. -/
def OutSlot.takes (sl : OutSlot) (it : Item) (side1 : Bool) : Prop :=
  sl.use = .pending ∧ sl.post = it.post ∧ sl.kind = it.kind ∧ (if side1 then sl.v1 else sl.v0).isSome = true

/-- A slot with one side of an item merged into it. -/
def OutSlot.merged (sl : OutSlot) (it : Item) (side1 : Bool) (v : Nat) : OutSlot :=
  { sl with
    v0 := if side1 then sl.v0 else some v
    v1 := if side1 then some v else sl.v1
    prio := max sl.prio it.prio
    origin := it.origin }

theorem LoopRec.mergeSide_unnamed (h : it.value side1 = none) : l.mergeSide it side1 = (true, l) := by
  unfold Item.value at h
  simp only [LoopRec.mergeSide, h]

theorem LoopRec.mergeSide_found {v : Nat} {i : Fin 16} (h : it.value side1 = some v)
    (hi : l.mergeTarget it side1 = some i) :
    l.mergeSide it side1 = (true, l.setSlot i ((l.slots[i]).merged it side1 v)) := by
  unfold LoopRec.mergeSide
  change (match it.value side1 with
    | none => (true, l)
    | some v => _) = _
  rw [h]
  simp only [hi]
  cases side1 <;> rfl

theorem LoopRec.mergeSide_dropped {v : Nat} (h : it.value side1 = some v) (hi : l.mergeTarget it side1 = none) :
    l.mergeSide it side1 = (false, { l with overflow := true }) := by
  unfold Item.value at h
  simp only [LoopRec.mergeSide, h, hi]

/-- The test of the search for the slot an item's side is merged into. -/
def OutSlot.hit (sl : OutSlot) (it : Item) (side1 : Bool) : Bool :=
  decide (sl.use = .pending) && decide (sl.post = it.post) && decide (sl.kind = it.kind) &&
    (if side1 then sl.v1.isSome else sl.v0.isSome)

theorem OutSlot.hit_iff (sl : OutSlot) (it : Item) (side1 : Bool) : sl.hit it side1 = true ↔ sl.takes it side1 := by
  unfold OutSlot.takes OutSlot.hit
  cases side1 <;> simp [and_assoc]

/-- Whether a slot is newer than another. -/
def LoopRec.newer (l : LoopRec) (i j : Fin 16) : Bool :=
  decide ((l.slots[j]).age < (l.slots[i]).age)

theorem LoopRec.mergeTarget_eq (l : LoopRec) (it : Item) (side1 : Bool) : l.mergeTarget it side1 =
    slotNumbers.foldl (pickBest (fun i => (l.slots[i]).hit it side1) l.newer) none := by
  unfold LoopRec.mergeTarget
  dsimp only
  congr 1
  funext best i
  unfold pickBest OutSlot.hit LoopRec.newer
  simp only [decide_eq_true_eq]
  cases best <;> rfl

theorem LoopRec.mergeTarget_newest {i : Fin 16} (hi : (l.slots[i]).takes it side1)
    (hnew : ∀ j : Fin 16, (l.slots[j]).takes it side1 → j ≠ i → (l.slots[j]).age < (l.slots[i]).age) :
    l.mergeTarget it side1 = some i := by
  rw [LoopRec.mergeTarget_eq]
  refine foldl_pickBest (fun i => (l.slots[i]).hit it side1) l.newer (best := none) ((OutSlot.hit_iff _ _ _).2 hi)
    (fun j hj hu => ?_) (fun j hj => by cases hj) (.inl (mem_slotNumbers i))
  have := hnew j ((OutSlot.hit_iff _ _ _).1 hu) hj
  exact ⟨decide_eq_true this, decide_eq_false (by omega)⟩

theorem LoopRec.mergeTarget_none (h : ∀ i : Fin 16, ¬(l.slots[i]).takes it side1) : l.mergeTarget it side1 = none := by
  rw [LoopRec.mergeTarget_eq]
  exact foldl_pickBest_none _ _ (fun i _ => Bool.eq_false_iff.2 fun hc => h i ((OutSlot.hit_iff _ _ _).1 hc)) none

theorem foldl_pickBest_hit {ι : Type} {hit : ι → Bool} {better : ι → ι → Bool} {i : ι} {list : List ι} {best : Option ι}
    (hb : ∀ j, best = some j → hit j = true) (h : list.foldl (pickBest hit better) best = some i) : hit i = true := by
  induction list generalizing best with
  | nil => exact hb i h
  | cons k list ih =>
    refine ih (fun j hj => ?_) h
    unfold pickBest at hj
    split at hj
    · next hk =>
      cases best with
      | none => cases hj; exact hk
      | some b =>
        dsimp only at hj
        split at hj
        · cases hj; exact hk
        · exact hb j hj
    · exact hb j hj

theorem LoopRec.mergeTarget_takes {i : Fin 16} (h : l.mergeTarget it side1 = some i) : (l.slots[i]).takes it side1 := by
  rw [LoopRec.mergeTarget_eq] at h
  exact (OutSlot.hit_iff _ _ _).1
    (foldl_pickBest_hit (hit := fun i => (l.slots[i]).hit it side1) (better := l.newer) (best := none) (fun j hj => by cases hj) h)

/-- Coalescing writes slots and the overflow flag, and leaves every slot's use. -/
theorem LoopRec.mergeSide_keeps (l : LoopRec) (it : Item) (side1 : Bool) : ∃ slots overflow,
    (l.mergeSide it side1).2 = { l with slots := slots, overflow := overflow } ∧
    ∀ j : Fin 16, (slots[j]).use = (l.slots[j]).use ∧ ((l.slots[j]).kind ≠ it.kind → slots[j] = l.slots[j]) := by
  cases hv : it.value side1 with
  | none => exact ⟨l.slots, l.overflow, by rw [LoopRec.mergeSide_unnamed hv], fun j => ⟨rfl, fun _ => rfl⟩⟩
  | some v =>
    cases hi : l.mergeTarget it side1 with
    | none => exact ⟨l.slots, true, by rw [LoopRec.mergeSide_dropped hv hi], fun j => ⟨rfl, fun _ => rfl⟩⟩
    | some i =>
      refine ⟨_, l.overflow, by rw [LoopRec.mergeSide_found hv hi]; rfl, fun j => ?_⟩
      by_cases hj : j = i
      · subst hj
        simp only [Fin.getElem_fin, Vector.getElem_set_self]
        exact ⟨rfl, fun hk => absurd (LoopRec.mergeTarget_takes hi).2.2.1 hk⟩
      · have hne : (l.slots.set i ((l.slots[i]).merged it side1 v))[j] = l.slots[j] :=
          Vector.getElem_set_ne _ _ fun h => hj (Fin.ext h.symm)
        rw [hne]
        exact ⟨rfl, fun _ => rfl⟩

/-- The side of an item that names another side alone is not looked at. -/
theorem LoopRec.mergeSide_congr {it it' : Item} (hpost : it'.post = it.post) (hkind : it'.kind = it.kind)
    (hprio : it'.prio = it.prio) (horigin : it'.origin = it.origin) (hv : it'.value side1 = it.value side1) :
    l.mergeSide it' side1 = l.mergeSide it side1 := by
  have htarget : l.mergeTarget it' side1 = l.mergeTarget it side1 := by
    simp only [LoopRec.mergeTarget_eq, OutSlot.hit, hpost, hkind]
  cases hval : it.value side1 with
  | none => rw [LoopRec.mergeSide_unnamed hval, LoopRec.mergeSide_unnamed (hv.trans hval)]
  | some v =>
    cases hi : l.mergeTarget it side1 with
    | none => rw [LoopRec.mergeSide_dropped hval hi, LoopRec.mergeSide_dropped (hv.trans hval) (htarget.trans hi)]
    | some i =>
      rw [LoopRec.mergeSide_found hval hi, LoopRec.mergeSide_found (hv.trans hval) (htarget.trans hi), OutSlot.merged,
        OutSlot.merged, hprio, horigin]

end merge

/-! ## The requests of a loop -/

section request
variable {s : State} {lp : ScreenId} {l : LoopRec} {rs : List Report} {kind tag : Nat} {body : State → Reply × State}
  {r : Reply}

theorem request_loop (hs : s.ready) {f : Yard → Yard} (hb : body s = (r, s.onYard f)) (hf : f s.yard = s.yard.told lp l rs) :
    request kind tag body s = .next ((s.withLoop lp l).answered kind tag r rs) := by
  refine request_answers kind tag body s (s.withLoop lp l) r rs hs.2 ?_ hs.1
  rw [hb, State.onYard, hf]
  rfl

/-- A request that changes the yard: its reports join the queue. -/
theorem request_yard (hs : s.ready) {y : Yard} (hb : body s = (r, { s with yard := y })) :
    request kind tag body s =
      .next (({ s with yard := { y with raised := [] } } : State).answered kind tag r y.raised) := by
  refine request_answers kind tag body s { s with yard := { y with raised := [] } } r y.raised hs.2 ?_ rfl
  rw [hb]
  simp [State.raiseAll]

end request

theorem SlotKind.of_ctorIdx (k : SlotKind) : SlotKind.of k.ctorIdx = some k := by cases k <;> rfl

theorem flagOf_flag (b : Bool) : flagOf (if b then 1 else 0) = some b := by cases b <;> rfl

end Sys2Proof.Machine
end

section
/-! PROOF. Items and the requests of a loop (R75, R76, R78, R79, R83, R87). -/

namespace Sys2Proof.Machine

/-! ## An item with one side, and with both (R76) -/

section items
variable {y : Yard} {lp : ScreenId} {it : Item} {v : Nat}

/-- An item that names side 0 alone, with no FREE slot. -/
theorem Yard.putItem_side0 (h : (y.loops[lp]).freeSlot? = none) (hv : it.v0 = some v) (hn : it.v1 = none) :
    y.putItem lp it = ((((y.loops[lp]).mergeSide it false).1, true),
      y.told lp ((y.loops[lp]).mergeSide it false).2 []) := by
  rw [Yard.putItem_merged h, LoopRec.mergeSide_unnamed (l := ((y.loops[lp]).mergeSide it false).2) (side1 := true) hn]

/-- An item that names side 1 alone, with no FREE slot. -/
theorem Yard.putItem_side1 (h : (y.loops[lp]).freeSlot? = none) (hn : it.v0 = none) :
    y.putItem lp it = ((true, ((y.loops[lp]).mergeSide it true).1),
      y.told lp ((y.loops[lp]).mergeSide it true).2 []) := by
  rw [Yard.putItem_merged h, LoopRec.mergeSide_unnamed (l := y.loops[lp]) (side1 := false) hn]

/-- An item coalesced leaves no slot FREE. -/
theorem LoopRec.mergeSide_freeSlot? {l : LoopRec} (h : l.freeSlot? = none) (side1 : Bool) :
    (l.mergeSide it side1).2.freeSlot? = none := by
  obtain ⟨slots, overflow, heq, huse⟩ := l.mergeSide_keeps it side1
  rw [heq]
  refine LoopRec.freeSlot?_none fun j hj => ?_
  obtain ⟨i, hi⟩ := LoopRec.freeSlot?_isSome (l := l) (i := j) ((huse j).1.symm.trans hj)
  rw [h] at hi
  cases hi

/-- An item that names both sides is coalesced side by side. -/
theorem Yard.putItem_both (h : (y.loops[lp]).freeSlot? = none) :
    y.putItem lp it = (((y.putItem lp { it with v1 := none }).1.1,
      ((y.putItem lp { it with v1 := none }).2.putItem lp { it with v0 := none }).1.2),
      ((y.putItem lp { it with v1 := none }).2.putItem lp { it with v0 := none }).2) := by
  have hfirst : y.putItem lp { it with v1 := none } = ((((y.loops[lp]).mergeSide it false).1, true),
      y.told lp ((y.loops[lp]).mergeSide it false).2 []) := by
    rw [Yard.putItem_merged h, LoopRec.mergeSide_unnamed (it := { it with v1 := none }) (side1 := true) rfl,
      LoopRec.mergeSide_congr (it := it) (it' := { it with v1 := none }) (side1 := false) rfl rfl rfl rfl rfl]
  rw [hfirst]
  dsimp only
  rw [Yard.putItem_side1 (it := { it with v0 := none }) (by rw [Yard.told_loop]; exact LoopRec.mergeSide_freeSlot? h false)
    rfl, Yard.told_loop, Yard.told_told,
    LoopRec.mergeSide_congr (it := it) (it' := { it with v0 := none }) (side1 := true) rfl rfl rfl rfl rfl]
  exact Yard.putItem_merged h

end items

/-- A yard with one loop's record in place of its own, that has raised nothing more. -/
theorem Yard.told_nil (y : Yard) (lp : ScreenId) (l : LoopRec) : y.told lp l [] = { y with loops := y.loops.set lp l } := by
  simp [Yard.told]

/-- The part of O38 that speaks of an item of the Car Table or the Order Engine. -/
theorem putItem_cases (y : Yard) (lp : ScreenId) (l : LoopRec) (it : Item) (sl : OutSlot) (withLoop : LoopRec → Yard)
    (hl : y.loops[lp] = l) (hw : ∀ l', withLoop l' = { y with loops := y.loops.set lp l' })
    (hsl : sl = { use := .pending, post := it.post, kind := it.kind, v0 := it.v0, v1 := it.v1, prio := it.prio,
                  origin := it.origin, age := l.nextAge, fails := 0 }) :
    (∀ i : Fin 16, (l.slots[i]).use = .free → (∀ j : Fin 16, j < i → (l.slots[j]).use ≠ .free) →
      ((l.post it.post).present = true → (l.post it.post).conf ≠ .dropped → y.putItem lp it = ((true, true),
        withLoop { l with slots := l.slots.set i sl, nextAge := l.nextAge + 1 })) ∧
      (((l.post it.post).present = false ∨ (l.post it.post).conf = .dropped) → y.putItem lp it = ((true, true),
        { withLoop { l with
            slots := l.slots.set i OutSlot.empty, nextAge := l.nextAge + 1, undelivered := satInc l.undelivered } with
          raised := y.raised ++ [.sendUndelivered lp it.post it.kind it.v0 it.v1 it.origin] }))) ∧
    ((∀ j : Fin 16, (l.slots[j]).use ≠ .free) →
      (∀ v, it.v0 = some v → it.v1 = none → ∀ same : Fin 16 → Prop,
        (∀ i, same i ↔ (l.slots[i]).use = .pending ∧ (l.slots[i]).post = it.post ∧ (l.slots[i]).kind = it.kind ∧
          (l.slots[i]).v0.isSome = true) →
        (∀ i, same i → (∀ j, same j → j ≠ i → (l.slots[j]).age < (l.slots[i]).age) → y.putItem lp it = ((true, true),
          withLoop { l with slots := l.slots.set i { l.slots[i] with
            v0 := some v, prio := max (l.slots[i]).prio it.prio, origin := it.origin } })) ∧
        ((∀ i, ¬same i) → y.putItem lp it = ((false, true), withLoop { l with overflow := true }))) ∧
      (∀ v, it.v0 = none → it.v1 = some v → ∀ same : Fin 16 → Prop,
        (∀ i, same i ↔ (l.slots[i]).use = .pending ∧ (l.slots[i]).post = it.post ∧ (l.slots[i]).kind = it.kind ∧
          (l.slots[i]).v1.isSome = true) →
        (∀ i, same i → (∀ j, same j → j ≠ i → (l.slots[j]).age < (l.slots[i]).age) → y.putItem lp it = ((true, true),
          withLoop { l with slots := l.slots.set i { l.slots[i] with
            v1 := some v, prio := max (l.slots[i]).prio it.prio, origin := it.origin } })) ∧
        ((∀ i, ¬same i) → y.putItem lp it = ((true, false), withLoop { l with overflow := true }))) ∧
      (∀ a b, it.v0.isSome = true → it.v1.isSome = true → a = y.putItem lp { it with v1 := none } →
        b = a.2.putItem lp { it with v0 := none } → y.putItem lp it = ((a.1.1, b.1.2), b.2))) := by
  subst hl hsl
  refine ⟨fun i hi hlow => ⟨fun hp hc => ?placed, fun hr => ?undelivered⟩, fun hfull => ⟨fun v hv hn same hsame =>
    ⟨fun i hi hnew => ?found0, fun hno => ?dropped0⟩, fun v hn hv same hsame =>
    ⟨fun i hi hnew => ?found1, fun hno => ?dropped1⟩, fun a b _ _ ha hb => ?both⟩⟩
  case placed =>
    rw [hw, ← Yard.told_nil]
    refine Yard.putItem_placed (LoopRec.freeSlot?_first hi hlow) (Bool.eq_false_iff.2 fun hu => ?_)
    exact ((Post.unreachable_iff _).1 hu).elim (fun h => by rw [hp] at h; cases h) hc
  case undelivered =>
    rw [hw]
    exact Yard.putItem_undelivered (LoopRec.freeSlot?_first hi hlow) ((Post.unreachable_iff _).2 hr)
  all_goals have hfree := LoopRec.freeSlot?_none hfull
  case found0 =>
    rw [Yard.putItem_side0 hfree hv hn, LoopRec.mergeSide_found (side1 := false) hv (LoopRec.mergeTarget_newest ((hsame i).1 hi)
      fun j hj => hnew j ((hsame j).2 hj)), hw, Yard.told_nil]
    rfl
  case dropped0 =>
    rw [Yard.putItem_side0 hfree hv hn, LoopRec.mergeSide_dropped (side1 := false) hv
      (LoopRec.mergeTarget_none fun i hi => hno i ((hsame i).2 hi)), hw, Yard.told_nil]
  case found1 =>
    rw [Yard.putItem_side1 hfree hn, LoopRec.mergeSide_found (side1 := true) hv (LoopRec.mergeTarget_newest ((hsame i).1 hi)
      fun j hj => hnew j ((hsame j).2 hj)), hw, Yard.told_nil]
    rfl
  case dropped1 =>
    rw [Yard.putItem_side1 hfree hn, LoopRec.mergeSide_dropped (side1 := true) hv
      (LoopRec.mergeTarget_none fun i hi => hno i ((hsame i).2 hi)), hw, Yard.told_nil]
  case both =>
    subst ha hb
    exact Yard.putItem_both hfree

/-! ## The requests -/

section requests
variable (s : State) (tag : Nat) (lp : ScreenId)

theorem exec_send (post : Nat) (k : SlotKind) (e0 e1 : Bool) (v0 v1 prio : Nat) (hp : post ≤ 127) (he : (e0 || e1) = true)
    (h0 : k.admits v0 = true) (h1 : k.admits v1 = true) :
    exec (.send tag lp.val post k.ctorIdx (if e0 then 1 else 0) v0 (if e1 then 1 else 0) v1 prio) s =
      request 0x10 tag
        (sendBody lp post k (if e0 then some v0 else none) (if e1 then some v1 else none) prio) s := by
  change request 0x10 tag (withFin 4 lp.val fun lp s =>
    match SlotKind.of k.ctorIdx, flagOf (if e0 then 1 else 0), flagOf (if e1 then 1 else 0) with
    | some k, some e0, some e1 =>
      if k.admits v0 && k.admits v1 then
        inRange (decide (post ≤ 127) && (e0 || e1))
          (sendBody lp post k (if e0 then some v0 else none) (if e1 then some v1 else none) prio) s
      else malformed s
    | _, _, _ => malformed s) s = _
  rw [withFin_val, SlotKind.of_ctorIdx, flagOf_flag, flagOf_flag]
  simp only [h0, h1, hp, he, Bool.and_self, decide_true, if_true]
  rfl

theorem sendBody_full (post : Nat) (k : SlotKind) (v0 v1 : Option Nat) (prio : Nat)
    (h : (s.yard.loops[lp]).freeSlot? = none) : sendBody lp post k v0 v1 prio s = (Reply.refuse .full, s) := by
  unfold sendBody
  simp only [h]
  rfl

theorem sendBody_placed (post : Nat) (k : SlotKind) (v0 v1 : Option Nat) (prio : Nat) {i : Fin 16}
    (h : (s.yard.loops[lp]).freeSlot? = some i) : sendBody lp post k v0 v1 prio s =
      ({ result := if 3 < prio then .clamped else .ok, indication := .none, fields := [.raw [BitVec.ofNat 8 i.val]] },
        s.onYard fun y => (y.putItem lp
          { post := post, kind := k, v0 := v0, v1 := v1, prio := min prio 3, origin := .host }).2) := by
  unfold sendBody
  simp only [h]
  rfl

theorem exec_sendAbort (i : Fin 16) :
    exec (.sendAbort tag lp.val i.val) s = request 0x11 tag (abortBody lp i) s := by
  change request 0x11 tag (withFin 4 lp.val fun lp s =>
    match finOf 16 i.val with
    | some i => abortBody lp i s
    | none => refused .range s) s = _
  have hi : finOf 16 i.val = some i := dif_pos i.isLt
  rw [withFin_val, hi]

theorem abortBody_pending {i : Fin 16} (h : ((s.yard.loops[lp]).slots[i]).use = .pending) : abortBody lp i s =
    (Reply.ok, s.onYard fun y => (y.modLoop lp fun l => l.setSlot i OutSlot.empty).afterFree Yard.drain lp) := by
  unfold abortBody
  simp only [h]
  rfl

end requests

theorem Yard.afterFree_clear {y : Yard} {lp : ScreenId} (settle : Yard → Yard) (h : (y.loops[lp]).overflow = false) :
    y.afterFree settle lp = y :=
  if_neg (by rw [h]; decide)

theorem Yard.afterFree_overflow {y : Yard} {lp : ScreenId} (settle : Yard → Yard) (h : (y.loops[lp]).overflow = true) :
    y.afterFree settle lp = (y.told lp { y.loops[lp] with overflow := false } []).resendOverflow settle lp := by
  rw [Yard.afterFree, if_pos h, Yard.modLoop_told]

/-- Settles O38: the items first, then request by request. -/
theorem loopRequestsTaken : Obligations.LoopRequestsTaken := by
  unfold Obligations.LoopRequestsTaken
  refine ⟨putItem_cases, ?_⟩
  rintro s tag lp l hs rfl
  refine ⟨fun i y hi hover hy => ?abortResends, fun k e0 e1 post v0 v1 prio sl hp he h0 h1 hsl =>
    ⟨fun hfull => ?full, fun i r hi hlow hr => ⟨fun hpres hconf => ?sent, fun hun => ?undelivered⟩⟩,
    fun i hi hover => ?abort, fun i hi => ?tooLate, fun i hi => ?noSuch, ?summary, fun window lend allow w t hw ht => ?set⟩
  case abortResends =>
    rw [exec_sendAbort]
    refine request_yard (y := y) hs ((abortBody_pending s lp hi).trans (Prod.ext rfl ?_))
    refine congrArg (fun y => ({ s with yard := y } : State)) ?_
    beta_reduce
    rw [Yard.modLoop_told, Yard.afterFree_overflow _ (by rw [Yard.told_loop]; exact hover),
      Yard.told_loop, Yard.told_told, List.append_nil, Yard.told_nil]
    exact hy.symm
  case full =>
    rw [exec_send s tag lp post k e0 e1 v0 v1 prio hp he h0 h1]
    exact request_refused _ _ _ _ _ hs (sendBody_full s lp _ _ _ _ _ (LoopRec.freeSlot?_none hfull))
  case sent =>
    subst hsl hr
    rw [exec_send s tag lp post k e0 e1 v0 v1 prio hp he h0 h1]
    refine request_loop (rs := []) hs (sendBody_placed s lp _ _ _ _ _ (LoopRec.freeSlot?_first hi hlow)) ?_
    rw [Yard.putItem_placed (LoopRec.freeSlot?_first hi hlow) (Bool.eq_false_iff.2 fun hu =>
      ((Post.unreachable_iff _).1 hu).elim (fun h => by rw [hpres] at h; cases h) hconf)]
    rfl
  case undelivered =>
    subst hsl hr
    rw [exec_send s tag lp post k e0 e1 v0 v1 prio hp he h0 h1]
    refine request_loop hs (sendBody_placed s lp _ _ _ _ _ (LoopRec.freeSlot?_first hi hlow)) ?_
    rw [Yard.putItem_undelivered (LoopRec.freeSlot?_first hi hlow) ((Post.unreachable_iff _).2 hun)]
  case abort =>
    rw [exec_sendAbort]
    refine request_loop (rs := []) hs (abortBody_pending s lp hi) ?_
    rw [Yard.modLoop_told, Yard.afterFree_clear _ (by rw [Yard.told_loop]; exact hover)]
    rfl
  case tooLate =>
    rw [exec_sendAbort]
    refine request_refused _ _ _ _ _ hs ?_
    unfold abortBody
    simp only [hi]
  case noSuch =>
    rw [exec_sendAbort]
    refine request_refused _ _ _ _ _ hs ?_
    unfold abortBody
    simp only [hi]
  case summary =>
    refine request_loop (rs := []) (f := fun y => y.modLoop lp fun l => { l with rows := [] }) hs ?_ ?_
    · rw [withFin_val]
      rfl
    · rw [Yard.modLoop_told]
  case set =>
    refine request_loop (rs := []) hs (f := fun y => y.modLoop lp fun l =>
      { l with windowSetting := w, lendAllowed := allow, lendSetting := t }) ?_ (by rw [Yard.modLoop_told])
    have hw' : clampTimer 5 100 window = w := hw.symm
    have ht' : clampTimer 60 3600 lend = t := ht.symm
    rw [withFin_val, flagOf_flag]
    dsimp only
    have hsame : decide (w ≠ window ∨ t ≠ lend) = decide (¬(w = window ∧ t = lend)) := decide_eq_decide.2 not_and_or.symm
    rw [hw', ht', hsame, Reply.setting_eq]
    rfl

end Sys2Proof.Machine
end

section
/-! PROOF. Reads where nothing is damaged, and what the marks of a post place (R128, R129, R156). -/

namespace Sys2Proof.Machine

/-! ## Reads where nothing is damaged -/

/-- What a good read of a slot with the given record answers. -/
def Read.of {ρ : Type} : Option ρ → Read ρ
  | some r => .whole r
  | none => .absent

section reads
variable {y : Yard}

theorem Store.undamaged_iff (st : Store) : st.undamaged = true ↔ tableUndamaged st.cars = true ∧
    tableUndamaged st.bays = true ∧ tableUndamaged st.orders = true ∧ tableUndamaged st.menu = true ∧
      tableUndamaged st.tickets = true := by
  simp only [Store.undamaged, Bool.and_eq_true, and_assoc]

/-- A slot that holds no record, or one with good parity. -/
def Slot.readable {ρ : Type} (sl : Slot ρ) : Prop :=
  sl.record?.isSome = true → sl.wrong = none

theorem Yard.readCarSlot_readable {i : Nat} (settle : Yard → Yard) (h : (y.carSlot i).readable) :
    y.readCarSlot settle i = (Read.of (y.carSlot i).record?, y) := by
  unfold Yard.readCarSlot
  unfold Slot.readable at h
  cases hr : (y.carSlot i).record? with
  | none => rfl
  | some c => rw [h (by rw [hr]; rfl)]; rfl

theorem Yard.readBay_readable {i : Nat} (settle : Yard → Yard) (h : (y.baySlot i).readable) :
    y.readBay settle i = (Read.of (y.bay? i), y) := by
  unfold Yard.readBay Yard.bay?
  unfold Slot.readable at h
  cases hr : (y.baySlot i).record? with
  | none => rfl
  | some c => rw [h (by rw [hr]; rfl)]; rfl

theorem Yard.readOrderSlot_readable {i : Nat} (settle : Yard → Yard) (h : (y.orderSlot i).readable) :
    y.readOrderSlot settle i = (Read.of (y.orderSlot i).record?, y) := by
  unfold Yard.readOrderSlot
  unfold Slot.readable at h
  cases hr : (y.orderSlot i).record? with
  | none => rfl
  | some c => rw [h (by rw [hr]; rfl)]; rfl

theorem Yard.readItem_readable {i : Nat} (settle : Yard → Yard) (h : (y.menuSlot i).readable) :
    y.readItem settle i = (Read.of (y.item? i), y) := by
  unfold Yard.readItem Yard.item?
  unfold Slot.readable at h
  cases hr : (y.menuSlot i).record? with
  | none => rfl
  | some c => rw [h (by rw [hr]; rfl)]; rfl

theorem Yard.readTicketSlot_readable {i : Nat} (settle : Yard → Yard) (h : (y.ticketSlot i).readable) :
    y.readTicketSlot settle i = (Read.of (y.ticketSlot i).record?, y) := by
  unfold Yard.readTicketSlot
  unfold Slot.readable at h
  cases hr : (y.ticketSlot i).record? with
  | none => rfl
  | some c => rw [h (by rw [hr]; rfl)]; rfl

theorem Slot.readable_of_undamaged {ρ : Type} {t : Tab (Slot ρ)} (h : tableUndamaged t = true) (i : Nat) :
    (Tab.get Slot.blank t i).readable := fun _ => wrong_of_undamaged h i

theorem Yard.readBay_undamaged (settle : Yard → Yard) (h : y.store.undamaged = true) (i : Nat) :
    y.readBay settle i = (Read.of (y.bay? i), y) := by
  obtain ⟨-, hb, -⟩ := (Store.undamaged_iff _).1 h
  exact Yard.readBay_readable settle (Slot.readable_of_undamaged hb i)

end reads

/-! ## The marks -/

/-- A table of marks with the mark of a bay cleared where it is asked for. -/
def clearMark (t : Tab Bool) (b : Nat) (c : Bool) : Tab Bool :=
  if c then Tab.put false t b false else t

theorem get_clearMark {t : Tab Bool} (h : Tab.wf false t = true) (b : Nat) (c : Bool) (b' : Nat) :
    Tab.get false (clearMark t b c) b' = (Tab.get false t b' && !(b' == b && c)) := by
  unfold clearMark
  cases c with
  | false => simp
  | true =>
    simp only [if_true, Bool.and_true]
    by_cases hb : b' = b
    · subst hb
      rw [Tab.get_put_self h]
      simp
    · rw [Tab.get_put_other _ _ _ hb]
      simp [hb]

theorem wf_clearMark {t : Tab Bool} (h : Tab.wf false t = true) (b : Nat) (c : Bool) :
    Tab.wf false (clearMark t b c) = true := by
  unfold clearMark
  split
  · exact Tab.wf_put h b false
  · exact h

/-- What is left of the marks of a post's two bays once its item is placed. -/
theorem get_clearMarks {t : Tab Bool} (h : Tab.wf false t = true) (b0 b1 : Nat) (ok0 ok1 : Bool) (b : Nat) :
    Tab.get false (clearMark (clearMark t b0 (Tab.get false t b0 && ok0)) b1 (Tab.get false t b1 && ok1)) b =
      (Tab.get false t b && !(b == b0 && ok0) && !(b == b1 && ok1)) := by
  rw [get_clearMark (wf_clearMark h _ _), get_clearMark h]
  by_cases h0 : b = b0
  · subst h0
    by_cases h1 : b = b1
    · subst h1
      cases Tab.get false t b <;> simp
    · cases Tab.get false t b <;> simp [beq_false_of_ne h1]
  · by_cases h1 : b = b1
    · subst h1
      cases Tab.get false t b <;> simp [beq_false_of_ne h0]
    · simp [beq_false_of_ne h0, beq_false_of_ne h1]

section marks
variable {y : Yard}

/-- An item writes its loop's record and may raise a report, and nothing else of the yard. -/
theorem Yard.putItem_told (y : Yard) (lp : ScreenId) (it : Item) : ∃ l rs, (y.putItem lp it).2 = y.told lp l rs := by
  cases hf : (y.loops[lp]).freeSlot? with
  | none => exact ⟨_, _, by rw [Yard.putItem_merged hf]⟩
  | some i =>
    cases hu : ((y.loops[lp]).post it.post).unreachable with
    | false => exact ⟨_, _, by rw [Yard.putItem_placed hf hu]⟩
    | true => exact ⟨_, _, by rw [Yard.putItem_undelivered hf hu]⟩

@[simp] theorem Yard.putItem_spkMarks (lp : ScreenId) (it : Item) : (y.putItem lp it).2.spkMarks = y.spkMarks := by
  obtain ⟨l, rs, h⟩ := y.putItem_told lp it
  rw [h]
  rfl

@[simp] theorem Yard.putItem_lampMarks (lp : ScreenId) (it : Item) : (y.putItem lp it).2.lampMarks = y.lampMarks := by
  obtain ⟨l, rs, h⟩ := y.putItem_told lp it
  rw [h]
  rfl

theorem Yard.baySlot_readable (h : y.store.undamaged = true) (i : Nat) : (y.baySlot i).readable := by
  obtain ⟨-, hb, -⟩ := (Store.undamaged_iff _).1 h
  exact Slot.readable_of_undamaged hb i

theorem Yard.readMarked_readable (h : ∀ i, (y.baySlot i).readable) (marked : Yard → Nat → Bool) (settle : Yard → Yard)
    (b : Nat) : y.readMarked marked settle b = (marked y b, y) := by
  unfold Yard.readMarked
  rw [Yard.readBay_readable settle (h b)]
  cases marked y b <;> rfl

/-- The item the speaker marks of a post place. -/
def Yard.speakerItem (y : Yard) (lp : ScreenId) (p : Nat) : Item :=
  { post := p, kind := .speakers, prio := 2, origin := .ct
    v0 := if y.spkMarked (postBay lp p 0) then some (y.speakerValue (postBay lp p 0)) else none
    v1 := if y.spkMarked (postBay lp p 1) then some (y.speakerValue (postBay lp p 1)) else none }

/-- The item the lamp marks of a post place. -/
def Yard.lampItem (y : Yard) (lp : ScreenId) (p : Nat) : Item :=
  { post := p, kind := .lamps, prio := 1, origin := .oe
    v0 := if y.lampMarked (postBay lp p 0) then some (y.restingValue (postBay lp p 0)) else none
    v1 := if y.lampMarked (postBay lp p 1) then some (y.restingValue (postBay lp p 1)) else none }

theorem Yard.ite_setSpkMark_eq (y : Yard) (b : Nat) (c : Bool) :
    (if c then y.setSpkMark b false else y) = { y with spkMarks := clearMark y.spkMarks b c } := by
  cases c <;> rfl

theorem Yard.ite_setLampMark_eq (y : Yard) (b : Nat) (c : Bool) :
    (if c then y.setLampMark b false else y) = { y with lampMarks := clearMark y.lampMarks b c } := by
  cases c <;> rfl

section readable
variable (h : ∀ i, (y.baySlot i).readable) (settle : Yard → Yard) (lp : ScreenId) (p : Nat)
include h

theorem Yard.placeSpeakersAt_unmarked (h0 : y.spkMarked (postBay lp p 0) = false)
    (h1 : y.spkMarked (postBay lp p 1) = false) : y.placeSpeakersAt settle lp p = y := by
  unfold Yard.placeSpeakersAt
  simp only [Yard.readMarked_readable h, h0, h1, Bool.false_and, Bool.or_self, Bool.false_eq_true, if_false]

theorem Yard.placeSpeakersAt_marked (hm : y.spkMarked (postBay lp p 0) = true ∨ y.spkMarked (postBay lp p 1) = true) :
    y.placeSpeakersAt settle lp p = { (y.putItem lp (y.speakerItem lp p)).2 with
      spkMarks := clearMark (clearMark y.spkMarks (postBay lp p 0)
          (y.spkMarked (postBay lp p 0) && (y.putItem lp (y.speakerItem lp p)).1.1))
        (postBay lp p 1) (y.spkMarked (postBay lp p 1) && (y.putItem lp (y.speakerItem lp p)).1.2) } := by
  unfold Yard.placeSpeakersAt
  have hor : (y.spkMarked (postBay lp p 0) || y.spkMarked (postBay lp p 1)) = true := Bool.or_eq_true_iff.2 hm
  simp only [Yard.readMarked_readable h, Bool.and_self, hor, if_true, Yard.ite_setSpkMark_eq, Yard.putItem_spkMarks]
  rfl

theorem Yard.placeLampsAt_unmarked (h0 : y.lampMarked (postBay lp p 0) = false)
    (h1 : y.lampMarked (postBay lp p 1) = false) : y.placeLampsAt settle lp p = y := by
  unfold Yard.placeLampsAt
  simp only [Yard.readMarked_readable h, h0, h1, Bool.false_and, Bool.or_self, Bool.false_eq_true, if_false]

theorem Yard.placeLampsAt_marked (hm : y.lampMarked (postBay lp p 0) = true ∨ y.lampMarked (postBay lp p 1) = true) :
    y.placeLampsAt settle lp p = { (y.putItem lp (y.lampItem lp p)).2 with
      lampMarks := clearMark (clearMark y.lampMarks (postBay lp p 0)
          (y.lampMarked (postBay lp p 0) && (y.putItem lp (y.lampItem lp p)).1.1))
        (postBay lp p 1) (y.lampMarked (postBay lp p 1) && (y.putItem lp (y.lampItem lp p)).1.2) } := by
  unfold Yard.placeLampsAt
  have hor : (y.lampMarked (postBay lp p 0) || y.lampMarked (postBay lp p 1)) = true := Bool.or_eq_true_iff.2 hm
  simp only [Yard.readMarked_readable h, Bool.and_self, hor, if_true, Yard.ite_setLampMark_eq, Yard.putItem_lampMarks]
  rfl

end readable

/-! ## The bays of a post, and the marks set by a resend request -/

theorem Yard.markBays_eq (y : Yard) (bays : List Nat) : y.markBays bays = { y with
    spkMarks := bays.foldl (fun t b => Tab.put false t b true) y.spkMarks
    lampMarks := bays.foldl (fun t b => Tab.put false t b true) y.lampMarks } := by
  induction bays generalizing y with
  | nil => rfl
  | cons b bays ih => exact ih ((y.setSpkMark b true).setLampMark b true)

theorem get_foldl_mark (bays : List Nat) (t : Tab Bool) (b : Nat) :
    Tab.get false (bays.foldl (fun t b => Tab.put false t b true) t) b = (Tab.get false t b || decide (b ∈ bays)) := by
  induction bays generalizing t with
  | nil => simp
  | cons a bays ih =>
    rw [List.foldl_cons, ih]
    by_cases hb : b = a
    · subst hb
      rw [Tab.get_put_of_ne _ _ (by decide)]
      simp
    · rw [Tab.get_put_other _ _ _ hb]
      simp [hb]

theorem mem_fieldBays (lp : ScreenId) (b : Nat) : b ∈ fieldBays lp ↔ b / 256 = lp.val := by
  unfold fieldBays
  simp only [List.mem_map, List.mem_range]
  constructor
  · rintro ⟨k, hk, rfl⟩
    omega
  · intro h
    exact ⟨b % 256, by omega, by omega⟩

theorem bayOf_post {lp : ScreenId} {p side : Nat} (hp : p < 128) (hs : side ≤ 1) :
    bayLoop (lp.val * 256 + 2 * p + side) = lp ∧ bayPost (lp.val * 256 + 2 * p + side) = p ∧
      baySide (lp.val * 256 + 2 * p + side) = side := by
  have hlp := lp.isLt
  refine ⟨Fin.ext ?_, ?_, ?_⟩
  · simp only [bayLoop]
    omega
  · simp only [bayPost]
    omega
  · simp only [baySide]
    omega

end marks

end Sys2Proof.Machine
end

section
/-! PROOF. The outcomes of POLL, PROBE and SEND (R66 to R71, R77). -/

namespace Sys2Proof.Machine

/-! ## The values of a reachable post sent again (R71, R129) -/

/-- A loop's record that differs by its slots, their ages and the overflow flag. -/
def LoopRec.slotsOnly (l l' : LoopRec) : Prop :=
  l' = { l with slots := l'.slots, nextAge := l'.nextAge, overflow := l'.overflow }

theorem LoopRec.slotsOnly.trans {a b c : LoopRec} (h : a.slotsOnly b) (k : b.slotsOnly c) : a.slotsOnly c := by
  unfold LoopRec.slotsOnly at *
  rw [k, h]

section resend
variable {y : Yard} {lp : ScreenId}

/-- An item of a reachable post raises nothing: it takes a slot or is coalesced. -/
theorem Yard.putItem_reachable {it : Item} (h : ((y.loops[lp]).post it.post).unreachable = false) :
    ∃ l, (y.putItem lp it).2 = y.told lp l [] ∧ (y.loops[lp]).slotsOnly l ∧
      (∀ j : Fin 16, ((y.loops[lp]).slots[j]).use ≠ .free → ((y.loops[lp]).slots[j]).kind ≠ it.kind →
        l.slots[j] = (y.loops[lp]).slots[j]) ∧
      ∀ i, (y.loops[lp]).freeSlot? = some i → l.slots[i] = (y.loops[lp]).newSlot it := by
  cases hf : (y.loops[lp]).freeSlot? with
  | some i =>
    refine ⟨(y.loops[lp]).placed i it, by rw [Yard.putItem_placed hf h], rfl, fun j hu _ => ?_, ?_⟩
    · have hne : j ≠ i := by
        rintro rfl
        exact hu (LoopRec.freeSlot?_free hf)
      simp only [LoopRec.placed, LoopRec.setSlot, Fin.getElem_fin]
      exact Vector.getElem_set_ne _ _ fun h => hne (Fin.ext h.symm)
    · rintro k ⟨⟩
      simp [LoopRec.placed, LoopRec.setSlot]
  | none =>
    obtain ⟨sa, oa, ha, hka⟩ := (y.loops[lp]).mergeSide_keeps it false
    obtain ⟨sb, ob, hb, hkb⟩ := ((y.loops[lp]).mergeSide it false).2.mergeSide_keeps it true
    rw [ha] at hb hkb
    refine ⟨_, by rw [Yard.putItem_merged hf], by rw [ha, hb]; rfl, fun j _ hk => ?_, fun i hi => by cases hi⟩
    rw [ha, hb]
    have h1 := (hka j).2 hk
    exact ((hkb j).2 (by rw [h1]; exact hk)).trans h1

/-- A resend request for a reachable post, with no record damaged: nothing is reported, and a FREE slot takes the
speaker states of both sides. -/
theorem Yard.resendPost_reachable {p : Nat} (settle : Yard → Yard) (hun : y.store.undamaged = true)
    (h : ((y.loops[lp]).post p).unreachable = false) :
    ((y.resendPost settle lp p).loops[lp] |> (y.loops[lp]).slotsOnly) ∧ (y.resendPost settle lp p).raised = y.raised ∧
      ∀ i, (y.loops[lp]).freeSlot? = some i → ∃ v0 v1, ((y.resendPost settle lp p).loops[lp]).slots[i] =
        (y.loops[lp]).newSlot { post := p, kind := .speakers, v0 := some v0, v1 := some v1, prio := 2, origin := .ct } := by
  unfold Yard.resendPost
  have hmark (t : Tab Bool) (b : Nat) (hb : b ∈ [postBay lp p 0, postBay lp p 1]) :
      Tab.get false ([postBay lp p 0, postBay lp p 1].foldl (fun t b => Tab.put false t b true) t) b = true := by
    rw [get_foldl_mark, decide_eq_true hb, Bool.or_true]
  have hspk (b : Nat) (hb : b ∈ [postBay lp p 0, postBay lp p 1]) :
      (y.markBays [postBay lp p 0, postBay lp p 1]).spkMarked b = true := by
    rw [Yard.markBays_eq]
    exact hmark _ b hb
  have hlamp (b : Nat) (hb : b ∈ [postBay lp p 0, postBay lp p 1]) :
      (y.markBays [postBay lp p 0, postBay lp p 1]).lampMarked b = true := by
    rw [Yard.markBays_eq]
    exact hmark _ b hb
  have h0 : postBay lp p 0 ∈ [postBay lp p 0, postBay lp p 1] := List.mem_cons_self
  have h1 : postBay lp p 1 ∈ [postBay lp p 0, postBay lp p 1] := List.mem_cons_of_mem _ List.mem_cons_self
  have hloops : (y.markBays [postBay lp p 0, postBay lp p 1]).loops = y.loops := by rw [Yard.markBays_eq]
  have hstore : (y.markBays [postBay lp p 0, postBay lp p 1]).store = y.store := by rw [Yard.markBays_eq]
  have hraised : (y.markBays [postBay lp p 0, postBay lp p 1]).raised = y.raised := by rw [Yard.markBays_eq]
  generalize hu : y.markBays [postBay lp p 0, postBay lp p 1] = u at *
  clear hu
  have hitem : (u.speakerItem lp p).v0 = some (u.speakerValue (postBay lp p 0)) ∧
      (u.speakerItem lp p).v1 = some (u.speakerValue (postBay lp p 1)) :=
    ⟨if_pos (hspk _ h0), if_pos (hspk _ h1)⟩
  have hreach : ((u.loops[lp]).post (u.speakerItem lp p).post).unreachable = false := by rw [hloops]; exact h
  obtain ⟨l, hput, honly, -, hfree⟩ := Yard.putItem_reachable hreach
  rw [Yard.placeSpeakersAt_marked (Yard.baySlot_readable (hstore ▸ hun)) settle lp p (.inl (hspk _ h0)), hput]
  generalize hv : ({ u.told lp l [] with spkMarks := _ } : Yard) = v
  have hvloop : v.loops[lp] = l := by rw [← hv]; exact Yard.told_loop u lp l []
  have hvlamp : v.lampMarks = u.lampMarks := by rw [← hv]; rfl
  have hvstore : v.store = u.store := by rw [← hv]; rfl
  have hvraised : v.raised = u.raised := by rw [← hv]; exact List.append_nil _
  clear hv
  have hreach' : ((v.loops[lp]).post (v.lampItem lp p).post).unreachable = false := by
    rw [hvloop, honly, hloops]
    exact h
  obtain ⟨l', hput', honly', hkeep, -⟩ := Yard.putItem_reachable hreach'
  rw [Yard.placeLampsAt_marked (Yard.baySlot_readable (hvstore ▸ hstore ▸ hun)) settle lp p (.inl (by
    unfold Yard.lampMarked
    rw [hvlamp]
    exact hlamp _ h0)), hput']
  generalize hz : ({ v.told lp l' [] with lampMarks := _ } : Yard) = z
  have hzloop : z.loops[lp] = l' := by rw [← hz]; exact Yard.told_loop v lp l' []
  have hzraised : z.raised = v.raised := by rw [← hz]; exact List.append_nil _
  clear hz
  rw [hzloop]
  refine ⟨?_, hzraised.trans (hvraised.trans hraised), fun i hi => ?_⟩
  · rw [← hloops]
    exact honly.trans (hvloop ▸ honly')
  · rw [← hloops] at hi ⊢
    have hslot := hfree i hi
    have hvslot : (v.loops[lp]).slots[i] = (u.loops[lp]).newSlot (u.speakerItem lp p) := by rw [hvloop]; exact hslot
    rw [hkeep i (by rw [hvslot]; exact SlotUse.noConfusion) (by rw [hvslot]; exact SlotKind.noConfusion), hvslot]
    refine ⟨u.speakerValue (postBay lp p 0), u.speakerValue (postBay lp p 1), ?_⟩
    unfold LoopRec.newSlot
    rw [hitem.1, hitem.2]
    rfl

end resend

/-! ## The commands that end a transaction -/

section ends
variable {y : Yard} {site : Site} {lp : ScreenId} {t : Transaction} {n : Nat} {left : Option Nat} {l : LoopRec}

/-- A response in the window, by its status. -/
theorem Yard.takeResponse_valid {bytes : List Byte} {r : Response} (ht : (y.loops[lp]).current = some t)
    (hw : t.window = .listening n left) (hr : responseOf bytes = some r) : y.takeResponse site lp bytes =
      match r.valid t.post with
      | some .done => y.endTransaction site lp t .good r.record
      | some .again => y.takeAgain site lp t
      | some .wait => y.takeWait site lp t n
      | some .fault => y.endTransaction site lp t .error []
      | none => y.endTransaction site lp t .error [] := by
  unfold Yard.takeResponse
  rw [ht]
  simp only [hw, hr] <;> rfl

/-- The commands that end a transaction as an error. -/
def Transaction.failsBy (t : Transaction) (lp : ScreenId) (left : Option Nat) (c : Instr) : Prop :=
  c = .responseWindowExpiry lp ∧ left.isSome = true ∨ ∃ bytes r, c = .loopResponse lp bytes ∧
    responseOf bytes = some r ∧ (r.valid t.post = none ∨ r.valid t.post = some .fault ∨
      r.valid t.post = some .again ∧ 4 ≤ t.agains ∨ r.valid t.post = some .wait ∧ 2 ≤ t.waits)

variable {s : State}

theorem exec_good {bytes : List Byte} {r : Response} (ht : (s.yard.loops[lp]).current = some t)
    (hw : t.window = .listening n left) (hr : responseOf bytes = some r) (hv : r.valid t.post = some .done) :
    exec (.loopResponse lp bytes) s =
      .next ({ s with yard := s.yard.endTransaction s.site lp t .good r.record } : State).finish := by
  change event (fun s => s.onYard fun y => y.takeResponse s.site lp bytes) s = _
  rw [event_next, State.onYard, Yard.takeResponse_valid ht hw hr, hv]

theorem exec_fails {c : Instr} (ht : (s.yard.loops[lp]).current = some t) (hw : t.window = .listening n left)
    (hc : t.failsBy lp left c) :
    exec c s = .next ({ s with yard := s.yard.endTransaction s.site lp t .error [] } : State).finish := by
  rcases hc with ⟨rfl, hleft⟩ | ⟨bytes, r, rfl, hr, hv⟩
  · change event (fun s => s.onYard fun y => y.windowExpired s.site lp) s = _
    obtain ⟨k, rfl⟩ := Option.isSome_iff_exists.1 hleft
    have hexp : s.yard.windowExpired s.site lp = s.yard.endTransaction s.site lp t .error [] := by
      unfold Yard.windowExpired
      rw [ht]
      simp only [hw]
    rw [event_next, State.onYard, hexp]
  · change event (fun s => s.onYard fun y => y.takeResponse s.site lp bytes) s = _
    rw [event_next, State.onYard, Yard.takeResponse_valid ht hw hr]
    rcases hv with hv | hv | ⟨hv, hn⟩ | ⟨hv, hn⟩
    · rw [hv]
    · rw [hv]
    · rw [hv]
      simp only [Yard.takeAgain, hn, if_true]
    · rw [hv]
      simp only [Yard.takeWait, hn, if_true]

end ends

/-! ## POLL -/

section poll
variable {s : State} {lp : ScreenId} {t : Transaction} {l : LoopRec} {p : Post} {site : Site}

/-- The end of a transaction whose outcome is on record. -/
theorem endTransaction_of {y : Yard} {e : Ending} {l' : LoopRec} {rs : List Report}
    (h : (y.ended lp t e).judged lp t e = y.told lp l' rs) (ho : l'.owner ≠ .yielding) :
    y.endTransaction site lp t e [] = y.told lp l' rs := by
  rw [Yard.endTransaction_eq, h, Yard.takeRecord_nil, Yard.grantLoan_elsewhere]
  rw [Yard.told_loop]
  exact ho

theorem judged_polled {y : Yard} {e : Ending} {rs : List Report} (hfn : t.fn ≠ .probe) (hp : l.post t.post = p)
    (hpres : p.present = true) (hconf : p.conf ≠ .dropped) (hn : p.counted e < 192) {conf : Confinement}
    (hc : conf = if 96 ≤ p.counted e then .doubtful else .heard) :
    (y.told lp l rs).judged lp t e = y.told lp (l.setPost t.post { p with errors := p.counted e, conf := conf })
      (rs ++ if p.conf = conf then [] else [.postState lp t.post p.conf conf (p.counted e)]) := by
  rw [Yard.judged_count (.inl hfn)]
  exact Yard.countOutcome_stays hp hpres hconf hn conf hc

end poll

end Sys2Proof.Machine
end

section
/-! PROOF. The end of a loop's transactions, transaction by transaction (R66 to R71, R77). -/

namespace Sys2Proof.Machine

section ends
variable {y : Yard} {lp : ScreenId} {t : Transaction} {l : LoopRec} {p : Post} {site : Site}

/-! ## PROBE (R71) -/

theorem Post.ne_reset {p : Post} (h : p.present = true) : p ≠ Post.reset := by
  rintro rfl
  cases h

theorem LoopRec.post_put_present (l : LoopRec) (n : Nat) {p : Post} (h : p.present = true) :
    (l.setPost n p).post n = p :=
  Tab.get_put_of_ne _ _ (Post.ne_reset h)

theorem judged_probed {rs : List Report} (e : Ending) (hfn : t.fn = .probe) (hp : l.post t.post = p)
    (hpres : p.present = true) (hconf : p.conf = .dropped) :
    (y.told lp l rs).judged lp t e = (y.told lp l rs).probeOutcome lp t.post e := by
  refine if_pos ?_
  rw [Yard.told_loop, hp]
  exact ⟨hfn, hpres, hconf⟩

theorem probeOutcome_error {rs : List Report} {post : Nat} (hp : l.post post = p) :
    (y.told lp l rs).probeOutcome lp post .error = y.told lp
      (l.setPost post { p with errors := min (p.errors + 8) 255, recovery := some 10000 }) rs := by
  unfold Yard.probeOutcome
  simp only [Yard.told_loop, hp, Yard.told_modLoop]
  rfl

theorem probeOutcome_good {rs : List Report} {post : Nat} (hp : l.post post = p) :
    (y.told lp l rs).probeOutcome lp post .good =
      (y.told lp (l.setPost post p.recovered) (rs ++ [.postState lp post .dropped .heard 0])).resendPost Yard.drain lp post := by
  unfold Yard.probeOutcome
  simp only [Yard.told_loop, hp, Yard.told_modLoop, Yard.told_raise]

/-! ## SEND (R77) -/

theorem Post.deliver_keeps (p : Post) (sl : OutSlot) : (p.deliver sl).errors = p.errors ∧
    (p.deliver sl).conf = p.conf ∧ (p.deliver sl).present = p.present := by
  unfold Post.deliver
  cases sl.kind <;> exact ⟨rfl, rfl, rfl⟩

theorem Post.deliver_counted (p : Post) (sl : OutSlot) (n : Nat) (h : p.conf = .heard) :
    { p.deliver sl with errors := n, conf := .heard } = (match sl.kind with
      | .lamps => { p with errors := n, lamp0 := sl.v0.getD p.lamp0, lamp1 := sl.v1.getD p.lamp1 }
      | .speakers => { p with
          errors := n, spk0 := (sl.v0.map (· == 1)).getD p.spk0, spk1 := (sl.v1.map (· == 1)).getD p.spk1 }) := by
  unfold Post.deliver
  rw [← h]
  cases sl.kind with
  | lamps => rfl
  | speakers => cases sl.v0 <;> cases sl.v1 <;> rfl

/-! ## AGAIN and WAIT (R67) -/

theorem takeAgain_repeats (ht : t.agains < 4) (ho : (y.loops[lp]).owner ≠ .yielding) : y.takeAgain site lp t =
    y.told lp { y.loops[lp] with
      current := none
      repeatDue := some { post := t.post, fn := t.fn, slot := t.slot, agains := t.agains + 1, header := t.header } } [] := by
  have ho' : ¬(LoopRec.owner { y.loops[lp] with current := none } = .yielding) := ho
  simp only [Yard.takeAgain, Nat.not_le.2 ht, if_false, Yard.modLoop_told y, Yard.told_loop, ho', Yard.told_modLoop]

theorem takeWait_waits {n : Nat} (ht : t.waits < 2) : y.takeWait site lp t n = y.told lp { y.loops[lp] with
    current := some { t with
      waits := t.waits + 1, window := .listening n (if n = 0 then none else some n) } } [] := by
  simp only [Yard.takeWait, Nat.not_le.2 ht, if_false, Yard.modLoop_told y]

end ends

section commands
variable {s : State} {lp : ScreenId} {t : Transaction} {n : Nat} {left : Option Nat} {l : LoopRec} {p : Post}
  {rs : List Report} {bytes : List Byte} {r : Response}

theorem exec_good_told (hs : s.settled) (ht : (s.yard.loops[lp]).current = some t) (hw : t.window = .listening n left)
    (hr : responseOf bytes = some r) (hv : r.valid t.post = some .done) (hrec : r.record = [])
    (h : (s.yard.ended lp t .good).judged lp t .good = s.yard.told lp l rs) (ho : l.owner ≠ .yielding) :
    exec (.loopResponse lp bytes) s = .next ((s.withLoop lp l).reported rs) := by
  rw [exec_good ht hw hr hv, hrec, endTransaction_of h ho, State.finish_told hs]

theorem exec_fails_told {c : Instr} (hs : s.settled) (ht : (s.yard.loops[lp]).current = some t)
    (hw : t.window = .listening n left) (hc : t.failsBy lp left c)
    (h : (s.yard.ended lp t .error).judged lp t .error = s.yard.told lp l rs) (ho : l.owner ≠ .yielding) :
    exec c s = .next ((s.withLoop lp l).reported rs) := by
  rw [exec_fails ht hw hc, endTransaction_of h ho, State.finish_told hs]

theorem exec_again (hs : s.settled) (ht : (s.yard.loops[lp]).current = some t) (hw : t.window = .listening n left)
    (ho : (s.yard.loops[lp]).owner ≠ .yielding) (hr : responseOf bytes = some r) (hv : r.valid t.post = some .again)
    (hn : t.agains < 4) : exec (.loopResponse lp bytes) s = .next ((s.withLoop lp { s.yard.loops[lp] with
      current := none
      repeatDue := some { post := t.post, fn := t.fn, slot := t.slot, agains := t.agains + 1, header := t.header } }).reported
      []) := by
  refine event_loop (f := fun s y => y.takeResponse s.site lp bytes) hs ?_
  rw [Yard.takeResponse_valid ht hw hr, hv]
  exact takeAgain_repeats hn ho

theorem exec_wait (hs : s.settled) (ht : (s.yard.loops[lp]).current = some t) (hw : t.window = .listening n left)
    (hr : responseOf bytes = some r) (hv : r.valid t.post = some .wait) (hn : t.waits < 2) :
    exec (.loopResponse lp bytes) s = .next ((s.withLoop lp { s.yard.loops[lp] with
      current := some { t with
        waits := t.waits + 1, window := .listening n (if n = 0 then none else some n) } }).reported []) := by
  refine event_loop (f := fun s y => y.takeResponse s.site lp bytes) hs ?_
  rw [Yard.takeResponse_valid ht hw hr, hv]
  exact takeWait_waits hn

end commands

/-- Settles O35, by the kind of transaction and its outcome. -/
theorem loopTransactionsEnd : Obligations.LoopTransactionsEnd := by
  unfold Obligations.LoopTransactionsEnd
  rintro s lp l t n left p failed hs rfl hp hfailed
  have hfails (c : Instr) (hc : failed c) : t.failsBy lp left c := (hfailed c).1 hc
  refine ⟨fun bytes => ?stray, fun hn bytes => ?nothing, fun q hq => ?recovery, fun q hq => ?stands,
    fun ht hfn hslot hw ho hpres hconf => ⟨fun bytes r hr hv hrec hn conf hc => ?done, fun bytes r u hr hv hheard hn hu => ?record,
      fun hn hnone c hc => ?drops, fun hn conf hconf' c hc => ?charged, fun bytes r hr hv hn => ?again,
      fun bytes r again hr hv hn hagain => ?wait⟩,
    fun ht hfn hslot hw ho hpres hconf => ⟨fun bytes r hr hv hrec hun => ?back, fun c hc => ?lost⟩,
    fun i sl ht hfn hslot hw ho hover hsl hslp hpres hconf => ⟨fun bytes r hr hv hrec hn => ?sent,
      fun hn c hc => ⟨fun hf => ?retried, fun hf => ?undelivered⟩⟩⟩
  case stray =>
    change event (fun s => s) s = _
    rw [event_next, State.finish_settled s hs]
  case nothing =>
    refine event_yard_same (f := fun s y => y.takeResponse s.site lp bytes) hs ?_
    unfold Yard.takeResponse
    rw [hn]
  case recovery => exact event_onLoop (f := fun l => l.recoveryExpired q) hs (if_pos hq)
  case stands => exact event_onLoop_same (f := fun l => l.recoveryExpired q) hs (if_neg (by rw [hq]; decide))
  case done =>
    have hne : t.fn ≠ .probe := by rw [hfn]; decide
    refine exec_good_told hs ht hw hr hv hrec ?_ (l := { s.yard.loops[lp] with
      current := none
      posts := Tab.put Post.reset s.yard.loops[lp].posts t.post { p with errors := p.errors - 1, conf := conf } })
      (by rw [ho]; decide)
    rw [Yard.ended_good _ _ _ hslot]
    exact judged_polled (e := .good) (l := { s.yard.loops[lp] with current := none }) hne hp.symm hpres hconf hn hc
  case record =>
    have hne : t.fn ≠ .probe := by rw [hfn]; decide
    have hcount : p.counted .good < 96 := Nat.lt_of_le_of_lt (Nat.sub_le _ _) hn
    have hjudged := judged_polled (y := s.yard) (lp := lp) (e := .good) (rs := [])
      (l := { s.yard.loops[lp] with current := none }) hne hp.symm hpres hconf (by omega) (conf := .heard)
      (if_neg (Nat.not_le.2 hcount)).symm
    rw [if_pos hheard, List.append_nil] at hjudged
    rw [exec_good ht hw hr hv, Yard.endTransaction_eq, Yard.ended_good _ _ _ hslot, hjudged, Yard.told_nil, hu, ← hheard]
    rfl
  case drops =>
    have hne : t.fn ≠ .probe := by rw [hfn]; decide
    refine exec_fails_told hs ht hw (hfails c hc) ?_ (l := { s.yard.loops[lp] with
      current := none, errors := satInc s.yard.loops[lp].errors
      posts := Tab.put Post.reset s.yard.loops[lp].posts t.post
        { p with errors := min (p.errors + 8) 255, conf := .dropped, recovery := some 10000 } }) (by rw [ho]; decide)
    rw [Yard.ended_error _ _ _ hslot, Yard.judged_count (.inl hne)]
    exact Yard.countOutcome_drops hp.symm hpres hconf hn hnone
  case charged =>
    have hne : t.fn ≠ .probe := by rw [hfn]; decide
    have hcount : p.counted .error = p.errors + 8 := Nat.min_eq_left (by omega)
    refine exec_fails_told hs ht hw (hfails c hc) ?_ (l := { s.yard.loops[lp] with
      current := none, errors := satInc s.yard.loops[lp].errors
      posts := Tab.put Post.reset s.yard.loops[lp].posts t.post { p with errors := p.errors + 8, conf := conf } })
      (by rw [ho]; decide)
    have hjudged := judged_polled (y := s.yard) (lp := lp) (e := .error) (rs := [])
      (l := { s.yard.loops[lp] with current := none, errors := satInc s.yard.loops[lp].errors })
      hne hp.symm hpres hconf (by omega) (conf := conf) (by rw [hcount]; exact hconf')
    rw [hcount] at hjudged
    rw [Yard.ended_error _ _ _ hslot]
    exact hjudged
  case again =>
    have h := exec_again hs ht hw (by rw [ho]; decide) hr hv hn
    rw [hfn, hslot] at h
    exact h
  case wait =>
    subst hagain
    exact exec_wait hs ht hw hr hv hn
  case back =>
    let u := s.yard.told lp (LoopRec.setPost { s.yard.loops[lp] with current := none } t.post p.recovered)
      [.postState lp t.post .dropped .heard 0]
    have hu : u.loops[lp] = LoopRec.setPost { s.yard.loops[lp] with current := none } t.post p.recovered :=
      Yard.told_loop _ _ _ _
    have hpost : (u.loops[lp]).post t.post = p.recovered := by
      rw [hu]
      exact LoopRec.post_put_present _ _ hpres
    have hreach : ((u.loops[lp]).post t.post).unreachable = false := by
      rw [hpost]
      simp [Post.unreachable, Post.recovered, hpres]
    obtain ⟨honly, hraised, hslots⟩ := Yard.resendPost_reachable (y := u) (lp := lp) (p := t.post) Yard.drain hun hreach
    have hend : s.yard.endTransaction s.site lp t .good r.record = u.resendPost Yard.drain lp t.post := by
      rw [Yard.endTransaction_eq, hrec, Yard.takeRecord_nil, Yard.ended_good _ _ _ hslot,
        judged_probed (l := { s.yard.loops[lp] with current := none }) .good hfn hp.symm hpres hconf,
        probeOutcome_good (l := { s.yard.loops[lp] with current := none }) hp.symm]
      refine Yard.grantLoan_elsewhere _ _ ?_
      change ((u.resendPost Yard.drain lp t.post).loops[lp]).owner ≠ .yielding
      rw [honly, hu]
      exact fun h => Ownership.noConfusion (ho.symm.trans h)
    rw [exec_good ht hw hr hv, hend]
    generalize u.resendPost Yard.drain lp t.post = z at *
    refine ⟨_, rfl, ?_, ?_, ?_, fun hfree => ?_⟩
    · change (z.loops[lp]).current = none
      rw [honly, hu]
      rfl
    · change (z.loops[lp]).post t.post = _
      rw [honly]
      exact hpost
    · rw [State.finish_link]
      change s.link.after z.raised = _
      rw [hraised]
      change s.link.after (s.yard.raised ++ _) = _
      rw [hs, List.nil_append]
    · obtain ⟨i, hi⟩ := hfree
      obtain ⟨k, hk⟩ := LoopRec.freeSlot?_isSome (l := u.loops[lp]) (i := i) (by rw [hu]; exact hi)
      obtain ⟨v0, v1, hslot'⟩ := hslots k hk
      refine ⟨k, ?_⟩
      change ((z.loops[lp]).slots[k]).use = _ ∧ _
      rw [show (({ s with yard := z } : State).finish.yard.loops[lp]).slots[k] = (z.loops[lp]).slots[k] from rfl, hslot']
      exact ⟨rfl, rfl, rfl, rfl, rfl⟩
  case lost =>
    refine exec_fails_told hs ht hw (hfails c hc) ?_ (l := { s.yard.loops[lp] with
      current := none, errors := satInc s.yard.loops[lp].errors
      posts := Tab.put Post.reset s.yard.loops[lp].posts t.post
        { p with errors := min (p.errors + 8) 255, recovery := some 10000 } }) (by rw [ho]; decide)
    rw [Yard.ended_error _ _ _ hslot, judged_probed
      (l := { s.yard.loops[lp] with current := none, errors := satInc s.yard.loops[lp].errors }) .error hfn hp.symm hpres hconf]
    exact probeOutcome_error hp.symm
  case sent =>
    have hne : t.fn ≠ .probe := by rw [hfn]; decide
    obtain ⟨herr, hdconf, hdpres⟩ := p.deliver_keeps sl
    let l' : LoopRec := { s.yard.loops[lp] with
      current := none
      posts := Tab.put Post.reset s.yard.loops[lp].posts t.post (p.deliver sl)
      slots := s.yard.loops[lp].slots.set i OutSlot.empty }
    have hpost : l'.post t.post = p.deliver sl := LoopRec.post_put_present s.yard.loops[lp] _ (hdpres.trans hpres)
    have hcount : (p.deliver sl).counted .good = p.errors - 1 := congrArg (· - 1) herr
    have hjudged := judged_polled (y := s.yard) (lp := lp) (e := .good) (rs := if sl.origin = .host then [.sendDone lp i] else [])
      (l := l') hne hpost (hdpres.trans hpres) (by rw [hdconf, hconf]; decide) (by rw [hcount]; omega)
      (conf := .heard) (by rw [hcount, if_neg]; omega)
    rw [if_pos (hdconf.trans hconf), List.append_nil, hcount] at hjudged
    have hended := Yard.ended_sent (y := s.yard) hslot hsl hover
    rw [hslp, ← hp] at hended
    refine ⟨_, exec_good_told hs ht hw hr hv hrec (by rw [hended]; exact hjudged) (by exact ho ▸ (by decide)), ?_, ?_, ?_, rfl⟩
    · rw [show ((s.withLoop lp _).reported _).yard.loops[lp] = _ from State.withLoop_get s lp _]
      rfl
    · rw [show ((s.withLoop lp _).reported _).yard.loops[lp] = _ from State.withLoop_get s lp _]
      rfl
    · rw [show ((s.withLoop lp _).reported _).yard.loops[lp] = _ from State.withLoop_get s lp _]
      refine (LoopRec.post_put_present _ _ ?_).trans ((p.deliver_counted sl _ hconf).trans (by cases sl.kind <;> rfl))
      exact hdpres.trans hpres
  case retried =>
    have hne : t.fn ≠ .probe := by rw [hfn]; decide
    have hcount : p.counted .error = p.errors + 8 := Nat.min_eq_left (by omega)
    have hjudged := judged_polled (y := s.yard) (lp := lp) (e := .error) (rs := [])
      (l := { s.yard.loops[lp] with
        current := none, errors := satInc s.yard.loops[lp].errors
        slots := s.yard.loops[lp].slots.set i { sl with use := .pending, fails := sl.fails + 1 } })
      hne hp.symm hpres (by rw [hconf]; decide) (by omega) (conf := .heard) (by rw [hcount, if_neg]; omega)
    rw [hcount, if_pos hconf, List.append_nil, ← hconf] at hjudged
    refine exec_fails_told hs ht hw (hfails c hc) ?_ (l := { s.yard.loops[lp] with
      current := none, errors := satInc s.yard.loops[lp].errors
      slots := s.yard.loops[lp].slots.set i { sl with use := .pending, fails := sl.fails + 1 }
      posts := Tab.put Post.reset s.yard.loops[lp].posts t.post { p with errors := p.errors + 8 } }) (by rw [ho]; decide)
    rw [Yard.ended_retried hslot hsl (by rw [hslp, ← hp]; exact hpres) hf]
    exact hjudged
  case undelivered =>
    have hne : t.fn ≠ .probe := by rw [hfn]; decide
    have hcount : p.counted .error = p.errors + 8 := Nat.min_eq_left (by omega)
    have hjudged := judged_polled (y := s.yard) (lp := lp) (e := .error)
      (rs := [.sendUndelivered lp sl.post sl.kind sl.v0 sl.v1 sl.origin]) (l := { s.yard.loops[lp] with
        current := none, errors := satInc s.yard.loops[lp].errors, undelivered := satInc s.yard.loops[lp].undelivered
        slots := s.yard.loops[lp].slots.set i OutSlot.empty })
      hne hp.symm hpres (by rw [hconf]; decide) (by omega) (conf := .heard) (by rw [hcount, if_neg]; omega)
    rw [hcount, if_pos hconf, List.append_nil, ← hconf] at hjudged
    refine exec_fails_told hs ht hw (hfails c hc) ?_ (l := { s.yard.loops[lp] with
      current := none, errors := satInc s.yard.loops[lp].errors, undelivered := satInc s.yard.loops[lp].undelivered
      slots := s.yard.loops[lp].slots.set i OutSlot.empty
      posts := Tab.put Post.reset s.yard.loops[lp].posts t.post { p with errors := p.errors + 8 } }) (by rw [ho]; decide)
    rw [Yard.ended_undelivered hslot hsl hover hf, ← hslp]
    rw [← hslp] at hjudged
    exact hjudged

end Sys2Proof.Machine
end

section
/-! PROOF. Keypad records heard while the loop is lent, and where each goes (R80 to R83, R85, R148). -/

namespace Sys2Proof.Machine

/-! ## The form check, record by record (R81) -/

theorem toNat_ofNat_small {n : Nat} (h : n < 256) : (BitVec.ofNat 8 n).toNat = n :=
  Nat.mod_eq_of_lt h

theorem formOf_help {side : Byte} (h : side.toNat ≤ 1) : formOf [0x04#8, side] = some (.help side.toNat) := by
  exact if_neg (Nat.not_lt.2 h)

theorem formOf_checkin {side c2 c1 c0 : Byte} {wish : Bool} (h : side.toNat ≤ 1)
    (hc : c2.toNat * 65536 + c1.toNat * 256 + c0.toNat ≤ 999999) :
    formOf [0x01#8, side, c2, c1, c0, if wish then 1#8 else 0#8] =
      some (.checkin side.toNat (c2.toNat * 65536 + c1.toNat * 256 + c0.toNat) wish) := by
  have hcode : c2.toNat * 65536 + getU16 c1 c0 = c2.toNat * 65536 + c1.toNat * 256 + c0.toNat := by
    rw [getU16, Nat.add_assoc]
  have hflag : flagOf (if wish then 1#8 else 0#8 : Byte).toNat = some wish := by cases wish <;> rfl
  refine (if_neg (Nat.not_lt.2 h)).trans ?_
  change (if c2.toNat * 65536 + getU16 c1 c0 ≤ 999999 then
    (flagOf (if wish then 1#8 else 0#8 : Byte).toNat).map fun w =>
      KeyRecord.checkin side.toNat (c2.toNat * 65536 + getU16 c1 c0) w else none) = _
  rw [hcode, if_pos hc, hflag]
  rfl

theorem formOf_cancel {side hi lo : Byte} (h : side.toNat ≤ 1) (h1 : 1 ≤ hi.toNat * 256 + lo.toNat)
    (h2 : hi.toNat * 256 + lo.toNat ≤ 9999) :
    formOf [0x03#8, side, hi, lo] = some (.cancel side.toNat (hi.toNat * 256 + lo.toNat)) := by
  exact (if_neg (Nat.not_lt.2 h)).trans (if_pos ⟨h1, h2⟩)

theorem linePairs_keyed {lines : List WireLine} (h : ∀ x ∈ lines, x.item ≤ 63 ∧ 1 ≤ x.qty ∧ x.qty ≤ 9) :
    linePairs (lines.map fun x => [BitVec.ofNat 8 x.item, BitVec.ofNat 8 x.qty]).flatten = lines := by
  induction lines with
  | nil => rfl
  | cons x lines ih =>
    obtain ⟨hitem, hone, hqty⟩ := h x List.mem_cons_self
    simp only [List.map_cons, List.flatten_cons, List.cons_append, List.nil_append, linePairs,
      toNat_ofNat_small (show x.item < 256 by omega), toNat_ofNat_small (show x.qty < 256 by omega),
      ih fun y hy => h y (List.mem_cons_of_mem _ hy)]

theorem length_pairs (lines : List WireLine) :
    (lines.map fun x => [BitVec.ofNat 8 x.item, BitVec.ofNat 8 x.qty]).flatten.length = 2 * lines.length := by
  induction lines with
  | nil => rfl
  | cons x lines ih =>
    simp only [List.map_cons, List.flatten_cons, List.length_append, List.length_cons, List.length_nil, ih]
    omega

theorem formOf_order {side : Byte} {md : OrderMode} {lines : List WireLine} (h : side.toNat ≤ 1) (h1 : 1 ≤ lines.length)
    (h8 : lines.length ≤ 8) (hk : ∀ x ∈ lines, x.item ≤ 63 ∧ 1 ≤ x.qty ∧ x.qty ≤ 9) :
    formOf (0x02#8 :: side :: BitVec.ofNat 8 md.ctorIdx :: BitVec.ofNat 8 lines.length ::
      (lines.map fun x => [BitVec.ofNat 8 x.item, BitVec.ofNat 8 x.qty]).flatten) =
      some (.order side.toNat md lines) := by
  have hlen : (BitVec.ofNat 8 lines.length).toNat = lines.length := toNat_ofNat_small (by omega)
  have hmode : OrderMode.of (BitVec.ofNat 8 md.ctorIdx).toNat = some md := by cases md <;> rfl
  have hkeyed : lines.all WireLine.keyed = true := by
    rw [List.all_eq_true]
    intro x hx
    obtain ⟨hitem, hone, hqty⟩ := hk x hx
    simp [WireLine.keyed, hitem, hone, hqty]
  have hpairs := linePairs_keyed hk
  have hplen := length_pairs lines
  refine (if_neg (Nat.not_lt.2 h)).trans ?_
  generalize (lines.map fun x => [BitVec.ofNat 8 x.item, BitVec.ofNat 8 x.qty]).flatten = pairs at hpairs hplen ⊢
  change (if 1 ≤ (BitVec.ofNat 8 lines.length).toNat ∧ (BitVec.ofNat 8 lines.length).toNat ≤ 8 ∧
      pairs.length = 2 * (BitVec.ofNat 8 lines.length).toNat ∧ (linePairs pairs).all WireLine.keyed then
    (OrderMode.of (BitVec.ofNat 8 md.ctorIdx).toNat).map fun m => KeyRecord.order side.toNat m (linePairs pairs)
    else none) = _
  rw [hlen, hpairs, hmode, if_pos ⟨h1, h8, hplen, hkeyed⟩]
  rfl

/-! ## A record taken (R80 to R82) -/

section take
variable {y : Yard} {site : Site} {lp : ScreenId} {post : Nat} {seq : Byte} {rest : List Byte}

/-- A loop's record that has accepted a sequence from a post. -/
def LoopRec.accepted (l : LoopRec) (post : Nat) (n : Nat) : LoopRec :=
  l.setPost post { l.post post with lastSeq := some n }

theorem Yard.takeRecord_bad (h : 1 < seq.toNat) : y.takeRecord site lp post (seq :: rest) =
    y.told lp { y.loops[lp] with badRecords := satInc y.loops[lp].badRecords } [] := by
  rw [Yard.takeRecord, if_pos h, Yard.modLoop_told]
  rfl

theorem Yard.takeRecord_repeat (h : seq.toNat ≤ 1) (hs : ((y.loops[lp]).post post).lastSeq = some seq.toNat) :
    y.takeRecord site lp post (seq :: rest) = y.told lp { y.loops[lp] with repeats := satInc y.loops[lp].repeats } [] := by
  rw [Yard.takeRecord, if_neg (Nat.not_lt.2 h), if_pos hs, Yard.modLoop_told]

theorem Yard.takeRecord_formless (h : seq.toNat ≤ 1) (hs : ((y.loops[lp]).post post).lastSeq ≠ some seq.toNat)
    (hf : formOf rest = none) : y.takeRecord site lp post (seq :: rest) =
      y.told lp { (y.loops[lp]).accepted post seq.toNat with badRecords := satInc y.loops[lp].badRecords } [] := by
  rw [Yard.takeRecord, if_neg (Nat.not_lt.2 h), if_neg hs]
  simp only [hf]
  rw [Yard.modLoop_told y, Yard.told_modLoop]
  rfl

theorem Yard.takeRecord_formed (h : seq.toNat ≤ 1) (hs : ((y.loops[lp]).post post).lastSeq ≠ some seq.toNat)
    {rec : KeyRecord} (hf : formOf rest = some rec) : y.takeRecord site lp post (seq :: rest) =
      (y.told lp { (y.loops[lp]).accepted post seq.toNat with
        rows := Tab.put false y.loops[lp].rows (postRow lp post) true } []).deliver site lp post rec := by
  rw [Yard.takeRecord, if_neg (Nat.not_lt.2 h), if_neg hs]
  simp only [hf]
  rw [Yard.modLoop_told y, Yard.told_modLoop]
  rfl

theorem Yard.postOrder_accepted {bay : Nat} {mode : OrderMode} {lines : List WireLine} {n total : Nat} {first : OrderState}
    {v : Yard} (h : y.intake site bay mode lines .post = (.accepted n total first, v)) :
    y.postOrder site bay mode lines = v.placePassing bay 0x01 := by
  unfold Yard.postOrder
  rw [h]
  rfl

theorem Yard.postOrder_refused {bay : Nat} {mode : OrderMode} {lines : List WireLine} {reason : Result} {item : Option Nat}
    {v : Yard} (h : y.intake site bay mode lines .post = (.refused reason item, v)) :
    y.postOrder site bay mode lines = (v.placePassing bay reason.lamp).raise (.orderRefused bay .post reason item) := by
  unfold Yard.postOrder
  rw [h]

theorem Yard.hear_taken {bytes : List Byte} {r : Response} (ho : (y.loops[lp]).owner = .lent ∨ (y.loops[lp]).owner = .reclaiming)
    (hr : responseOf bytes = some r) (ha : r.address ≤ 127) (hv : r.valid r.address = some .done) :
    y.hear site lp bytes = y.takeRecord site lp r.address r.record := by
  unfold Yard.hear
  simp only [ho, if_true, hr, ha, hv, and_self]

end take

/-- Settles O36, by the sequence byte, the form check and the kind of record. -/
theorem heardRecordsTaken : Obligations.HeardRecordsTaken := by
  unfold Obligations.HeardRecordsTaken
  rintro s lp l bytes r seq rest hs rfl
  refine ⟨fun ho => ?unheard, fun ho hr ha hv hrec => ?heard⟩
  case unheard =>
    refine event_yard_same (f := fun s y => y.hear s.site lp bytes) hs (if_neg ?_)
    rcases ho with ho | ho <;> rw [ho] <;> decide
  have hhear : s.yard.hear s.site lp bytes = s.yard.takeRecord s.site lp r.address (seq :: rest) := by
    rw [Yard.hear_taken ho hr ha hv, hrec]
  have hexec : exec (.lentResponseHeard lp bytes) s =
      .next ({ s with yard := s.yard.takeRecord s.site lp r.address (seq :: rest) } : State).finish := by
    rw [← hhear]
    rfl
  have htold {l' : LoopRec} {rs : List Report}
      (h : s.yard.takeRecord s.site lp r.address (seq :: rest) = s.yard.told lp l' rs) :
      exec (.lentResponseHeard lp bytes) s = .next ((s.withLoop lp l').reported rs) := by
    rw [hexec, h, State.finish_told hs]
  refine ⟨fun h => htold (Yard.takeRecord_bad h), fun h hseq => htold (Yard.takeRecord_repeat h hseq),
    fun h hseq hf => htold (Yard.takeRecord_formless h hseq hf), fun h hseq side hside hrest => ?help, hrec ▸ hexec,
    fun h hseq side bay u hside hbay hu => ?deliver⟩
  case help =>
    have hn : (BitVec.ofNat 8 side).toNat = side := toNat_ofNat_small (by omega)
    have hform : formOf rest = some (.help side) := by
      rw [hrest, formOf_help (by omega), hn]
    refine htold ((Yard.takeRecord_formed h hseq hform).trans ?_)
    exact Yard.told_raise _ _ _ _ _
  case deliver =>
    have hdeliver {rec : KeyRecord} (hf : formOf rest = some rec) : exec (.lentResponseHeard lp bytes) s =
        .next ({ u with yard := u.yard.deliver s.site lp r.address rec } : State).finish := by
      rw [hexec, Yard.takeRecord_formed h hseq hf, Yard.told_nil, hu]
      rfl
    refine ⟨fun c2 c1 c0 wish code hrest hcode hle => ?_, fun hi lo order hrest horder h1 h2 => ?_,
      fun md lines v hrest h1 h8 hk => ⟨fun n total first hacc => ?_, fun reason item href => ?_⟩⟩
    · subst hcode hbay
      exact hdeliver (by rw [hrest, formOf_checkin hside hle])
    · subst horder hbay
      exact hdeliver (by rw [hrest, formOf_cancel hside h1 h2])
    · rw [hdeliver (by rw [hrest, formOf_order hside h1 h8 hk])]
      subst hbay
      exact congrArg (fun y => Host.Outcome.next ({ u with yard := y } : State).finish) (Yard.postOrder_accepted hacc)
    · rw [hdeliver (by rw [hrest, formOf_order hside h1 h8 hk])]
      subst hbay
      exact congrArg (fun y => Host.Outcome.next ({ u with yard := y } : State).finish) (Yard.postOrder_refused href)

end Sys2Proof.Machine
end

section
/-! PROOF. A lane's operations, each with what it leaves of the lane's record and what it reports; detector and feedback
changes (R91 to R93). -/

namespace Sys2Proof.Machine

/-! ## The parts of a lane that follow the lines -/

/-- Whether a run leaves the detectors and the feedback as they are. -/
def GateRun.keepsLines (w v : GateRun) : Prop :=
  v.lane.arming = w.lane.arming ∧ v.lane.barrierLoop = w.lane.barrierLoop ∧ v.lane.feedback = w.lane.feedback

section lines
variable {w u v : GateRun}

theorem GateRun.keepsLines.refl (w : GateRun) : w.keepsLines w := ⟨rfl, rfl, rfl⟩

theorem GateRun.keepsLines.trans (h : w.keepsLines u) (k : u.keepsLines v) : w.keepsLines v :=
  ⟨k.1.trans h.1, k.2.1.trans h.2.1, k.2.2.trans h.2.2⟩

theorem GateRun.keepsLines_lower (w : GateRun) : w.keepsLines w.lower := by
  obtain ⟨b, t, h⟩ := w.lower_keeps
  unfold GateRun.keepsLines
  rw [h]
  exact ⟨rfl, rfl, rfl⟩

theorem GateRun.keepsLines_enterEmpty (w : GateRun) : w.keepsLines w.enterEmpty := by
  unfold GateRun.enterEmpty
  split <;> exact ⟨rfl, rfl, rfl⟩

theorem GateRun.keepsLines_enterIdle (w : GateRun) : w.keepsLines w.enterIdle := by
  unfold GateRun.enterIdle
  split
  · exact ⟨rfl, rfl, rfl⟩
  · exact w.keepsLines_enterEmpty

theorem GateRun.keepsLines_giveBack (w : GateRun) : w.keepsLines w.giveBack := by
  unfold GateRun.keepsLines
  rw [GateRun.giveBack_lane]
  exact ⟨rfl, rfl, rfl⟩

theorem GateRun.keepsLines_withdraw (w : GateRun) (cause : WithdrawCause) : w.keepsLines (w.withdraw cause) :=
  (w.keepsLines_lower.trans (GateRun.keepsLines_giveBack _)).trans (GateRun.keepsLines_enterIdle _)

theorem GateRun.keepsLines_settleCrossing (w : GateRun) : w.keepsLines w.settleCrossing := by
  obtain ⟨c, h⟩ := w.settleCrossing_lane
  unfold GateRun.keepsLines
  rw [h]
  exact ⟨rfl, rfl, rfl⟩

theorem GateRun.keepsLines_completeCrossing (w : GateRun) : w.keepsLines w.completeCrossing := by
  unfold GateRun.completeCrossing
  dsimp only
  split <;> exact w.keepsLines_settleCrossing.trans (GateRun.keepsLines_lower _)

theorem GateRun.keepsLines_armingMoved (w : GateRun) (old new : Detector) : w.keepsLines (w.armingMoved old new) := by
  unfold GateRun.armingMoved
  cases w.lane.state with
  | empty => dsimp only; split <;> exact ⟨rfl, rfl, rfl⟩
  | present =>
    dsimp only
    split
    · exact GateRun.keepsLines_enterEmpty _
    · exact .refl w
  | opening =>
    dsimp only
    split
    · exact w.keepsLines_withdraw _
    · exact ⟨rfl, rfl, rfl⟩
  | closed | passing | closing | stalled => exact .refl w

theorem GateRun.keepsLines_barrierOccupied (w : GateRun) : w.keepsLines w.barrierOccupied := by
  unfold GateRun.barrierOccupied
  cases w.lane.state <;> exact ⟨rfl, rfl, rfl⟩

/-- A vehicle over the barrier loop leaves the barrier's command. -/
theorem GateRun.barrierOccupied_command (w : GateRun) : w.barrierOccupied.lane.command = w.lane.command := by
  unfold GateRun.barrierOccupied
  cases w.lane.state <;> rfl

theorem GateRun.keepsLines_barrierCleared (w : GateRun) : w.keepsLines w.barrierCleared := by
  unfold GateRun.barrierCleared
  cases w.lane.state with
  | closed => exact w.keepsLines_lower
  | passing | stalled => exact w.keepsLines_completeCrossing
  | empty | present | opening | closing => exact .refl w

theorem GateRun.keepsLines_lift (w : GateRun) : w.keepsLines w.lift := by
  obtain ⟨-, t, h⟩ := w.lane.isOccupied_setBarrier .up
  unfold GateRun.keepsLines
  rw [GateRun.lift_lane, h]
  exact ⟨rfl, rfl, rfl⟩

/-! ## The lines followed -/

theorem GateRun.arming_follows (w : GateRun) (d : Detector) : (w.arming d).lane.arming = d ∧
    (w.arming d).lane.barrierLoop = w.lane.barrierLoop ∧ (w.arming d).lane.feedback = w.lane.feedback := by
  unfold GateRun.arming
  dsimp only
  split
  · next h => exact ⟨h, rfl, rfl⟩
  · obtain ⟨ha, hb, hf⟩ := GateRun.keepsLines_armingMoved
      ((w.mod fun l => { l with arming := d }).detectorReports .arming w.lane.arming d) w.lane.arming d
    rw [GateRun.detectorReports_lane] at ha hb hf
    exact ⟨ha, hb, hf⟩

theorem GateRun.barrierLoop_follows (w : GateRun) (d : Detector) : (w.barrierLoop d).lane.barrierLoop = d ∧
    (w.barrierLoop d).lane.arming = w.lane.arming ∧ (w.barrierLoop d).lane.feedback = w.lane.feedback ∧
    (Detector.isOccupied w.lane.barrierLoop = false → Detector.isOccupied d = true →
      (w.barrierLoop d).lane.command = .up) := by
  unfold GateRun.barrierLoop
  dsimp only
  split
  · next h =>
    refine ⟨h, rfl, rfl, fun hold hnew => ?_⟩
    rw [h, hnew] at hold
    cases hold
  · generalize hv : (w.mod fun l => { l with barrierLoop := d }).detectorReports .barrier w.lane.barrierLoop d = v
    have hlane : v.lane = { w.lane with barrierLoop := d } := by
      rw [← hv, GateRun.detectorReports_lane]
      rfl
    have hfollows {u : GateRun} (h : v.keepsLines u) : u.lane.barrierLoop = d ∧ u.lane.arming = w.lane.arming ∧
        u.lane.feedback = w.lane.feedback := by
      obtain ⟨ha, hb, hf⟩ := h
      rw [hlane] at ha hb hf
      exact ⟨hb, ha, hf⟩
    cases hold : Detector.isOccupied w.lane.barrierLoop with
    | false =>
      cases hnew : Detector.isOccupied d with
      | true =>
        obtain ⟨hb, ha, hf⟩ := hfollows (v.keepsLines_lift.trans (GateRun.keepsLines_barrierOccupied _))
        refine ⟨hb, ha, hf, fun _ _ => ?_⟩
        change v.lift.barrierOccupied.lane.command = .up
        rw [GateRun.barrierOccupied_command]
        exact (v.lane.isOccupied_setBarrier .up).1
      | false =>
        obtain ⟨hb, ha, hf⟩ := hfollows (.refl v)
        exact ⟨hb, ha, hf, fun _ h => by cases h⟩
    | true =>
      cases hnew : Detector.isOccupied d with
      | true =>
        obtain ⟨hb, ha, hf⟩ := hfollows (.refl v)
        exact ⟨hb, ha, hf, fun h => by cases h⟩
      | false =>
        obtain ⟨hb, ha, hf⟩ := hfollows v.keepsLines_barrierCleared
        exact ⟨hb, ha, hf, fun h => by cases h⟩

theorem GateRun.enterIdle_command (w : GateRun) : w.enterIdle.lane.command = w.lane.command := by
  unfold GateRun.enterIdle GateRun.enterEmpty
  split
  · rfl
  · split <;> rfl

theorem GateRun.feedback_follows (w : GateRun) (f : Feedback) : (w.feedback f).lane.feedback = f ∧
    (w.feedback f).lane.arming = w.lane.arming ∧ (w.feedback f).lane.barrierLoop = w.lane.barrierLoop ∧
    (w.feedback f).lane.command = w.lane.command := by
  unfold GateRun.feedback
  extract_lets old v u
  split
  · next h => exact ⟨h, rfl, rfl, rfl⟩
  · have hu : u.lane.feedback = f ∧ u.lane.arming = w.lane.arming ∧ u.lane.barrierLoop = w.lane.barrierLoop ∧
        u.lane.command = w.lane.command := by
      dsimp only [u]
      split
      · exact ⟨rfl, rfl, rfl, rfl⟩
      · split <;> exact ⟨rfl, rfl, rfl, rfl⟩
    obtain ⟨huf, hua, hub, huc⟩ := hu
    split
    · obtain ⟨ha, hb, hf⟩ := u.keepsLines_enterIdle
      exact ⟨hf.trans huf, ha.trans hua, hb.trans hub, u.enterIdle_command.trans huc⟩
    · exact ⟨huf, hua, hub, huc⟩

end lines

/-! ## An event of one lane -/

/-- One lane as an operation finds it. -/
def State.gateRun (s : State) (ln : LaneId) : GateRun :=
  { id := ln, lane := s.lanes[ln], yard := s.yard, site := s.site }

section event
variable (s : State) (ln : LaneId) (f : GateRun → GateRun)

theorem State.onLane_lane : (s.onLane ln f).lanes[ln] = (f (s.gateRun ln)).lane :=
  Vector.getElem_set_self _

theorem State.onLane_apart : s.apartFromLane ln (s.onLane ln f) := by
  refine ⟨fun k hk => ?_, rfl, rfl⟩
  simp only [State.onLane, Fin.getElem_fin]
  exact Vector.getElem_set_ne _ _ fun h => hk (Fin.ext h.symm)

theorem event_lane_state : ∃ t, event (fun s => s.onLane ln f) s = .next t ∧
    t.lanes[ln] = (f (s.gateRun ln)).lane ∧ s.apartFromLane ln t :=
  ⟨_, rfl, s.onLane_lane ln f, s.onLane_apart ln f⟩

end event

/-- Settles O40, line by line. -/
theorem detectorsFollowed : Obligations.DetectorsFollowed := by
  unfold Obligations.DetectorsFollowed
  intro s ln d f
  refine ⟨?_, ?_, ?_⟩
  · obtain ⟨t, ht, hlane, hapart⟩ := event_lane_state s ln fun w => w.arming d
    obtain ⟨ha, hb, hf⟩ := (s.gateRun ln).arming_follows d
    exact ⟨t, ht, hlane ▸ ha, hlane ▸ hb, hlane ▸ hf, hapart⟩
  · obtain ⟨t, ht, hlane, hapart⟩ := event_lane_state s ln fun w => w.barrierLoop d
    obtain ⟨hb, ha, hf, hc⟩ := (s.gateRun ln).barrierLoop_follows d
    exact ⟨t, ht, hlane ▸ hb, hlane ▸ ha, hlane ▸ hf, hlane ▸ hc, hapart⟩
  · obtain ⟨t, ht, hlane, hapart⟩ := event_lane_state s ln fun w => w.feedback f
    obtain ⟨hf, ha, hb, hc⟩ := (s.gateRun ln).feedback_follows f
    exact ⟨t, ht, hlane ▸ hf, hlane ▸ ha, hlane ▸ hb, hlane ▸ hc, hapart⟩

end Sys2Proof.Machine
end

section
/-! PROOF. What a lane's operations do, as the lane's record that they leave and the reports that they raise; the requests
of a lane (R95, R106, R113). -/

namespace Sys2Proof.Machine

/-! ## A lane's run with another record, that has raised some reports more -/

/-- A lane in the course of a step with another record in place of its own, that has raised some reports more. -/
def GateRun.told (w : GateRun) (l : Lane) (rs : List Report) : GateRun :=
  { w with lane := l, yard := { w.yard with raised := w.yard.raised ++ rs } }

section told
variable (w : GateRun) (l : Lane) (rs : List Report)

theorem GateRun.told_same : w.told w.lane [] = w := by
  simp [GateRun.told]

@[simp] theorem GateRun.told_lane : (w.told l rs).lane = l := rfl
@[simp] theorem GateRun.told_id : (w.told l rs).id = w.id := rfl
@[simp] theorem GateRun.told_site : (w.told l rs).site = w.site := rfl

theorem GateRun.told_told (l' : Lane) (rs' : List Report) : (w.told l rs).told l' rs' = w.told l' (rs ++ rs') := by
  simp [GateRun.told, List.append_assoc]

theorem GateRun.mod_told (f : Lane → Lane) : w.mod f = w.told (f w.lane) [] := by
  simp [GateRun.told, GateRun.mod]

theorem GateRun.raise_told (r : Report) : w.raise r = w.told w.lane [r] := rfl

theorem GateRun.count_told (f : LaneCounts → LaneCounts) :
    w.count f = w.told { w.lane with counts := f w.lane.counts } [] := w.mod_told _

theorem GateRun.answer_told (a : ReaderAnswer) : w.answer a = w.told { w.lane with answer := some a } [] := w.mod_told _

end told

/-! ## The barrier and the detectors' reports -/

theorem Lane.setBarrier_eq (l : Lane) (b : Barrier) :
    l.setBarrier b = { l with command := b, travel := if l.command = b then l.travel else some 10000 } := by
  unfold Lane.setBarrier
  split
  · next h => cases h; rfl
  · rfl

theorem Detector.isOccupied_iff (d : Detector) : Detector.isOccupied d = true ↔ d ≠ .clear := decide_eq_true_iff
theorem Detector.isOccupied_not (d : Detector) : Detector.isOccupied d = false ↔ d = .clear := by
  cases d <;> decide

section ops
variable (w : GateRun)

theorem GateRun.lift_told : w.lift = w.told { w.lane with
    command := .up, travel := if w.lane.command = .up then w.lane.travel else some 10000 } [] := by
  rw [← Lane.setBarrier_eq]
  exact w.mod_told _

theorem GateRun.lower_told (h : w.lane.barrierLoop = .clear) : w.lower = w.told { w.lane with
    command := .down, travel := if w.lane.command = .down then w.lane.travel else some 10000 } [] := by
  rw [← Lane.setBarrier_eq, GateRun.lower, GateRun.mod_told, h]
  rfl

/-- The reports of a change of a detector (R91). -/
def detectorSays (ln : LaneId) (loop : LaneLoop) (old new : Detector) : List Report :=
  if new = .fault then [.detectorFault ln loop] else if old = .fault then [.detectorOk ln loop new] else []

theorem GateRun.detectorReports_told (loop : LaneLoop) (old new : Detector) :
    w.detectorReports loop old new = w.told w.lane (detectorSays w.id loop old new) := by
  unfold GateRun.detectorReports detectorSays
  split
  · rfl
  · split
    · rfl
    · exact w.told_same.symm

/-! ## The states of a lane -/

theorem GateRun.enterEmpty_told : w.enterEmpty = w.told
    { w.lane with state := if w.lane.closeDeferred then .closed else .empty, closeDeferred := false }
    (if w.lane.closeDeferred then [.laneClosed w.id] else []) := by
  unfold GateRun.enterEmpty
  cases h : w.lane.closeDeferred with
  | true => rfl
  | false =>
    rw [if_neg Bool.false_ne_true, GateRun.mod_told, ← h]
    simp only [h, Bool.false_eq_true, if_false]

/-- What the exit read timer of a lane is as the lane enters PRESENT (R107). -/
def Lane.presentTimer (ln : LaneId) (l : Lane) : Option Nat :=
  if 4 ≤ ln.val ∧ l.closeDeferred = false then
    (if l.exitReadSetting = 0 then none else some (l.exitReadSetting * 1000))
  else l.exitRead

theorem GateRun.enterPresent_told :
    w.enterPresent = w.told { w.lane with state := .present, exitRead := w.lane.presentTimer w.id } [] := by
  rw [GateRun.enterPresent, GateRun.mod_told]
  simp only [isExit, decide_eq_true_eq]
  rfl

theorem GateRun.enterIdle_occupied (h : w.lane.arming ≠ .clear) : w.enterIdle = w.enterPresent :=
  if_pos ((Detector.isOccupied_iff _).2 h)

theorem GateRun.enterIdle_clear (h : w.lane.arming = .clear) : w.enterIdle = w.enterEmpty :=
  if_neg (by rw [h]; decide)

theorem GateRun.enterOpening_told (p : Pending) : w.enterOpening p = w.told { w.lane with
    command := .up, travel := if w.lane.command = .up then w.lane.travel else some 10000,
    state := .opening, pending := p, exitRead := none,
    dwell := if w.lane.dwellSetting = 0 then none else some (w.lane.dwellSetting * 1000) } [] := by
  rw [GateRun.enterOpening, GateRun.lift_told, GateRun.mod_told, GateRun.told_told]
  rfl

theorem GateRun.enterPassing_told : w.enterPassing = w.told { w.lane with
    state := .passing, stall := if w.lane.stallSetting = 0 then none else some (w.lane.stallSetting * 1000),
    dwell := none, exitRead := none } [] :=
  w.mod_told _

end ops

/-! ## Events and requests of one lane -/

section lane
variable {s : State} {ln : LaneId} {f : GateRun → GateRun} {l : Lane} {rs : List Report} {y : Yard}

/-- An event of a lane that changes the lane's record, and the yard by its reports alone. -/
theorem event_lane (hs : s.settled) (hf : f (s.gateRun ln) = (s.gateRun ln).told l rs) :
    event (fun s => s.onLane ln f) s = .next ((s.withLane ln l).reported rs) := by
  have hon : s.onLane ln f = (s.withLane ln l).raiseAll rs := by
    change (let w := f (s.gateRun ln); { s with lanes := s.lanes.set ln w.lane, yard := w.yard }) = _
    rw [hf]
    rfl
  rw [event_next, hon]
  exact congrArg _ (State.finish_raiseAll _ _ hs)

theorem event_lane_same (hs : s.settled) (hf : f (s.gateRun ln) = s.gateRun ln) :
    event (fun s => s.onLane ln f) s = .next (s.reported []) := by
  rw [event_lane hs (hf.trans (GateRun.told_same _).symm)]
  congr 2
  simp [State.withLane, State.gateRun]

/-- An event of a lane that changes the yard too. -/
theorem event_lane_yard (hl : (f (s.gateRun ln)).lane = l)
    (hy : (f (s.gateRun ln)).yard = { y with raised := rs }) (hr : y.raised = []) :
    event (fun s => s.onLane ln f) s = .next (({ s with lanes := s.lanes.set ln l, yard := y } : State).reported rs) := by
  have hon : s.onLane ln f = ({ s with lanes := s.lanes.set ln l, yard := y } : State).raiseAll rs := by
    change (let w := f (s.gateRun ln); { s with lanes := s.lanes.set ln w.lane, yard := w.yard }) = _
    dsimp only
    rw [hl, hy, State.raiseAll, hr]
    rfl
  rw [event_next, hon]
  exact congrArg _ (State.finish_raiseAll _ _ hr)

variable {kind tag : Nat} {body : State → Reply × State} {r : Reply}

theorem request_lane (hs : s.ready) (hb : body s = (r, s.onLane ln f)) (hf : f (s.gateRun ln) = (s.gateRun ln).told l rs) :
    request kind tag body s = .next ((s.withLane ln l).answered kind tag r rs) := by
  refine request_answers kind tag body s (s.withLane ln l) r rs hs.2 ?_ hs.1
  rw [hb]
  change (r, (let w := f (s.gateRun ln); ({ s with lanes := s.lanes.set ln w.lane, yard := w.yard } : State))) = _
  rw [hf]
  rfl

end lane

/-! ## LANE OPEN, LANE CLOSE and LANE SET -/

theorem Reply.setting_iff {p q : Prop} [Decidable p] [Decidable q] (h : q ↔ ¬p) (used : List Byte) :
    Reply.setting (decide q) used =
      if p then Reply.ok else { result := .clamped, indication := .none, fields := [.raw used] } := by
  rw [decide_eq_decide.2 h, Reply.setting_eq]

section requests
variable {s : State} {ln : LaneId} {rs : List Report} (tag : Nat)

theorem exec_laneOpen (hs : s.ready) (hrun : s.link.part = .run) {l : Lane}
    (hf : (s.gateRun ln).openLane = (s.gateRun ln).told l rs) :
    exec (.laneOpen tag ln.val) s = .next ((s.withLane ln l).answered 0x17 tag Reply.ok rs) := by
  refine request_lane (f := GateRun.openLane) hs ?_ hf
  rw [withFin_val, inRun_run _ _ hrun]
  rfl

theorem GateRun.openLane_closed {w : GateRun} (h : w.lane.state = .closed) (hb : w.lane.barrierLoop = .clear) :
    w.openLane = w.enterIdle := by
  rw [GateRun.openLane, if_pos h, hb]
  rfl

/-- LANE OPEN and its barrier's loop occupied (R95). -/
theorem GateRun.openLane_under {w : GateRun} (h : w.lane.state = .closed) (hb : w.lane.barrierLoop ≠ .clear) :
    w.openLane = w.enterPassing := by
  rw [GateRun.openLane, if_pos h, if_pos ((Detector.isOccupied_iff _).2 hb)]

theorem exec_laneClose (hs : s.ready) {l : Lane} {deferred : Bool}
    (hf : (s.gateRun ln).closeLane = (deferred, (s.gateRun ln).told l rs)) :
    exec (.laneClose tag ln.val) s = .next ((s.withLane ln l).answered 0x18 tag
      (if deferred then Reply.okNote .deferred else Reply.ok) rs) := by
  refine request_lane (f := fun w => w.closeLane.2) hs ?_ (congrArg Prod.snd hf)
  rw [withFin_val]
  change ((if (s.gateRun ln).closeLane.1 then _ else _), _) = _
  rw [hf]

theorem GateRun.closeLane_deferred {w : GateRun}
    (h : w.lane.state ∈ [LaneState.opening, .passing, .closing, .stalled]) :
    w.closeLane = (true, w.told { w.lane with closeDeferred := true } []) := by
  rw [← GateRun.mod_told w fun l => { l with closeDeferred := true }, GateRun.closeLane]
  generalize w.lane.state = st at h
  cases st with
  | opening | passing | closing | stalled => rfl
  | closed | empty | present => simp at h

theorem exec_laneSet_entry (hs : s.ready) (h : ln.val < 4) (dwell stall : Nat) (sent : Option Nat) :
    exec (.laneSet tag ln.val dwell stall sent) s = .next ((s.withLane ln { s.lanes[ln] with
      dwellSetting := clampTimer 5 120 dwell, stallSetting := clampTimer 30 600 stall }).answered 0x19 tag
      (Reply.setting (decide (clampTimer 5 120 dwell ≠ dwell ∨ clampTimer 30 600 stall ≠ stall))
        (u8 (clampTimer 5 120 dwell) ++ u16 (clampTimer 30 600 stall) ++ opt u8 none)) []) := by
  refine request_lane (f := fun w => w.mod fun l =>
    { l with dwellSetting := clampTimer 5 120 dwell, stallSetting := clampTimer 30 600 stall }) hs ?_ (GateRun.mod_told _ _)
  rw [withFin_val]
  exact if_neg (by simpa [isExit] using h)

theorem exec_laneSet_malformed (hs : s.ready) (h : 4 ≤ ln.val) (dwell stall : Nat) :
    exec (.laneSet tag ln.val dwell stall none) s = .next (s.answered 0x19 tag (Reply.refuse .unknown) []) := by
  refine request_refused 0x19 tag _ s .unknown hs ?_
  rw [withFin_val]
  exact if_pos (by simpa [isExit] using h)

theorem exec_laneSet_exit (hs : s.ready) (h : 4 ≤ ln.val) (dwell stall e : Nat) :
    exec (.laneSet tag ln.val dwell stall (some e)) s = .next ((s.withLane ln { s.lanes[ln] with
      dwellSetting := clampTimer 5 120 dwell, stallSetting := clampTimer 30 600 stall,
      exitReadSetting := clampTimer 2 60 e }).answered 0x19 tag
      (Reply.setting
        (decide (clampTimer 5 120 dwell ≠ dwell ∨ clampTimer 30 600 stall ≠ stall ∨ clampTimer 2 60 e ≠ e))
        (u8 (clampTimer 5 120 dwell) ++ u16 (clampTimer 30 600 stall) ++ opt u8 (some (clampTimer 2 60 e)))) []) := by
  refine request_lane (f := fun w => w.mod fun l => { l with
    dwellSetting := clampTimer 5 120 dwell, stallSetting := clampTimer 30 600 stall, exitReadSetting := clampTimer 2 60 e })
    hs ?_ (GateRun.mod_told _ _)
  rw [withFin_val]
  exact if_pos (by simpa [isExit] using h)

end requests

/-- Settles O45, request by request. -/
theorem laneRequestsTaken : Obligations.LaneRequestsTaken := by
  unfold Obligations.LaneRequestsTaken
  intro s tag ln l hs hl
  subst hl
  refine ⟨?_, ?_, ?_, ?_, ?_, ?_, ?_, ?_, ?_, ?_⟩
  · intro hrun hst hb ha hd
    refine exec_laneOpen tag hs hrun ?_
    rw [GateRun.openLane_closed hst hb, GateRun.enterIdle_clear _ ha, GateRun.enterEmpty_told]
    simp only [State.gateRun, hd, if_false, Bool.false_eq_true]
  · intro hrun hst hb ha
    refine exec_laneOpen tag hs hrun ?_
    rw [GateRun.openLane_closed hst hb, GateRun.enterIdle_occupied _ ha, GateRun.enterPresent_told]
    rfl
  · intro hrun hst hb
    refine exec_laneOpen tag hs hrun ?_
    rw [GateRun.openLane_under hst hb, GateRun.enterPassing_told]
    rfl
  · intro hrun hst
    exact exec_laneOpen tag hs hrun ((if_neg hst).trans (GateRun.mod_told _ _))
  · intro hsetup
    refine request_refused 0x17 tag _ s .state hs ?_
    rw [withFin_val, inRun_setup _ _ hsetup]
  · intro hst
    have h := exec_laneClose (s := s) (ln := ln) tag hs (l := s.lanes[ln]) (deferred := false) (rs := []) (by
      rw [GateRun.closeLane]
      have : (s.gateRun ln).lane.state = .closed := hst
      rw [this]
      exact congrArg _ (GateRun.told_same _).symm)
    rw [h]
    congr 2
    simp [State.withLane]
  · intro hst
    refine exec_laneClose (deferred := false) tag hs ?_
    rw [GateRun.closeLane]
    have : (s.gateRun ln).lane.state = .empty := hst
    rw [this]
    rfl
  · intro hst
    exact exec_laneClose (deferred := true) tag hs (GateRun.closeLane_deferred hst)
  · intro hst
    refine exec_laneClose (deferred := true) tag hs ?_
    rw [GateRun.closeLane]
    have : (s.gateRun ln).lane.state = .present := hst
    rw [this]
    exact congrArg _ (GateRun.mod_told _ _)
  · rintro dwell stall e d t x rfl rfl rfl
    refine ⟨fun h sent => ?_, fun h => exec_laneSet_malformed tag hs h dwell stall, fun h => ?_⟩
    · rw [exec_laneSet_entry tag hs h, Reply.setting_iff (not_and_or (a := clampTimer 5 120 dwell = dwell)).symm]
      rfl
    · rw [exec_laneSet_exit tag hs h, Reply.setting_iff 
        (p := clampTimer 5 120 dwell = dwell ∧ clampTimer 30 600 stall = stall ∧ clampTimer 2 60 e = e)
        (by rw [not_and_or, not_and_or])]
      rfl

end Sys2Proof.Machine
end

section
/-! PROOF. The index of the tables: which slot a key names, and what the reads by a key answer where nothing is damaged
(R190, R191). -/

namespace Sys2Proof.Machine

/-! ## The records of a table -/

section index
variable {ρ : Type} {t : Tab (Slot ρ)} {i : Nat} {r : ρ} {p : Nat × ρ → Bool}

theorem mem_inUse : (i, r) ∈ inUse t ↔ ∃ sl, (i, sl) ∈ t ∧ sl.record? = some r := by
  simp only [inUse, List.mem_filterMap, Option.map_eq_some_iff, Prod.exists, Prod.mk.injEq]
  constructor
  · rintro ⟨k, sl, hm, r', hr, rfl, rfl⟩
    exact ⟨sl, hm, hr⟩
  · rintro ⟨sl, hm, hr⟩
    exact ⟨i, sl, hm, r, hr, rfl, rfl⟩

/-- A record that a slot reads as is one of the table's. -/
theorem mem_inUse_of_get (h : (Tab.get Slot.blank t i).record? = some r) : (i, r) ∈ inUse t := by
  rcases Tab.get_mem Slot.blank t i with hd | hm
  · rw [hd] at h
    cases h
  · exact mem_inUse.2 ⟨_, hm, h⟩

/-- In a table in canonical form the records are what the slots read as. -/
theorem get_of_mem_inUse [DecidableEq ρ] (hw : Tab.wf Slot.blank t = true) (h : (i, r) ∈ inUse t) :
    (Tab.get Slot.blank t i).record? = some r := by
  obtain ⟨sl, hm, hr⟩ := mem_inUse.1 h
  rw [(Tab.get_of_mem hw hm).1]
  exact hr

/-- No record satisfies a test where the search of the index finds none. -/
theorem get_of_find_none (h : (inUse t).find? p = none) (hr : (Tab.get Slot.blank t i).record? = some r) :
    p (i, r) = false :=
  Bool.eq_false_iff.2 (List.find?_eq_none.1 h _ (mem_inUse_of_get hr))

/-- The records of a table in canonical form from a bound stand in rising order of their slots. -/
theorem inUse_sorted [DecidableEq ρ] {n : Nat} (hw : Tab.wfFrom Slot.blank n t = true) :
    (inUse t).Pairwise (fun a b => a.1 < b.1) ∧ ∀ e ∈ inUse t, n ≤ e.1 := by
  induction t generalizing n with
  | nil => exact ⟨List.Pairwise.nil, fun e h => by cases h⟩
  | cons e t ih =>
    obtain ⟨k, sl⟩ := e
    simp only [Tab.wfFrom, Bool.and_eq_true, decide_eq_true_eq] at hw
    obtain ⟨⟨hk, -⟩, ht⟩ := hw
    obtain ⟨hsorted, hle⟩ := ih ht
    cases hr : sl.record? with
    | none =>
      have heq : inUse ((k, sl) :: t) = inUse t := by simp [inUse, hr]
      rw [heq]
      exact ⟨hsorted, fun e he => by have := hle e he; omega⟩
    | some r =>
      have heq : inUse ((k, sl) :: t) = (k, r) :: inUse t := by simp [inUse, hr]
      rw [heq]
      refine ⟨List.Pairwise.cons (fun e he => hle e he) hsorted, fun e he => ?_⟩
      rcases List.mem_cons.1 he with rfl | he
      · exact hk
      · have := hle e he
        omega

/-- The record that a search of the index finds is the one of the lowest slot that satisfies the test. -/
theorem find_inUse_iff [DecidableEq ρ] (hw : Tab.wf Slot.blank t = true) : (inUse t).find? p = some (i, r) ↔
    (Tab.get Slot.blank t i).record? = some r ∧ p (i, r) = true ∧
      ∀ j < i, ∀ r', (Tab.get Slot.blank t j).record? = some r' → p (j, r') = false := by
  constructor
  · intro h
    have hmem := List.mem_of_find?_eq_some h
    refine ⟨get_of_mem_inUse hw hmem, List.find?_some h, fun j hj r' hr' => ?_⟩
    obtain ⟨-, before, after, hsplit, hbefore⟩ := List.find?_eq_some_iff_append.1 h
    have hj' := mem_inUse_of_get hr'
    have hsorted := (inUse_sorted hw).1
    rw [hsplit] at hj' hsorted
    rcases List.mem_append.1 hj' with hj' | hj'
    · simpa using hbefore _ hj'
    · obtain ⟨-, hsorted, -⟩ := List.pairwise_append.1 hsorted
      rcases List.mem_cons.1 hj' with heq | hj'
      · cases heq
        omega
      · have := (List.pairwise_cons.1 hsorted).1 _ hj'
        dsimp only at this
        omega
  · rintro ⟨hr, hp, hbelow⟩
    cases hf : (inUse t).find? p with
    | none =>
      have hnot := get_of_find_none hf hr
      rw [hp] at hnot
      cases hnot
    | some e =>
      obtain ⟨k, r'⟩ := e
      have hk := get_of_mem_inUse hw (List.mem_of_find?_eq_some hf)
      have hpk := List.find?_some hf
      obtain ⟨-, before, after, hsplit, hbefore⟩ := List.find?_eq_some_iff_append.1 hf
      have hsorted := (inUse_sorted hw).1
      have hi := mem_inUse_of_get hr
      rw [hsplit] at hi hsorted
      obtain ⟨-, hsorted, -⟩ := List.pairwise_append.1 hsorted
      have hik : k ≤ i := by
        rcases List.mem_append.1 hi with hi | hi
        · have := hbefore _ hi
          rw [hp] at this
          cases this
        · rcases List.mem_cons.1 hi with heq | hi
          · cases heq
            exact Nat.le_refl _
          · exact Nat.le_of_lt ((List.pairwise_cons.1 hsorted).1 _ hi)
      rcases Nat.lt_or_eq_of_le hik with hlt | rfl
      · rw [hbelow k hlt r' hk] at hpk
        cases hpk
      · rw [hr] at hk
        cases hk
        rfl

/-- No record satisfies a test exactly where no slot reads as one that does. -/
theorem find_inUse_none [DecidableEq ρ] (hw : Tab.wf Slot.blank t = true) : (inUse t).find? p = none ↔
    ∀ j r', (Tab.get Slot.blank t j).record? = some r' → p (j, r') = false := by
  constructor
  · exact fun h j r' hr => get_of_find_none h hr
  · intro h
    rw [List.find?_eq_none]
    rintro ⟨j, r'⟩ hm hp
    rw [h j r' (get_of_mem_inUse hw hm)] at hp
    cases hp

end index

/-! ## Reads by a key -/

section reads
variable {y : Yard}


theorem Yard.findCar_slot (hw : y.store.canonical = true) {n i : Nat} {c : Car} (h : y.findCar n = some (i, c)) :
    (y.carSlot i).record? = some c ∧ c.number = n := by
  obtain ⟨hcars, -⟩ := (Store.canonical_iff _).1 hw
  obtain ⟨hr, hn, -⟩ := (find_inUse_iff hcars).1 h
  exact ⟨hr, beq_iff_eq.1 hn⟩

theorem Yard.findTicket_slot (hw : y.store.canonical = true) {n i : Nat} {e : Ticket} (h : y.findTicket n = some (i, e)) :
    (y.ticketSlot i).record? = some e ∧ e.ticket = n := by
  obtain ⟨-, -, -, -, htickets⟩ := (Store.canonical_iff _).1 hw
  obtain ⟨hr, hn, -⟩ := (find_inUse_iff htickets).1 h
  exact ⟨hr, beq_iff_eq.1 hn⟩

theorem Yard.findOrder_slot (hw : y.store.canonical = true) {n i : Nat} {o : Order} (h : y.findOrder n = some (i, o)) :
    (y.orderSlot i).record? = some o ∧ o.number = n := by
  obtain ⟨-, -, horders, -⟩ := (Store.canonical_iff _).1 hw
  obtain ⟨hr, hn, -⟩ := (find_inUse_iff horders).1 h
  exact ⟨hr, beq_iff_eq.1 hn⟩

variable (settle : Yard → Yard)

theorem Yard.readCar_absent {n : Nat} (h : y.findCar n = none) : y.readCar settle n = (.absent, y) := by
  rw [Yard.readCar, h]

theorem Yard.readOrder_absent {n : Nat} (h : y.findOrder n = none) : y.readOrder settle n = (.absent, y) := by
  rw [Yard.readOrder, h]

theorem Yard.readTicket_absent {n : Nat} (h : y.findTicket n = none) : y.readTicket settle n = (.absent, y) := by
  rw [Yard.readTicket, h]

theorem Yard.readCar_found (hu : tableUndamaged y.store.cars = true) (hw : y.store.canonical = true) {n i : Nat} {c : Car}
    (h : y.findCar n = some (i, c)) : y.readCar settle n = (.whole c, y) := by
  rw [Yard.readCar, h]
  dsimp only
  rw [Yard.readCarSlot_readable settle (Slot.readable_of_undamaged hu i), (Yard.findCar_slot hw h).1]
  rfl

theorem Yard.readOrder_found (hu : tableUndamaged y.store.orders = true) (hw : y.store.canonical = true) {n i : Nat}
    {o : Order} (h : y.findOrder n = some (i, o)) : y.readOrder settle n = (.whole o, y) := by
  rw [Yard.readOrder, h]
  dsimp only
  rw [Yard.readOrderSlot_readable settle (Slot.readable_of_undamaged hu i), (Yard.findOrder_slot hw h).1]
  rfl

theorem Yard.readTicket_found (hu : tableUndamaged y.store.tickets = true) (hw : y.store.canonical = true) {n i : Nat}
    {e : Ticket} (h : y.findTicket n = some (i, e)) : y.readTicket settle n = (.whole e, y) := by
  rw [Yard.readTicket, h]
  dsimp only
  rw [Yard.readTicketSlot_readable settle (Slot.readable_of_undamaged hu i), (Yard.findTicket_slot hw h).1]
  rfl

/-- A search of slots none of which reads as a car that satisfies the test finds nothing. -/
theorem Yard.searchCars_none (hu : tableUndamaged y.store.cars = true) {q : Car → Bool} {list : List Nat}
    (h : ∀ i ∈ list, ∀ c, (y.carSlot i).record? = some c → q c = false) :
    Yard.searchCars settle q list y = (none, false, y) := by
  induction list with
  | nil => rfl
  | cons i list ih =>
    have ih := ih fun j hj => h j (List.mem_cons_of_mem _ hj)
    rw [Yard.searchCars, Yard.readCarSlot_readable settle (Slot.readable_of_undamaged hu i)]
    cases hr : (y.carSlot i).record? with
    | none => exact ih
    | some c =>
      simp only [Read.of]
      rw [if_neg (by rw [h i List.mem_cons_self c hr]; decide)]
      exact ih

theorem Yard.searchCars_unheld (hu : tableUndamaged y.store.cars = true) {q : Car → Bool}
    (h : (inUse y.store.cars).find? (fun e => q e.2) = none) (list : List Nat) :
    Yard.searchCars settle q list y = (none, false, y) :=
  Yard.searchCars_none settle hu fun i _ c hr => get_of_find_none (i := i) (p := fun e : Nat × Car => q e.2) h hr

/-- A search of the records finds what the index does. -/
theorem Yard.searchCars_entries (hu : tableUndamaged y.store.cars = true) (q : Car → Bool) {list : List (Nat × Car)}
    (h : ∀ e ∈ list, (y.carSlot e.1).record? = some e.2) :
    Yard.searchCars settle q (list.map Prod.fst) y = ((list.find? fun e => q e.2).map Prod.snd, false, y) := by
  induction list with
  | nil => rfl
  | cons e list ih =>
    have ih := ih fun j hj => h j (List.mem_cons_of_mem _ hj)
    rw [List.map_cons, Yard.searchCars, Yard.readCarSlot_readable settle (Slot.readable_of_undamaged hu e.1),
      h e List.mem_cons_self, List.find?_cons]
    cases hq : q e.2 with
    | true => simp [Read.of, hq]
    | false => simpa [Read.of, hq] using ih

theorem Yard.searchCars_undamaged (hu : tableUndamaged y.store.cars = true) (hw : y.store.canonical = true)
    (q : Car → Bool) : Yard.searchCars settle q y.carSlotsInUse y =
      (((inUse y.store.cars).find? fun e => q e.2).map Prod.snd, false, y) := by
  obtain ⟨hcars, -⟩ := (Store.canonical_iff _).1 hw
  exact Yard.searchCars_entries settle hu q fun e he => get_of_mem_inUse (i := e.1) (r := e.2) hcars he

end reads

end Sys2Proof.Machine
end

section
/-! PROOF. A vehicle goes through a lane (R93, R96, R101, R103 to R107, R110). -/

namespace Sys2Proof.Machine

/-! ## The car's moves at the lanes -/

section cars
variable {y : Yard}

theorem Yard.modCar_found {n i : Nat} {c : Car} (h : y.findCar n = some (i, c)) (f : Car → Car) :
    y.modCar n f = y.setCarSlot i ((y.carSlot i).write (f c)) := by
  rw [Yard.modCar, h]

theorem Yard.freeCar_found {n i : Nat} {c : Car} (h : y.findCar n = some (i, c)) :
    y.freeCar n = y.setCarSlot i (y.carSlot i).release := by
  rw [Yard.freeCar, h]

theorem Yard.crossEntry_absent {n : Nat} (h : y.findCar n = none) : y.crossEntry n = (false, y) := by
  rw [Yard.crossEntry, Yard.readCar_absent _ h]

theorem Yard.crossEntry_entering (hu : y.store.undamaged = true) (hw : y.store.canonical = true) {n i : Nat} {c : Car}
    (h : y.findCar n = some (i, c)) (hc : c.state = .entering) : y.crossEntry n =
      (true, (y.setCarSlot i ((y.carSlot i).write { c with state := .onField })).startLimit n) := by
  obtain ⟨hcars, -⟩ := (Store.undamaged_iff _).1 hu
  rw [Yard.crossEntry, Yard.readCar_found _ hcars hw h]
  dsimp only
  rw [if_pos hc, Yard.modCar_found h]

theorem Yard.crossExit_absent {n : Nat} (h : y.findCar n = none) : y.crossExit n = y := by
  rw [Yard.crossExit, Yard.readCar_absent _ h]

/-- A car LEAVING that has no orders departs. -/
theorem Yard.crossExit_leaving (hu : y.store.undamaged = true) (hw : y.store.canonical = true) {n i : Nat} {c : Car}
    (h : y.findCar n = some (i, c)) (hc : c.state = .leaving) (ho : c.orders = []) : y.crossExit n =
      (({ y with
        limits := Tab.put none y.limits n none
        admittedCount := y.admittedCount.set c.screen (y.admittedCount[c.screen] - 1)
        store := { y.store with cars := Tab.put Slot.blank y.store.cars i (y.carSlot i).release } } : Yard).raise
        (.departed n (some c.ticket) (some c.screen) .exit)) := by
  obtain ⟨hcars, -⟩ := (Store.undamaged_iff _).1 hu
  obtain ⟨-, hn⟩ := Yard.findCar_slot hw h
  subst hn
  have hbay : c.parkedBay = none := if_neg (by rw [hc]; decide)
  rw [Yard.crossExit, Yard.readCar_found _ hcars hw h]
  dsimp only
  rw [if_pos hc, Yard.depart, ho, List.foldl_nil, Yard.departBay, hbay]
  dsimp only
  have hfind : ((y.setAdmitted c.screen (y.admittedCount[c.screen] - 1)).stopLimit c.number).findCar c.number =
      some (i, c) := h
  rw [Yard.freeCar_found hfind]
  rfl

end cars

/-! ## The barrier loop -/

section barrier
variable {w : GateRun}

theorem detectorSays_of_clear (ln : LaneId) (loop : LaneLoop) (d : Detector) :
    detectorSays ln loop .clear d = if d = .fault then [.detectorFault ln loop] else [] := rfl

theorem detectorSays_clear (ln : LaneId) (loop : LaneLoop) (d : Detector) :
    detectorSays ln loop d .clear = if d = .fault then [.detectorOk ln loop .clear] else [] := rfl

theorem GateRun.barrierLoop_occupied {d : Detector} (h : w.lane.barrierLoop = .clear) (hd : d ≠ .clear) :
    w.barrierLoop d = (w.told { w.lane with
      barrierLoop := d, command := .up, travel := if w.lane.command = .up then w.lane.travel else some 10000 }
      (if d = .fault then [.detectorFault w.id .barrier] else [])).barrierOccupied := by
  unfold GateRun.barrierLoop
  dsimp only
  rw [h, if_neg (Ne.symm hd), (Detector.isOccupied_iff d).2 hd]
  change ((w.mod _).detectorReports .barrier .clear d).lift.barrierOccupied = _
  rw [GateRun.mod_told, GateRun.detectorReports_told, GateRun.told_told, GateRun.lift_told, GateRun.told_told,
    List.append_nil]
  rfl

/-- A lane as its barrier loop has been read clear, before its state follows. -/
def GateRun.loopClear (w : GateRun) : GateRun :=
  w.told { w.lane with barrierLoop := .clear }
    (if w.lane.barrierLoop = .fault then [.detectorOk w.id .barrier .clear] else [])

theorem GateRun.barrierLoop_cleared (h : w.lane.barrierLoop ≠ .clear) :
    w.barrierLoop .clear = w.loopClear.barrierCleared := by
  unfold GateRun.barrierLoop GateRun.loopClear
  dsimp only
  rw [if_neg h, (Detector.isOccupied_iff _).2 h]
  change ((w.mod _).detectorReports .barrier w.lane.barrierLoop .clear).barrierCleared = _
  rw [GateRun.mod_told, GateRun.detectorReports_told, GateRun.told_told]
  rfl

theorem GateRun.tailgate_told : w.tailgate = w.told { w.lane with
    state := .passing, dwell := none, exitRead := none, pending := .absent,
    stall := if w.lane.stallSetting = 0 then none else some (w.lane.stallSetting * 1000),
    counts := { w.lane.counts with tailgates := satInc w.lane.counts.tailgates } } [.tailgate w.id w.lane.state] := by
  unfold GateRun.tailgate
  dsimp only
  rw [GateRun.enterPassing_told, GateRun.mod_told, GateRun.told_told, GateRun.count_told, GateRun.told_told,
    GateRun.raise_told, GateRun.told_told]
  rfl

theorem GateRun.barrierOccupied_admitted (h : w.lane.state = .opening) : w.barrierOccupied = w.enterPassing := by
  unfold GateRun.barrierOccupied
  rw [h]

theorem GateRun.barrierOccupied_unadmitted (h : w.lane.state ∈ [LaneState.empty, .present, .closing]) :
    w.barrierOccupied = w.tailgate := by
  unfold GateRun.barrierOccupied
  generalize w.lane.state = st at h
  cases st with
  | empty | present | closing => rfl
  | closed | opening | passing | stalled => simp at h

theorem GateRun.barrierCleared_closed (h : w.lane.state = .closed) : w.barrierCleared = w.lower := by
  unfold GateRun.barrierCleared
  rw [h]

theorem GateRun.barrierCleared_crossing (h : w.lane.state ∈ [LaneState.passing, .stalled]) :
    w.barrierCleared = w.completeCrossing := by
  unfold GateRun.barrierCleared
  generalize w.lane.state = st at h
  cases st with
  | passing | stalled => rfl
  | closed | opening | empty | present | closing => simp at h

/-- The end of a crossing, from what the settlement of the pending admission or exit leaves. -/
theorem GateRun.completeCrossing_of {y : Yard} {k : LaneCounts}
    (h : w.settleCrossing = { w with lane := { w.lane with counts := k }, yard := y })
    (hb : w.lane.barrierLoop = .clear) (hc : w.lane.command = .up) :
    w.completeCrossing = ({ w with yard := y } : GateRun).told { w.lane with
      state := .closing, pending := .absent, command := .down, travel := some 10000, stall := none, counts := k }
      (if w.lane.state = .stalled then [.laneStallClear w.id] else []) := by
  unfold GateRun.completeCrossing
  dsimp only
  generalize hv : w.settleCrossing = v at h ⊢
  subst h
  rw [GateRun.lower_told _ (by exact hb), GateRun.mod_told, GateRun.told_told, GateRun.raise_told, GateRun.told_told]
  simp only [GateRun.told_lane, GateRun.told_id, decide_eq_true_eq, hc]
  split <;> rfl

theorem GateRun.settleCrossing_quiet (h : w.lane.pending ∈ [Pending.absent, .anonymous]) :
    w.settleCrossing = { w with
      lane := { w.lane with counts := { w.lane.counts with
        anonymous := (if w.lane.pending = .anonymous then satInc w.lane.counts.anonymous
          else w.lane.counts.anonymous) } } } := by
  unfold GateRun.settleCrossing
  cases hp : w.lane.pending with
  | absent => rfl
  | anonymous => rfl
  | admission | exit => rw [hp] at h; simp at h

/-- The record of the pending car has gone: the crossing is counted alone. -/
theorem GateRun.settleCrossing_gone {n : Nat}
    (h : (∃ ticket sc, w.lane.pending = .admission n ticket sc) ∨ w.lane.pending = .exit n)
    (hn : w.yard.findCar n = none) : w.settleCrossing = { w with
      lane := { w.lane with counts := { w.lane.counts with crossings := satInc w.lane.counts.crossings } } } := by
  unfold GateRun.settleCrossing
  rcases h with ⟨ticket, sc, hp⟩ | hp
  · rw [hp]
    dsimp only
    rw [Yard.crossEntry_absent hn]
    rfl
  · rw [hp]
    dsimp only
    rw [Yard.crossExit_absent hn]
    rfl

theorem GateRun.settleCrossing_entry {n i ticket : Nat} {sc : ScreenId} {c : Car} (hu : w.yard.store.undamaged = true)
    (hw : w.yard.store.canonical = true) (hp : w.lane.pending = .admission n ticket sc)
    (h : w.yard.findCar n = some (i, c)) (hc : c.state = .entering) : w.settleCrossing = { w with
      lane := { w.lane with counts := { w.lane.counts with crossings := satInc w.lane.counts.crossings } }
      yard := ((w.yard.setCarSlot i ((w.yard.carSlot i).write { c with state := .onField })).startLimit n).raise
        (.entered w.id n) } := by
  unfold GateRun.settleCrossing
  rw [hp]
  dsimp only
  rw [Yard.crossEntry_entering hu hw h hc]
  rfl

theorem GateRun.settleCrossing_exit {n : Nat} (hp : w.lane.pending = .exit n) : w.settleCrossing = { w with
    lane := { w.lane with counts := { w.lane.counts with crossings := satInc w.lane.counts.crossings } }
    yard := w.yard.crossExit n } := by
  unfold GateRun.settleCrossing
  rw [hp]
  rfl

/-! ## The arming loop and the feedback -/

theorem GateRun.arming_moved {d : Detector} (h : w.lane.arming ≠ d) :
    w.arming d = (w.told { w.lane with arming := d } (detectorSays w.id .arming w.lane.arming d)).armingMoved
      w.lane.arming d := by
  unfold GateRun.arming
  dsimp only
  rw [if_neg h, GateRun.mod_told, GateRun.detectorReports_told, GateRun.told_told]
  rfl

/-- A vehicle arrives at the arming loop of an EMPTY lane. -/
theorem GateRun.arming_arrives {d : Detector} (hst : w.lane.state = .empty) (ha : w.lane.arming = .clear)
    (hd : d ≠ .clear) : w.arming d = w.told { w.lane with
      arming := d, state := .present, exitRead := w.lane.presentTimer w.id }
      (if d = .fault then [.detectorFault w.id .arming] else []) := by
  rw [GateRun.arming_moved (by rw [ha]; exact hd.symm)]
  unfold GateRun.armingMoved
  rw [GateRun.told_lane]
  dsimp only
  rw [hst]
  dsimp only
  rw [ha, (Detector.isOccupied_iff d).2 hd]
  change GateRun.enterPresent _ = _
  rw [GateRun.enterPresent_told, GateRun.told_told, List.append_nil]
  rfl

/-- A vehicle leaves the arming loop of a lane in PRESENT. -/
theorem GateRun.arming_leaves (hst : w.lane.state = .present) (ha : w.lane.arming ≠ .clear) :
    w.arming .clear = w.told { w.lane with
      arming := .clear, state := if w.lane.closeDeferred then .closed else .empty, closeDeferred := false,
      exitRead := none }
      ((if w.lane.arming = .fault then [.detectorOk w.id .arming .clear] else []) ++
        (if w.lane.closeDeferred then [.laneClosed w.id] else [])) := by
  rw [GateRun.arming_moved ha]
  unfold GateRun.armingMoved
  rw [GateRun.told_lane]
  dsimp only
  rw [hst]
  dsimp only
  rw [(Detector.isOccupied_iff _).2 ha]
  change GateRun.enterEmpty (GateRun.mod _ _) = _
  rw [GateRun.mod_told, GateRun.told_told, GateRun.enterEmpty_told, GateRun.told_told, List.append_nil]
  rfl

/-- The barrier reaches the position DOWN that it is commanded to, in CLOSING. -/
theorem GateRun.feedback_down (hst : w.lane.state = .closing) (hc : w.lane.command = .down)
    (hf : w.lane.feedback ≠ .down) :
    w.feedback .down = (w.told { w.lane with feedback := .down, travel := none } []).enterIdle := by
  unfold GateRun.feedback
  dsimp only
  rw [if_neg hf, GateRun.mod_told]
  rw [GateRun.told_lane]
  dsimp only
  rw [hc, if_pos (show Barrier.reached .down .down = true from rfl), GateRun.mod_told, GateRun.told_told,
    GateRun.told_lane]
  exact if_pos ⟨hst, rfl⟩

end barrier

/-! ## The statement -/

section event
variable {s : State} {ln : LaneId} {l : Lane} {rs : List Report}

theorem exec_barrierLoop (hs : s.settled) {d : Detector} (hf : (s.gateRun ln).barrierLoop d = (s.gateRun ln).told l rs) :
    exec (.barrierLoopChange ln d) s = .next ((s.withLane ln l).reported rs) :=
  event_lane (f := fun w => w.barrierLoop d) hs hf

theorem exec_arming (hs : s.settled) {d : Detector} (hf : (s.gateRun ln).arming d = (s.gateRun ln).told l rs) :
    exec (.armingLoopChange ln d) s = .next ((s.withLane ln l).reported rs) :=
  event_lane (f := fun w => w.arming d) hs hf

theorem exec_feedback (hs : s.settled) {d : Feedback} (hf : (s.gateRun ln).feedback d = (s.gateRun ln).told l rs) :
    exec (.barrierFeedbackChange ln d) s = .next ((s.withLane ln l).reported rs) :=
  event_lane (f := fun w => w.feedback d) hs hf

end event

section crossing
variable {s : State} {ln : LaneId} {y : Yard} {k : LaneCounts} {rs : List Report}

/-- A crossing completes: what the settlement leaves, with the lane in CLOSING. -/
theorem exec_crossing (hst : s.lanes[ln].state ∈ [LaneState.passing, .stalled]) (hb : s.lanes[ln].barrierLoop ≠ .clear)
    (hc : s.lanes[ln].command = .up) (hr : y.raised = [])
    (h : (s.gateRun ln).loopClear.settleCrossing = { (s.gateRun ln).loopClear with
      lane := { (s.gateRun ln).loopClear.lane with counts := k }, yard := { y with raised := rs } }) :
    exec (.barrierLoopChange ln .clear) s = .next (({ s with
      lanes := s.lanes.set ln { s.lanes[ln] with
        barrierLoop := .clear, state := .closing, pending := .absent, command := .down, travel := some 10000,
        stall := none, counts := k }
      yard := y } : State).reported (rs ++ if s.lanes[ln].state = .stalled then [.laneStallClear ln] else [])) := by
  have hrun : (s.gateRun ln).barrierLoop .clear = ({ (s.gateRun ln).loopClear with
      yard := { y with raised := rs } } : GateRun).told { s.lanes[ln] with
        barrierLoop := .clear, state := .closing, pending := .absent, command := .down, travel := some 10000,
        stall := none, counts := k } (if s.lanes[ln].state = .stalled then [.laneStallClear ln] else []) := by
    rw [GateRun.barrierLoop_cleared hb, GateRun.barrierCleared_crossing hst, GateRun.completeCrossing_of h rfl hc]
    rfl
  exact event_lane_yard (f := fun w => w.barrierLoop .clear) (congrArg GateRun.lane hrun) (congrArg GateRun.yard hrun) hr

/-- What the lane's yard has raised once the barrier loop has been read clear. -/
theorem State.loopClear_yard (hs : s.settled) (ln : LaneId) : (s.gateRun ln).loopClear.yard = { s.yard with
    raised := if s.lanes[ln].barrierLoop = .fault then [.detectorOk ln .barrier .clear] else [] } := by
  have hs : s.yard.raised = [] := hs
  simp only [GateRun.loopClear, GateRun.told, State.gateRun, hs, List.nil_append] <;> rfl

end crossing

/-- Settles O43, change by change. -/
theorem vehicleGoesThrough : Obligations.VehicleGoesThrough := by
  unfold Obligations.VehicleGoesThrough
  intro s ln l hs hl
  subst hl
  refine ⟨?_, ?_, ?_, ?_, ?_, ?_⟩
  · rintro d hd fault rfl
    have hd : d ≠ .clear := by
      rintro rfl
      simp at hd
    refine ⟨fun hst hb hc => exec_barrierLoop hs ?_, fun hst hb => exec_barrierLoop hs ?_,
      fun hst ha => exec_arming hs ?_⟩
    · have hc : (s.gateRun ln).lane.command = .up := hc
      rw [GateRun.barrierLoop_occupied hb hd, GateRun.barrierOccupied_admitted hst, GateRun.enterPassing_told,
        GateRun.told_told, List.append_nil, GateRun.told_lane, if_pos hc, ← hc]
      rfl
    · rw [GateRun.barrierLoop_occupied hb hd, GateRun.barrierOccupied_unadmitted hst, GateRun.tailgate_told,
        GateRun.told_told]
      rfl
    · exact GateRun.arming_arrives hst ha hd
  · exact fun hst ha => exec_arming hs (GateRun.arming_leaves hst ha)
  · intro hst hb
    have hb : (s.gateRun ln).lane.barrierLoop = .occupied := hb
    refine exec_barrierLoop hs ?_
    rw [GateRun.barrierLoop_cleared (by rw [hb]; decide), GateRun.barrierCleared_closed hst, GateRun.lower_told _ rfl,
      GateRun.loopClear, GateRun.told_told, hb]
    rfl
  · rintro hst hb hc crossed ok clear hcrossed rfl rfl
    have hy := State.loopClear_yard hs ln
    refine ⟨fun hp => ?_, fun n hp hn => ?_, fun hu hw n i car hfind => ⟨fun ticket sc hp hcar => ?_, fun hp hcar ho => ?_⟩⟩
    · rw [hcrossed]
      refine exec_crossing (y := s.yard) hst hb hc hs ((GateRun.settleCrossing_quiet hp).trans ?_)
      rw [← hy]
      rfl
    · rw [hcrossed]
      refine exec_crossing (y := s.yard) hst hb hc hs ((GateRun.settleCrossing_gone hp hn).trans ?_)
      rw [← hy]
      rfl
    · rw [hcrossed]
      refine exec_crossing hst hb hc hs ((GateRun.settleCrossing_entry hu hw hp hfind hcar).trans ?_)
      rw [hy]
      rfl
    · rw [hcrossed]
      refine exec_crossing hst hb hc hs ((GateRun.settleCrossing_exit hp).trans ?_)
      rw [Yard.crossExit_leaving (y := (s.gateRun ln).loopClear.yard) hu hw hfind hcar ho, hy]
      rfl
  · intro hst hc hf ha
    refine exec_feedback hs ?_
    rw [GateRun.feedback_down hst hc hf, GateRun.enterIdle_clear _ ha, GateRun.enterEmpty_told, GateRun.told_told]
    rfl
  · intro hst hc hf ha
    refine exec_feedback hs ?_
    rw [GateRun.feedback_down hst hc hf, GateRun.enterIdle_occupied _ ha, GateRun.enterPresent_told, GateRun.told_told]
    rfl

end Sys2Proof.Machine
end

section
/-! PROOF. Withdrawals and the timers of a lane (R92, R101, R102, R105, R108, R109). -/

namespace Sys2Proof.Machine

/-! ## What a withdrawal gives back -/

section cars
variable {y : Yard}

theorem Yard.removeEntering_absent {n : Nat} (h : y.findCar n = none) (sc : ScreenId) : y.removeEntering n sc = y := by
  rw [Yard.removeEntering, Yard.readCar_absent _ h]

theorem Yard.removeEntering_entering (hu : y.store.undamaged = true) (hw : y.store.canonical = true) {n i : Nat} {c : Car}
    (h : y.findCar n = some (i, c)) (hc : c.state = .entering) (sc : ScreenId) : y.removeEntering n sc =
      (y.setCarSlot i (y.carSlot i).release).setAdmitted sc (y.admittedCount[sc] - 1) := by
  obtain ⟨hcars, -⟩ := (Store.undamaged_iff _).1 hu
  rw [Yard.removeEntering, Yard.readCar_found _ hcars hw h]
  dsimp only
  rw [if_pos hc, Yard.freeCar_found h]

theorem Yard.freeTicket_found {k j : Nat} {e : Ticket} (h : y.findTicket k = some (j, e)) :
    y.freeTicket k = y.setTicketSlot j (y.ticketSlot j).release := by
  rw [Yard.freeTicket, h]

theorem Yard.returnCar_absent {n : Nat} (h : y.findCar n = none) : y.returnCar n = y := by
  rw [Yard.returnCar, Yard.readCar_absent _ h]

theorem Yard.returnCar_leaving (hu : y.store.undamaged = true) (hw : y.store.canonical = true) {n i : Nat} {c : Car}
    (h : y.findCar n = some (i, c)) (hc : c.state = .leaving) : y.returnCar n =
      ((y.setCarSlot i ((y.carSlot i).write { c with state := .onField })).startLimit n).raise
        (.carState n .leaving .onField .exitWithdrawn) := by
  obtain ⟨hcars, -⟩ := (Store.undamaged_iff _).1 hu
  rw [Yard.returnCar, Yard.readCar_found _ hcars hw h]
  dsimp only
  rw [if_pos hc, Yard.modCar_found h]

end cars

section withdraw
variable {w : GateRun}

theorem GateRun.giveBack_admission {n k : Nat} {sc : ScreenId} (hp : w.lane.pending = .admission n k sc) :
    w.giveBack = { w with yard := (w.yard.removeEntering n sc).freeTicket k } := by
  rw [GateRun.giveBack, hp]

theorem GateRun.giveBack_exit {n : Nat} (hp : w.lane.pending = .exit n) :
    w.giveBack = { w with yard := w.yard.returnCar n } := by
  rw [GateRun.giveBack, hp]

theorem GateRun.giveBack_anonymous (hp : w.lane.pending = .anonymous) : w.giveBack = w := by
  rw [GateRun.giveBack, hp]

/-! ## The lane after a withdrawal -/

/-- A lane goes by its arming loop, and its timers and counts stay. -/
theorem GateRun.enterIdle_told (w : GateRun) : ∃ l rs, w.enterIdle = w.told l rs ∧
    l.state = (if w.lane.arming ≠ .clear then .present else if w.lane.closeDeferred then .closed else .empty) ∧
    l.command = w.lane.command ∧ l.pending = w.lane.pending ∧ l.dwell = w.lane.dwell ∧ l.counts = w.lane.counts := by
  by_cases h : w.lane.arming = .clear
  · rw [GateRun.enterIdle_clear _ h, GateRun.enterEmpty_told, if_neg (not_not.2 h)]
    exact ⟨_, _, rfl, rfl, rfl, rfl, rfl, rfl⟩
  · rw [GateRun.enterIdle_occupied _ h, GateRun.enterPresent_told, if_pos h]
    exact ⟨_, _, rfl, rfl, rfl, rfl, rfl, rfl⟩

/-- A withdrawal, from what the pending admission or exit gives back. -/
theorem GateRun.withdraw_told (hb : w.lane.barrierLoop = .clear) (cause : WithdrawCause) {y : Yard}
    (hy : w.lower.giveBack = { w.lower with yard := y }) : ∃ l rs,
    w.withdraw cause = ({ w with yard := y } : GateRun).told l
      (.withdrawn w.id w.lane.pending.car? w.lane.pending.ticket? cause :: rs) ∧
    l.state = (if w.lane.arming ≠ .clear then .present else if w.lane.closeDeferred then .closed else .empty) ∧
    l.command = .down ∧ l.pending = .absent ∧ l.dwell = none ∧
    l.counts = { w.lane.counts with withdrawals := satInc w.lane.counts.withdrawals } := by
  unfold GateRun.withdraw
  dsimp only
  rw [hy, GateRun.lower_told _ hb, GateRun.mod_told, GateRun.count_told, GateRun.told_told, GateRun.raise_told,
    GateRun.told_told]
  generalize hv : GateRun.told _ _ _ = v
  obtain ⟨l, rs, hidle, hst, hc, hp, hd, hk⟩ := v.enterIdle_told
  rw [hidle]
  subst hv
  refine ⟨l, rs, ?_, hst, hc, hp, hd, hk⟩
  rw [GateRun.told_told]
  rfl

end withdraw

/-! ## The timers -/

section timers
variable {w : GateRun}

theorem GateRun.arming_backs {d : Detector} (hst : w.lane.state = .opening) (ha : w.lane.arming ≠ d) (hd : d = .clear) :
    w.arming d = (w.told { w.lane with arming := d } (detectorSays w.id .arming w.lane.arming d)).withdraw .backout := by
  rw [GateRun.arming_moved ha]
  unfold GateRun.armingMoved
  rw [GateRun.told_lane]
  dsimp only
  rw [hst, hd]
  rfl

theorem GateRun.armingMoved_stays {old new : Detector} (hst : w.lane.state = .opening) (hn : new ≠ .clear) :
    w.armingMoved old new =
      w.mod fun l => { l with dwell := if l.dwellSetting = 0 then none else some (l.dwellSetting * 1000) } := by
  unfold GateRun.armingMoved
  rw [hst, (Detector.isOccupied_iff new).2 hn]
  rfl

/-- In OPENING the dwell timer is loaded afresh at each change of the arming loop's detector that does not clear it. -/
theorem GateRun.arming_stays {d : Detector} (hst : w.lane.state = .opening) (ha : w.lane.arming ≠ d) (hd : d ≠ .clear) :
    w.arming d = w.told { w.lane with
      arming := d, dwell := if w.lane.dwellSetting = 0 then none else some (w.lane.dwellSetting * 1000) }
      (detectorSays w.id .arming w.lane.arming d) := by
  rw [GateRun.arming_moved ha, GateRun.armingMoved_stays (by exact hst) hd, GateRun.mod_told, GateRun.told_told, List.append_nil]
  rfl

theorem Barrier.reached_iff (b : Barrier) (f : Feedback) :
    b.reached f = true ↔ (b = .up ∧ f = .up) ∨ (b = .down ∧ f = .down) := by
  cases b <;> cases f <;> decide

theorem GateRun.travelExpired_told (h : w.lane.travel.isSome = true) : w.travelExpired =
    w.told { w.lane with travel := none }
      (if (w.lane.command = .up ∧ w.lane.feedback = .up) ∨ (w.lane.command = .down ∧ w.lane.feedback = .down) then []
       else [.barrierFault w.id w.lane.command w.lane.feedback]) := by
  obtain ⟨left, ht⟩ := Option.isSome_iff_exists.1 h
  unfold GateRun.travelExpired
  rw [ht]
  dsimp only
  rw [GateRun.mod_told, GateRun.raise_told, GateRun.told_told]
  simp only [GateRun.told_lane, GateRun.told_id, Barrier.reached_iff]
  split <;> rfl

theorem GateRun.stallExpired_told (hst : w.lane.state = .passing) (h : w.lane.stall.isSome = true) : w.stallExpired =
    w.told { w.lane with state := .stalled, stall := none } [.laneStall w.id w.lane.pending.admittedCar?] := by
  rw [GateRun.stallExpired, if_pos ⟨hst, h⟩, GateRun.mod_told, GateRun.raise_told, GateRun.told_told]
  rfl

theorem GateRun.exitReadExpired_told (hst : w.lane.state = .present) (h : w.lane.exitRead.isSome = true) :
    w.exitReadExpired = w.told { w.lane with
      state := .opening, pending := .anonymous, exitRead := none, command := .up, answer := some .go,
      travel := if w.lane.command = .up then w.lane.travel else some 10000,
      dwell := if w.lane.dwellSetting = 0 then none else some (w.lane.dwellSetting * 1000) } [] := by
  rw [GateRun.exitReadExpired, if_pos ⟨hst, h⟩, GateRun.enterOpening_told, GateRun.answer_told, GateRun.told_told]
  rfl

end timers

/-- The run that withdraws in OPENING, at a backout or at the dwell timer's expiry, and the reports ahead of it. -/
theorem withdrawal_event {s : State} (hs : s.settled) {ln : LaneId} {c : Instr} {cause : WithdrawCause} {ok : List Report}
    (hst : s.lanes[ln].state = .opening)
    (hc : (c = .armingLoopChange ln .clear ∧ s.lanes[ln].arming ≠ .clear ∧ cause = .backout ∧
        ok = (if s.lanes[ln].arming = .fault then [.detectorOk ln .arming .clear] else [])) ∨
      (c = .dwellExpiry ln ∧ s.lanes[ln].dwell.isSome = true ∧ cause = .dwell ∧ ok = [])) :
    ∃ (a : Detector) (f : GateRun → GateRun), exec c s = event (fun s => s.onLane ln f) s ∧
      f (s.gateRun ln) = ((s.gateRun ln).told { s.lanes[ln] with arming := a } ok).withdraw cause ∧
      (a ≠ .clear ↔ c = .dwellExpiry ln ∧ s.lanes[ln].arming ≠ .clear) := by
  rcases hc with ⟨rfl, ha, rfl, rfl⟩ | ⟨rfl, hd, rfl, rfl⟩
  · refine ⟨.clear, fun w => w.arming .clear, rfl, GateRun.arming_backs hst ha rfl, ?_⟩
    simp
  · refine ⟨s.lanes[ln].arming, GateRun.dwellExpired, rfl, ?_, by simp⟩
    exact (if_pos ⟨hst, hd⟩).trans (congrArg (GateRun.withdraw · .dwell) (GateRun.told_same (s.gateRun ln)).symm)

/-- Settles O44, a withdrawal by what its lane holds, and timer by timer. -/
theorem laneTimersExpire : Obligations.LaneTimersExpire := by
  unfold Obligations.LaneTimersExpire
  intro s ln l hs hl
  subst hl
  refine ⟨?_, ?_, ?_, ?_, ?_, ?_, ?_, ?_, ?_⟩
  · intro c cause y ok moved number ticket hst hb hu hw hc hy
    obtain ⟨a, f, hexec, hf, ha⟩ := withdrawal_event hs hst hc
    have hr : s.yard.raised = [] := hs
    have hgive : y.raised = [] ∧ (s.lanes[ln]).pending.car? = number ∧ (s.lanes[ln]).pending.ticket? = ticket ∧
        ∀ v : GateRun, v.lane.pending = (s.lanes[ln]).pending → v.yard = { s.yard with raised := ok } →
          v.giveBack = { v with yard := { y with raised := ok ++ moved } } := by
      rcases hy with ⟨n, k, i, j, sc, car, e, hp, hfind, hcar, htk, rfl, rfl, rfl, rfl⟩ |
        ⟨n, k, j, sc, e, hp, hfind, htk, rfl, rfl, rfl, rfl⟩ |
        ⟨n, i, car, hp, hfind, hcar, rfl, rfl, rfl, rfl⟩ | ⟨n, hp, hfind, rfl, rfl, rfl, rfl⟩ | ⟨hp, rfl, rfl, rfl, rfl⟩
      · refine ⟨hr, by rw [hp]; rfl, by rw [hp]; rfl, fun v hv hvy => ?_⟩
        rw [GateRun.giveBack_admission (hv.trans hp), hvy,
          Yard.removeEntering_entering (y := { s.yard with raised := ok }) hu hw hfind hcar,
          Yard.freeTicket_found (by exact htk), List.append_nil]
        rfl
      · refine ⟨hr, by rw [hp]; rfl, by rw [hp]; rfl, fun v hv hvy => ?_⟩
        rw [GateRun.giveBack_admission (hv.trans hp), hvy, Yard.removeEntering_absent (by exact hfind),
          Yard.freeTicket_found (by exact htk), List.append_nil]
        rfl
      · refine ⟨hr, by rw [hp]; rfl, by rw [hp]; rfl, fun v hv hvy => ?_⟩
        rw [GateRun.giveBack_exit (hv.trans hp), hvy,
          Yard.returnCar_leaving (y := { s.yard with raised := ok }) hu hw hfind hcar]
        rfl
      · refine ⟨hr, by rw [hp]; rfl, by rw [hp]; rfl, fun v hv hvy => ?_⟩
        rw [GateRun.giveBack_exit (hv.trans hp), hvy, Yard.returnCar_absent (by exact hfind), List.append_nil]
      · refine ⟨hr, by rw [hp]; rfl, by rw [hp]; rfl, fun v hv hvy => ?_⟩
        rw [GateRun.giveBack_anonymous (hv.trans hp), List.append_nil, ← hvy]
    clear hy
    obtain ⟨hyr, hnumber, hticket, hgive⟩ := hgive
    obtain ⟨l, rs, hw, hlst, hlc, hlp, hld, hlk⟩ := GateRun.withdraw_told
      (w := (s.gateRun ln).told { s.lanes[ln] with arming := a } ok) hb cause
      (hgive _ (by rw [GateRun.lower_told _ hb]; rfl) (by
        rw [GateRun.lower_told _ hb]
        simp only [GateRun.told, State.gateRun, hr, List.append_nil, List.nil_append]))
    rw [hexec]
    refine ⟨_, rs, event_lane_yard (l := l) (rs := ok ++ moved ++ .withdrawn ln number ticket cause :: rs)
      (congrArg GateRun.lane (hf.trans hw)) ((congrArg GateRun.yard (hf.trans hw)).trans ?_) hyr, rfl, ?_⟩
    · rw [← hnumber, ← hticket]
      rfl
    · generalize hu : ({ s with lanes := s.lanes.set ln l, yard := y } : State).reported _ = u
      have hlane : u.lanes[ln] = l := by
        rw [← hu]
        exact Vector.getElem_set_self _
      rw [hlane]
      refine ⟨?_, hlc, hlp, hld, hlk, by rw [← hu]; rfl, fun k hk => ?_, by rw [← hu]; rfl, by rw [← hu]; rfl⟩
      · rw [hlst, GateRun.told_lane]
        simp only [ha]
      · rw [← hu]
        exact Vector.getElem_set_ne ln.isLt k.isLt fun h => hk (Fin.ext h.symm)
  · intro d hd hst ha
    have hd : d ≠ .clear := by
      rintro rfl
      simp at hd
    exact exec_arming hs (GateRun.arming_stays hst ha hd)
  · exact fun h => event_lane (f := GateRun.travelExpired) hs (GateRun.travelExpired_told h)
  · exact fun hst h => event_lane (f := GateRun.stallExpired) hs (GateRun.stallExpired_told hst h)
  · exact fun hst h => event_lane (f := GateRun.exitReadExpired) hs (GateRun.exitReadExpired_told hst h)
  · intro h
    refine event_lane_same (f := GateRun.dwellExpired) hs (if_neg ?_)
    rintro ⟨-, hd⟩
    have h : (s.gateRun ln).lane.dwell = none := h
    rw [h] at hd
    cases hd
  · intro h
    refine event_lane_same (f := GateRun.travelExpired) hs ?_
    have h : (s.gateRun ln).lane.travel = none := h
    rw [GateRun.travelExpired, h]
  · intro h
    refine event_lane_same (f := GateRun.stallExpired) hs (if_neg ?_)
    rintro ⟨-, hd⟩
    have h : (s.gateRun ln).lane.stall = none := h
    rw [h] at hd
    cases hd
  · intro h
    refine event_lane_same (f := GateRun.exitReadExpired) hs (if_neg ?_)
    rintro ⟨-, hd⟩
    have h : (s.gateRun ln).lane.exitRead = none := h
    rw [h] at hd
    cases hd

end Sys2Proof.Machine
end

section
/-! PROOF. Admissions, exit reads and the credentials that a reader turns away (R94, R97 to R101, R106, R107, R118, R123). -/

namespace Sys2Proof.Machine

/-! ## The next number (R118, R143) -/

theorem nextNumber_eq {n : Nat} (h : n ≤ 9999) : nextNumber n = n % 9999 + 1 := by
  unfold nextNumber
  split <;> omega

/-- The first number after the last one that is not in use, where one of the next `n + 1` is free. -/
theorem freshNumber_first {used : Nat → Bool} {after : Nat → Nat} {last n d : Nat} (hl : last ≤ 9999) (hd : d ≤ n)
    (hafter : ∀ k, after k = (last + k) % 9999 + 1) (hfree : used (after d) = false)
    (hused : ∀ k, k < d → used (after k) = true) : freshNumber used n last = after d := by
  induction n generalizing last after d with
  | zero =>
    obtain rfl : d = 0 := by omega
    rw [freshNumber, nextNumber_eq hl, hafter]
    rfl
  | succ n ih =>
    have hnext : nextNumber last = after 0 := (nextNumber_eq hl).trans (hafter 0).symm
    rw [freshNumber, hnext]
    cases d with
    | zero => rw [hfree]; rfl
    | succ d =>
      rw [hused 0 (by omega)]
      refine ih (after := fun k => after (k + 1)) ?_ (by omega) (fun k => ?_) hfree fun k hk => hused (k + 1) (by omega)
      · rw [hafter]
        omega
      · rw [hafter, hafter]
        omega

theorem Yard.carNumberUsed_iff (y : Yard) (n : Nat) : y.carNumberUsed n = true ↔
    (∃ q ∈ inUse y.store.cars, q.2.number = n) ∨ ∃ q ∈ inUse y.store.orders, q.2.car = n := by
  simp [Yard.carNumberUsed, Yard.findCar]

theorem Yard.nextCar_eq {y : Yard} {used : Nat → Prop} {after : Nat → Nat} {d : Nat} (hl : y.lastCar ≤ 9999) (hd : d < 9999)
    (hused : ∀ n, used n ↔ (∃ q ∈ inUse y.store.cars, q.2.number = n) ∨ ∃ q ∈ inUse y.store.orders, q.2.car = n)
    (hafter : ∀ k, after k = (y.lastCar + k) % 9999 + 1) (hfree : ¬used (after d)) (hbefore : ∀ k, k < d → used (after k)) :
    y.nextCar = after d := by
  have hiff (n : Nat) : y.carNumberUsed n = true ↔ used n := (y.carNumberUsed_iff n).trans (hused n).symm
  exact freshNumber_first hl (by omega) hafter (Bool.eq_false_iff.2 fun h => hfree ((hiff _).1 h))
    fun k hk => (hiff _).2 (hbefore k hk)

/-! ## The screen chosen (R97) -/

section pick
variable {ι : Type} {hit : ι → Bool} {better : ι → ι → Bool}

theorem foldl_pickBest_mem {list : List ι} {best : Option ι} {j : ι}
    (h : list.foldl (pickBest hit better) best = some j) : best = some j ∨ j ∈ list ∧ hit j = true := by
  induction list generalizing best with
  | nil => exact .inl h
  | cons k list ih =>
    rcases ih h with hb | ⟨hm, hj⟩
    · unfold pickBest at hb
      split at hb
      · next hk =>
        cases best with
        | none =>
          cases hb
          exact .inr ⟨List.mem_cons_self, hk⟩
        | some b =>
          dsimp only at hb
          split at hb
          · cases hb
            exact .inr ⟨List.mem_cons_self, hk⟩
          · exact .inl hb
      · exact .inl hb
    · exact .inr ⟨List.mem_cons_of_mem _ hm, hj⟩

/-- A hit better than those before it, of which no later one is better, is found. -/
theorem foldl_pickBest_ordered {i : ι} {before after : List ι} (hi : hit i = true)
    (hbefore : ∀ j ∈ before, hit j = true → better i j = true) (hafter : ∀ j ∈ after, hit j = true → better j i = false) :
    (before ++ i :: after).foldl (pickBest hit better) none = some i := by
  rw [List.foldl_append, List.foldl_cons]
  have hstep : pickBest hit better (before.foldl (pickBest hit better) none) i = some i := by
    cases hb : before.foldl (pickBest hit better) none with
    | none => exact if_pos hi
    | some j =>
      obtain ⟨hm, hj⟩ := (foldl_pickBest_mem hb).resolve_left (by simp)
      exact (if_pos hi).trans (if_pos (hbefore j hm hj))
  rw [hstep]
  clear hbefore hstep
  induction after with
  | nil => rfl
  | cons k after ih =>
    have hk : pickBest hit better (some i) k = some i := by
      unfold pickBest
      split
      · next h =>
        dsimp only
        rw [hafter k List.mem_cons_self h]
        rfl
      · rfl
    rw [List.foldl_cons, hk]
    exact ih fun j hj => hafter j (List.mem_cons_of_mem _ hj)

end pick

theorem GateRun.anyScreen_eq (w : GateRun) : w.anyScreen = (List.finRange 4).foldl
    (pickBest (fun k : ScreenId => (w.site.screens[k]).gateOpen)
      fun k b : ScreenId => decide (w.yard.freeCapacity b < w.yard.freeCapacity k)) none := by
  unfold GateRun.anyScreen
  congr 1
  funext best k
  unfold pickBest
  cases best <;> simp

theorem State.chosen_screen {s : State} {choice : Nat} {sc : Option ScreenId} (h : s.chosen choice sc) (ln : LaneId) :
    (s.gateRun ln).chooseScreen choice = sc := by
  unfold GateRun.chooseScreen
  rcases h with ⟨k, rfl, rfl⟩ | ⟨rfl, h⟩
  · simp [finOf]
  · change (s.gateRun ln).anyScreen = sc
    rw [GateRun.anyScreen_eq]
    cases sc with
    | none => exact foldl_pickBest_none _ _ (fun k _ => h k) none
    | some b =>
      obtain ⟨hb, hbest⟩ := h
      obtain ⟨before, after, hsplit⟩ := List.append_of_mem (List.mem_finRange b)
      have hsorted := List.pairwise_lt_finRange 4
      rw [hsplit] at hsorted ⊢
      obtain ⟨-, hafter, hbefore⟩ := List.pairwise_append.1 hsorted
      refine foldl_pickBest_ordered hb (fun j hj hopen => ?_) fun j hj hopen => ?_
      · have hlt : j < b := hbefore j hj b List.mem_cons_self
        rcases hbest j (Fin.ne_of_lt hlt) hopen with h | ⟨h, -⟩
        · exact decide_eq_true h
        · exact absurd h (Nat.not_lt.2 (Nat.le_of_lt hlt))
      · have hlt : b < j := (List.pairwise_cons.1 hafter).1 j hj
        refine decide_eq_false ?_
        rcases hbest j (Fin.ne_of_gt hlt) hopen with h | ⟨-, h⟩
        · exact Nat.not_lt.2 (Nat.le_of_lt h)
        · exact Nat.not_lt.2 (Nat.le_of_eq h)

end Sys2Proof.Machine
end

section
/-! PROOF. The credentials that a reader turns away (R94, R97 to R100, R106, R107). -/

namespace Sys2Proof.Machine

/-! ## What check 1 reads (R98) -/

section reads
variable {y : Yard} {ticket : Nat}

theorem Yard.ticketKnown_unknown (h : y.ticketKnown ticket = false) : y.findTicket ticket = none ∧
    (inUse y.store.cars).find? (fun e => e.2.ticket == ticket) = none := by
  unfold Yard.ticketKnown at h
  simp only [Bool.or_eq_false_iff, List.any_eq_false] at h
  exact ⟨List.find?_eq_none.2 h.1, List.find?_eq_none.2 h.2⟩

theorem Yard.ticketReads_unknown (hu : y.store.undamaged = true) (h : y.ticketKnown ticket = false) :
    y.ticketReads ticket = ((false, false), y) := by
  obtain ⟨hcars, -⟩ := (Store.undamaged_iff _).1 hu
  obtain ⟨hticket, hcar⟩ := Yard.ticketKnown_unknown h
  unfold Yard.ticketReads
  rw [Yard.readTicket_absent _ hticket]
  dsimp only
  rw [Yard.searchCars_unheld _ hcars (q := fun c => c.ticket == ticket) hcar]
  rfl

theorem Yard.ticketReads_known (hu : y.store.undamaged = true) (hw : y.store.canonical = true)
    (h : y.ticketKnown ticket = true) : y.ticketReads ticket = ((true, false), y) := by
  obtain ⟨hcars, -, -, -, htickets⟩ := (Store.undamaged_iff _).1 hu
  unfold Yard.ticketReads
  cases hf : y.findTicket ticket with
  | some e =>
    rw [Yard.readTicket_found _ htickets hw (i := e.1) (e := e.2) hf]
    dsimp only
    rw [Yard.searchCars_undamaged _ hcars hw]
    rfl
  | none =>
    rw [Yard.readTicket_absent _ hf]
    dsimp only
    rw [Yard.searchCars_undamaged _ hcars hw]
    unfold Yard.ticketKnown at h
    have hticket : ((inUse y.store.tickets).any fun e => e.2.ticket == ticket) = false :=
      List.any_eq_false.2 (List.find?_eq_none.1 hf)
    rw [hticket, Bool.false_or, ← List.isSome_find?] at h
    simp only [Option.isSome_map, h]
    rfl

/-- A table of slots whose freedom is the same has the same lowest free slot. -/
theorem lowestFree_congr {ρ : Type} {t u : Tab (Slot ρ)} {n : Nat}
    (h : ∀ i, (Tab.get Slot.blank u i).isFree = (Tab.get Slot.blank t i).isFree) : lowestFree u n = lowestFree t n := by
  unfold lowestFree
  congr 1
  exact funext h

theorem Yard.drain_ticket {i : Nat} {k : Key} (h : y.store.waiting = [(.ticket, i, k)]) :
    y.drain = { y with store := { y.store with waiting := [] } } := by
  have hstep (n : Nat) : Yard.drainWithin (n + 2) y = { y with store := { y.store with waiting := [] } } := by
    rw [Yard.drainWithin, h]
    rfl
  exact hstep 6462

theorem Slot.not_free_of_record {ρ : Type} {sl : Slot ρ} {r : ρ} (h : sl.record? = some r) : sl.isFree = false := by
  unfold Slot.record? at h
  unfold Slot.isFree
  cases hs : sl.state with
  | free => rw [hs] at h; cases h
  | inUse | quarantined | underTest => rfl

theorem Slot.wrong_of_damaged {ρ : Type} {sl : Slot ρ} (hd : (sl.badFirst || sl.badSecond) = true) :
    sl.wrong = some (if sl.badFirst && sl.badSecond then .both else if sl.badFirst then .first else .second) := by
  unfold Slot.wrong
  cases h1 : sl.badFirst <;> cases h2 : sl.badSecond
  · simp [h1, h2] at hd
  all_goals rfl

/-- Check 1 over a damaged entry of the used-ticket set, of a ticket no car record carries. -/
theorem Yard.ticketReads_lost {j : Nat} {entry : Ticket} {sl : Slot Ticket} (hw : y.store.canonical = true)
    (hwait : y.store.waiting = []) (hfind : y.findTicket ticket = some (j, entry)) (hsl : y.ticketSlot j = sl)
    (hd : (sl.badFirst || sl.badSecond) = true) {h : Halves}
    (hh : h = (if sl.badFirst && sl.badSecond then .both else if sl.badFirst then .first else .second))
    (hu : tableUndamaged y.store.cars = true)
    (hcar : ((inUse y.store.cars).any fun e => e.2.ticket == ticket) = false) : ∃ raw,
    y.ticketReads ticket = ((false, true), { y with
      freeIndex := y.freeIndex + 1
      raised := y.raised ++ [.storeFault .ticket j { number := ticket, car := none } h raw]
      store := { y.store with
        tickets := Tab.put Slot.blank y.store.tickets j { sl with state := .quarantined }
        latch := some (.ticket, j, h), faultCount := min (y.store.faultCount + 1) 255 } }) := by
  obtain ⟨hrec, hnum⟩ := Yard.findTicket_slot hw hfind
  have hwrong := Slot.wrong_of_damaged (sl := y.ticketSlot j) (by rw [hsl]; exact hd)
  rw [hsl, ← hh] at hwrong
  have hread : y.readTicket Yard.drain ticket = (.fault,
      ((y.setTicketSlot j sl.quarantine).parityFault .ticket j ⟨ticket, none⟩ h).drain) := by
    rw [Yard.readTicket, hfind]
    dsimp only
    rw [Yard.readTicketSlot, hrec, hsl, hwrong]
    dsimp only
    rw [hnum]
  have hdrain := Yard.drain_ticket (y := (y.setTicketSlot j sl.quarantine).parityFault .ticket j ⟨ticket, none⟩ h)
    (i := j) (k := ⟨ticket, none⟩) (by
      change y.store.waiting ++ [_] = _
      rw [hwait, List.nil_append])
  refine ⟨Config.rawHalves y.freeIndex, ?_⟩
  generalize hz : ({ y with
      freeIndex := y.freeIndex + 1
      raised := y.raised ++ [.storeFault .ticket j { number := ticket, car := none } h (Config.rawHalves y.freeIndex)]
      store := { y.store with
        tickets := Tab.put Slot.blank y.store.tickets j { sl with state := .quarantined }
        latch := some (.ticket, j, h), faultCount := min (y.store.faultCount + 1) 255 } } : Yard) = z
  have hdrained : ((y.setTicketSlot j sl.quarantine).parityFault .ticket j ⟨ticket, none⟩ h).drain = z := by
    rw [hdrain, ← hz, ← hwait]
    rfl
  have hcars : z.store.cars = y.store.cars := by
    rw [← hz]
  unfold Yard.ticketReads
  rw [hread, hdrained]
  dsimp only
  rw [Yard.searchCars_unheld (y := z) (q := fun c => c.ticket == ticket) Yard.drain (by rw [hcars]; exact hu)
    (by rw [hcars]; exact List.find?_eq_none.2 (List.any_eq_false.1 hcar))]
  rfl

end reads

/-! ## The decision (R98 to R100) -/

section decision
variable {w : GateRun} {ticket choice : Nat} {cls : TicketClass} {sc : ScreenId} {chosen : Option ScreenId} {used lost : Bool}

theorem GateRun.decideAdmission_refused {y : Yard} {r : Refuse} (hsc : w.chooseScreen choice = chosen)
    (hreads : w.yard.ticketReads ticket = ((used, lost), y))
    (hfail : ({ w with yard := y } : GateRun).admissionFailure chosen used lost = some r) :
    w.decideAdmission ticket cls choice = ({ w with yard := y } : GateRun).told { w.lane with
      answer := some (.refusedFor r), counts := w.lane.counts.refusal r } [.refuse w.id ticket cls choice chosen r] := by
  unfold GateRun.decideAdmission
  rw [hsc, hreads]
  dsimp only
  rw [hfail]
  dsimp only
  rw [GateRun.answer_told, GateRun.count_told, GateRun.told_told, GateRun.raise_told, GateRun.told_told]
  rfl

theorem GateRun.admissionFailure_used : w.admissionFailure chosen true lost = some .used := rfl

theorem GateRun.admissionFailure_late (h : ∀ sc : ScreenId, chosen = some sc → w.site.screens[sc].gateOpen = false) :
    w.admissionFailure chosen false lost = some .late := by
  cases chosen with
  | none => rfl
  | some sc => exact if_pos (by rw [h sc rfl]; rfl)

variable (hopen : w.site.screens[sc].gateOpen = true)
include hopen

theorem GateRun.admissionFailure_open : w.admissionFailure (some sc) false lost =
    if w.yard.capacity[sc] ≤ w.yard.admittedCount[sc] then some .full
    else if (lowestFree w.yard.store.cars 1024).isNone ∨ (lowestFree w.yard.store.tickets 4096).isNone then some .full
    else if lost then some .storeError
    else if w.lane.closeDeferred then some .closed
    else none :=
  if_neg (by rw [hopen]; decide)

theorem GateRun.admissionFailure_full (h : w.yard.capacity[sc] ≤ w.yard.admittedCount[sc] ∨
    lowestFree w.yard.store.cars 1024 = none ∨ lowestFree w.yard.store.tickets 4096 = none) :
    w.admissionFailure (some sc) false lost = some .full := by
  rw [GateRun.admissionFailure_open hopen]
  by_cases hc : w.yard.capacity[sc] ≤ w.yard.admittedCount[sc]
  · rw [if_pos hc]
  · rw [if_neg hc, if_pos]
    rcases h with h | h | h
    · exact absurd h hc
    · exact .inl (by rw [h]; rfl)
    · exact .inr (by rw [h]; rfl)

/-- With room on the field and free slots what is left to fail is a lost record and a deferred close. -/
theorem GateRun.admissionFailure_roomy (h : w.yard.admittedCount[sc] < w.yard.capacity[sc])
    (hcar : (lowestFree w.yard.store.cars 1024).isSome = true)
    (hticket : (lowestFree w.yard.store.tickets 4096).isSome = true) : w.admissionFailure (some sc) false lost =
      if lost then some .storeError else if w.lane.closeDeferred then some .closed else none := by
  rw [GateRun.admissionFailure_open hopen, if_neg (Nat.not_le.2 h), if_neg]
  rintro (h | h)
  · rw [Option.isNone_iff_eq_none.1 h] at hcar
    cases hcar
  · rw [Option.isNone_iff_eq_none.1 h] at hticket
    cases hticket

end decision

/-! ## The reader -/

section reader
variable {w : GateRun} {c : Credential} {cls : TicketClass}

theorem TicketClass.of_good (h : goodCredential c = true) : ∃ cls, TicketClass.of c.cls = some cls := by
  simp only [goodCredential, Bool.and_eq_true, decide_eq_true_eq] at h
  obtain ⟨⟨-, hc⟩, -⟩ := h
  generalize c.cls = n at hc
  match n with
  | 0 => exact ⟨_, rfl⟩
  | 1 => exact ⟨_, rfl⟩
  | 2 => exact ⟨_, rfl⟩
  | 3 => exact ⟨_, rfl⟩
  | n + 4 => omega

theorem GateRun.credential_bad (h : goodCredential c = false) : w.credential c = w.told { w.lane with
    answer := some .reRead, counts := { w.lane.counts with readerErrors := satInc w.lane.counts.readerErrors } } [] := by
  unfold GateRun.credential
  rw [h]
  dsimp only
  rw [GateRun.answer_told, GateRun.count_told, GateRun.told_told]
  rfl

/-- A good credential in a lane that is not in PRESENT. -/
theorem GateRun.credential_elsewhere (h : goodCredential c = true) (hst : w.lane.state ≠ .present) :
    w.credential c = w.answer (if w.lane.state = .closed then .laneClosed else .reRead) := by
  obtain ⟨cls, hcls⟩ := TicketClass.of_good h
  unfold GateRun.credential
  rw [h, hcls]
  dsimp only
  cases hs : w.lane.state with
  | present => exact absurd hs hst
  | closed => rfl
  | empty | opening | passing | closing | stalled => rfl

theorem GateRun.credential_entry (h : goodCredential c = true) (hcls : TicketClass.of c.cls = some cls)
    (hst : w.lane.state = .present) (hid : w.id.val < 4) :
    w.credential c = w.decideAdmission c.ticket cls c.choice := by
  unfold GateRun.credential
  rw [h, hcls, hst]
  exact if_neg (by simpa [isExit] using hid)

theorem GateRun.credential_exit (h : goodCredential c = true) (hst : w.lane.state = .present) (hid : 4 ≤ w.id.val) :
    w.credential c = w.readExit c.ticket := by
  obtain ⟨cls, hcls⟩ := TicketClass.of_good h
  unfold GateRun.credential
  rw [h, hcls, hst]
  exact if_pos (by simpa [isExit] using hid)

theorem GateRun.readExit_closing (h : w.lane.closeDeferred = true) (ticket : Nat) :
    w.readExit ticket = w.answer .laneClosed :=
  if_pos h

/-- An exit read of a ticket of no car, or of one that is ENTERING or LEAVING. -/
theorem GateRun.readExit_notFound (h : w.lane.closeDeferred = false) (hu : w.yard.store.undamaged = true)
    (hw : w.yard.store.canonical = true) {ticket : Nat}
    (hcar : ∀ e, (inUse w.yard.store.cars).find? (fun e => e.2.ticket == ticket) = some e →
      e.2.state ∈ [CarState.entering, .leaving]) : w.readExit ticket = w.answer .notFound := by
  obtain ⟨hcars, -⟩ := (Store.undamaged_iff _).1 hu
  have hread : w.yard.exitRead ticket = (none, w.yard) := by
    unfold Yard.exitRead
    rw [Yard.searchCars_undamaged _ hcars hw]
    cases hf : (inUse w.yard.store.cars).find? fun e => e.2.ticket == ticket with
    | none => rfl
    | some e =>
      have hst := hcar e hf
      dsimp only [Option.map_some]
      generalize e.2.state = st at hst
      cases st with
      | entering | leaving => rfl
      | onField | parked => simp at hst
  unfold GateRun.readExit
  rw [if_neg (by rw [h]; decide), hread]

end reader

/-! ## The statement -/

section event
variable {s : State} {ln : LaneId} {l : Lane} {rs : List Report} {c : Credential}

theorem exec_credential (hs : s.settled) (hf : (s.gateRun ln).credential c = (s.gateRun ln).told l rs) :
    exec (.credential ln c) s = .next ((s.withLane ln l).reported rs) :=
  event_lane (f := fun w => w.credential c) hs hf

theorem exec_credential_answered (hs : s.settled) {a : ReaderAnswer}
    (hf : (s.gateRun ln).credential c = (s.gateRun ln).answer a) :
    exec (.credential ln c) s = .next ((s.withLane ln { s.lanes[ln] with answer := some a }).reported []) :=
  exec_credential hs (hf.trans (GateRun.answer_told _ _))

end event

/-- Settles O41, by the state of the lane and the first failing check. -/
theorem credentialTurnedAway : Obligations.CredentialTurnedAway := by
  unfold Obligations.CredentialTurnedAway
  intro s ln l c cls hs hl
  subst hl
  refine ⟨fun hg => exec_credential hs (GateRun.credential_bad hg), fun hg hst => ?_, fun hg hst => ?_,
    fun hg hst hid hcls chosen hchosen => ?_, fun hg hst hid => ⟨fun hd => ?_, fun hd hu hw hcar => ?_⟩⟩
  · have hst : (s.gateRun ln).lane.state = .closed := hst
    refine exec_credential_answered hs ((GateRun.credential_elsewhere hg ?_).trans ?_)
    · exact fun h => by cases hst.symm.trans h
    · rw [if_pos hst]
  · have hst : (s.gateRun ln).lane.state ∈ [LaneState.empty, .opening, .passing, .closing, .stalled] := hst
    refine exec_credential_answered hs ((GateRun.credential_elsewhere hg ?_).trans ?_)
    · intro h
      rw [h] at hst
      simp at hst
    · rw [if_neg]
      intro h
      rw [h] at hst
      simp at hst
  · have hscreen := State.chosen_screen hchosen ln
    have hrefused {used : Bool} {r : Refuse}
        (hreads : s.yard.ticketReads c.ticket = ((used, false), s.yard))
        (hfail : (s.gateRun ln).admissionFailure chosen used false = some r) :
        exec (.credential ln c) s = .next ((s.withLane ln { s.lanes[ln] with
          answer := some (.refusedFor r), counts := (s.lanes[ln]).counts.refusal r }).reported
          [.refuse ln c.ticket cls c.choice chosen r]) :=
      exec_credential hs ((GateRun.credential_entry hg hcls hst hid).trans
        (GateRun.decideAdmission_refused hscreen hreads hfail))
    refine ⟨fun hu => ⟨fun hk hw => ?_, fun hk hclosed => ?_, ?_⟩, ?_⟩
    · exact hrefused (Yard.ticketReads_known hu hw hk) GateRun.admissionFailure_used
    · exact hrefused (Yard.ticketReads_unknown hu hk) (GateRun.admissionFailure_late hclosed)
    · rintro sc rfl hk hopen
      refine ⟨fun hfull => ?_, fun hroom hcars htickets hd => ?_⟩
      · exact hrefused (Yard.ticketReads_unknown hu hk) (GateRun.admissionFailure_full hopen hfull)
      · refine hrefused (r := .closed) (Yard.ticketReads_unknown hu hk)
          ((GateRun.admissionFailure_roomy hopen hroom hcars htickets).trans ?_)
        exact if_pos hd
    · rintro sc j entry sl h rfl hw hwait hfind hsl hdam hh hu hcar hopen hroom hcars htickets
      obtain ⟨raw, hreads⟩ := Yard.ticketReads_lost hw hwait hfind hsl hdam hh hu hcar
      have hfree : lowestFree (Tab.put Slot.blank s.yard.store.tickets j { sl with state := .quarantined }) 4096 =
          lowestFree s.yard.store.tickets 4096 := by
        obtain ⟨-, -, -, -, hwt⟩ := (Store.canonical_iff _).1 hw
        refine lowestFree_congr fun i => ?_
        by_cases hi : i = j
        · subst hi
          rw [Tab.get_put_self hwt]
          exact (Slot.not_free_of_record (Yard.findTicket_slot hw hfind).1).symm
        · rw [Tab.get_put_other _ _ _ hi]
      have hrun := (GateRun.credential_entry hg hcls hst hid).trans (GateRun.decideAdmission_refused (cls := cls)
        (r := .storeError) hscreen hreads ((GateRun.admissionFailure_roomy hopen hroom hcars
          ((congrArg Option.isSome hfree).trans htickets)).trans rfl))
      refine ⟨raw, event_lane_yard (f := fun w => w.credential c) (congrArg GateRun.lane hrun)
        ((congrArg GateRun.yard hrun).trans ?_) hs⟩
      have hs : s.yard.raised = [] := hs
      simp only [GateRun.told, State.gateRun, hs, List.nil_append] <;> rfl
  · exact exec_credential_answered hs ((GateRun.credential_exit hg hst hid).trans (GateRun.readExit_closing hd _))
  · exact exec_credential_answered hs ((GateRun.credential_exit hg hst hid).trans
      (GateRun.readExit_notFound hd hu hw hcar))

end Sys2Proof.Machine
end

section
/-! PROOF. Requests with a number that names nothing, and requests not taken in SETUP (R202, R208). -/

namespace Sys2Proof.Machine

/-! ## Numbers beyond their lists -/

section bodies
variable {n k : Nat} {r : Result} {s : State}

theorem finOf_out (h : n ≤ k) : finOf n k = none := dif_neg (Nat.not_lt.2 h)

theorem finOf_val (i : Fin n) : finOf n i.val = some i := dif_pos i.isLt

theorem withFin_out (h : n ≤ k) (body : Fin n → State → Reply × State) (s : State) :
    withFin n k body s = refused .unknown s := by
  rw [withFin, finOf_out h]
  rfl

theorem withStation_out (h : 6 ≤ k) (body : StationId → State → Reply × State) (s : State) :
    withStation k body s = refused .range s := by
  rw [withStation, finOf_out h]

theorem withStation_val (st : StationId) (body : StationId → State → Reply × State) : withStation st.val body = body st := by
  funext s
  rw [withStation, finOf_val]

theorem withRunner_out (h : 32 ≤ k) (body : RunnerId → State → Reply × State) (s : State) :
    withRunner k body s = refused .range s := by
  rw [withRunner, finOf_out h]

theorem withRunner_val (j : RunnerId) (body : RunnerId → State → Reply × State) : withRunner j.val body = body j := by
  funext s
  rw [withRunner, finOf_val]

theorem inRange_out {ok : Bool} (h : ok = false) (body : State → Reply × State) (s : State) :
    inRange ok body s = refused .range s :=
  if_neg (by rw [h]; decide)

theorem inRange_ok {ok : Bool} (h : ok = true) (body : State → Reply × State) : inRange ok body = body := by
  funext s
  exact if_pos h

theorem stockRange_item (h : 64 ≤ k) (q : Nat) : stockRange k q = false := by
  rw [stockRange, decide_eq_false (Nat.not_le.2 (Nat.lt_of_lt_of_le (by decide) h))]
  rfl

theorem orderNumberOk_ok (h1 : 1 ≤ n) (h2 : n ≤ 9999) : orderNumberOk n = true := by
  rw [orderNumberOk, decide_eq_true h1, decide_eq_true h2]
  rfl

/-- A request of a screen, in SETUP where it is taken in RUN only. -/
theorem withFin_setup (hsetup : s.link.part = .setup) (i : Fin n) (body : Fin n → State → Reply × State) :
    withFin n i.val (fun i => inRun (body i)) s = refused .state s := by
  rw [withFin_val, inRun_setup _ _ hsetup]

theorem settle_setup (hsetup : s.link.part = .setup) (h1 : 1 ≤ n) (h2 : n ≤ 9999) (j : RunnerId)
    (body : RunnerId → Nat → State → Reply × State) :
    withRunner j.val (fun j => inRange (orderNumberOk n) (inRun (body j n))) s = refused .state s := by
  rw [withRunner_val, inRange_ok (orderNumberOk_ok h1 h2), inRun_setup _ _ hsetup]

variable {tag kind : Nat} {c : Instr} {body : State → Reply × State}

/-- A request whose body refuses it is answered so, and nothing else changes. -/
theorem exec_refuses (hs : s.ready) (hk : requestOf c = some (kind, tag)) (hx : exec c s = request kind tag body s)
    (hb : body s = refused r s) :
    ∃ kind, requestOf c = some (kind, tag) ∧ exec c s = .next (s.answered kind tag (Reply.refuse r) []) :=
  ⟨kind, hk, hx.trans (request_refused kind tag body s r hs hb)⟩

end bodies

/-- Settles O60, list by list. -/
theorem requestsRefused : Obligations.RequestsRefused := by
  unfold Obligations.RequestsRefused
  intro s tag hs
  refine ⟨fun n a b d e hn cues plan => ?_, fun n a b x hn => ?_, fun n hn => ?_,
    fun lp st r i b p k a d q hst hr hi hb hp hk hq hq' => ?_, fun hsetup sc ln st r n line h1 h2 hline => ?_⟩
  · simp only [List.forall_mem_cons]
    refine ⟨?_, ?_, ?_, ?_, ?_, ?_, ?_, ?_, ?_, ?_, ?_, ?_, ?_, ?_, ?_, ?_, ?_, ?_, ?_, ?_, ?_, ?_, ?_, ?_, ?_, ?_,
      fun c hc => absurd hc List.not_mem_nil⟩
    all_goals exact exec_refuses hs rfl rfl (withFin_out hn _ s)
  · simp only [List.forall_mem_cons]
    refine ⟨?_, ?_, ?_, ?_, fun c hc => absurd hc List.not_mem_nil⟩
    all_goals exact exec_refuses hs rfl rfl (withFin_out hn _ s)
  · refine request_refused 0x36 tag _ s .unknown hs ?_
    match n, hn with
    | n + 5, _ => rfl
  · simp only [List.forall_mem_cons]
    refine ⟨?_, ?_, ?_, ?_, ?_, ?_, ?_, ?_, ?_, ?_, ?_, ?_, ?_, ?_, ?_, ?_, ?_, ?_, fun c hc => absurd hc List.not_mem_nil⟩
    · exact exec_refuses hs rfl rfl (withStation_out hst _ s)
    · exact exec_refuses hs rfl rfl (withStation_out hst _ s)
    · exact exec_refuses hs rfl rfl (withStation_out hst _ s)
    · exact exec_refuses hs rfl rfl (withRunner_out hr _ s)
    · exact exec_refuses hs rfl rfl (withRunner_out hr _ s)
    · exact exec_refuses hs rfl rfl (withRunner_out hr _ s)
    · exact exec_refuses hs rfl rfl (withRunner_out hr _ s)
    · exact exec_refuses hs rfl rfl (inRange_out (stockRange_item hi q) _ s)
    · exact exec_refuses hs rfl rfl (inRange_out rfl _ s)
    · exact exec_refuses hs rfl rfl (inRange_out (stockRange_item hi q) _ s)
    · exact exec_refuses hs rfl rfl (inRange_out rfl _ s)
    · exact exec_refuses hs rfl rfl (inRange_out (decide_eq_false (by omega)) _ s)
    · exact exec_refuses hs rfl rfl (inRange_out (ok := decide (i ≤ 63)) (decide_eq_false (by omega)) _ s)
    · refine exec_refuses hs rfl rfl ?_
      dsimp only [flagOf, StockMode.of]
      rw [finOf_out hst]
      rfl
    · exact exec_refuses hs rfl rfl (inRange_out (decide_eq_false (by omega)) _ s)
    · refine exec_refuses hs rfl rfl (inRange_out (ok := decide (b ≤ 1023) && _) ?_ _ s)
      rw [decide_eq_false (by omega), Bool.false_and]
    · refine exec_refuses hs rfl rfl ?_
      rw [withFin_val, inRange_out (decide_eq_false (by omega))]
    · refine exec_refuses hs rfl rfl ?_
      rw [withFin_val, finOf_out hk]
  · simp only [List.forall_mem_cons]
    refine ⟨?_, ?_, ?_, ?_, ?_, ?_, ?_, ?_, ?_, ?_, ?_, ?_, ?_, ?_, ?_, ?_, fun c hc => absurd hc List.not_mem_nil⟩
    · refine exec_refuses hs rfl rfl ?_
      rw [withFin_val]
      exact inRun_setup _ _ hsetup
    · exact exec_refuses hs rfl rfl (withFin_setup hsetup sc _)
    · exact exec_refuses hs rfl rfl (withFin_setup hsetup sc _)
    · exact exec_refuses hs rfl rfl (withFin_setup hsetup sc _)
    · refine exec_refuses hs rfl rfl ?_
      rw [withFin_val]
      exact inRun_setup _ _ hsetup
    · exact exec_refuses hs rfl rfl (withFin_setup hsetup sc _)
    · refine exec_refuses hs rfl rfl ?_
      rw [withFin_val]
      exact inRun_setup _ _ hsetup
    · exact exec_refuses hs rfl rfl (withFin_setup hsetup ln _)
    · exact exec_refuses hs rfl rfl (inRun_setup _ _ hsetup)
    · exact exec_refuses hs rfl rfl (withFin_setup hsetup sc _)
    · exact exec_refuses hs rfl rfl (inRun_setup _ _ hsetup)
    · refine exec_refuses hs rfl rfl ?_
      rw [withStation_val, inRun_setup _ _ hsetup]
    · refine exec_refuses hs rfl rfl ?_
      rw [withStation_val, inRange_ok (by rw [orderNumberOk_ok h1 h2, decide_eq_true hline]; rfl), inRun_setup _ _ hsetup]
    · refine exec_refuses hs rfl rfl ?_
      exact (congrFun (withRunner_val r _) s).trans (inRun_setup _ _ hsetup)
    · exact exec_refuses hs rfl rfl (settle_setup hsetup h1 h2 r _)
    · exact exec_refuses hs rfl rfl (settle_setup hsetup h1 h2 r _)

end Sys2Proof.Machine
end

section
/-! PROOF. The transmitter's turns (R204, R206, R207), and the menu with its stock (R137 to R141). -/

namespace Sys2Proof.Machine

/-! ## The transmitter -/

section link
variable {l : Link}

theorem Link.kick_busy (h : l.tx ≠ .idle) : l.kick = l := by
  unfold Link.kick
  cases ht : l.tx with
  | idle => exact absurd ht h
  | reply => rfl
  | report => rfl

theorem Link.kick_reply (h : l.tx = .idle) (hr : l.replies ≠ []) : l.kick = { l with tx := .reply } := by
  unfold Link.kick
  rw [h]
  cases hrep : l.replies with
  | nil => exact absurd hrep hr
  | cons p ps => rfl

theorem Link.kick_report {q : QueuedReport} {qs : List QueuedReport} (h : l.tx = .idle) (hr : l.replies = []) (hq : l.reports = q :: qs) :
    l.kick = { l with reports := qs, tx := .report q l.lost, lost := false } := by
  unfold Link.kick
  rw [h, hr, hq]

theorem Link.kick_nothing (h : l.tx = .idle) (hr : l.replies = []) (hq : l.reports = []) : l.kick = l := by
  unfold Link.kick
  rw [h, hr, hq]

end link

theorem Place.isReset_false {p : Place} (h : ∀ tag r, p = .request 0x3B tag r → r.result ≠ .ok) : p.isReset = false := by
  cases p with
  | busy => rfl
  | request k tag r =>
    change (k == 0x3B && decide (r.result = .ok)) = false
    by_cases hk : k = 0x3B
    · subst hk
      rw [decide_eq_false (h tag r rfl), Bool.and_false]
    · rw [beq_false_of_ne hk, Bool.false_and]

section sent
variable {s : State}

theorem State.frameSent_idle (h : s.link.tx = .idle) : s.frameSent = s := by
  rw [State.frameSent, h]

theorem State.frameSent_report {q : QueuedReport} {f : Bool} (h : s.link.tx = .report q f) :
    s.frameSent = { s with link := { s.link with tx := .idle } } := by
  rw [State.frameSent, h]

theorem State.frameSent_reply {p : Place} {ps : List Place} (h : s.link.tx = .reply) (hr : s.link.replies = p :: ps) :
    s.frameSent = if p.isReset then s.deviceReset else { s with link := { s.link with tx := .idle, replies := ps } } := by
  rw [State.frameSent, h, hr]

end sent

theorem event_settles {f : State → State} {s t : State} (hf : f s = t) (ht : t.settled) :
    event f s = .next (t.reported []) := by
  rw [event_next, hf, State.finish_settled _ ht]

/-- Settles O56, frame by frame. -/
theorem transmitterTakesTurns : Obligations.TransmitterTakesTurns := by
  unfold Obligations.TransmitterTakesTurns
  refine ⟨fun l r => ⟨fun h => if_pos h, fun h => if_neg (Nat.not_lt.2 h), fun rs => rfl, Link.kick_busy, Link.kick_reply,
    fun q qs => Link.kick_report, Link.kick_nothing⟩, fun s hs => ⟨fun h => ?_, fun q f h => ?_, fun p ps h hr hp => ?_,
    fun tag r ps h hr hok => ?_⟩⟩
  · exact event_settles (State.frameSent_idle h) hs
  · exact event_settles (State.frameSent_report h) hs
  · have hsent := State.frameSent_reply h hr
    rw [Place.isReset_false hp] at hsent
    exact event_settles hsent hs
  · have hsent := State.frameSent_reply h hr
    have hreset : Place.isReset (.request 0x3B tag r) = true := decide_eq_true hok
    rw [hreset] at hsent
    exact congrArg (fun t : State => Host.Outcome.next t.finish) hsent

/-! ## The menu and its stock -/

section menu
variable {s : State} {i tag : Nat} {sl : Slot MenuItem} {m : MenuItem} {y : Yard}

theorem Yard.readItem_parity (hsl : y.menuSlot i = sl) (hf : sl.badFirst = false) (hsec : sl.badSecond = false) :
    y.readItem Yard.drain i = (Read.of sl.record?, y) := by
  have hread := Yard.readItem_readable (y := y) (i := i) Yard.drain (fun _ => by rw [hsl, Slot.wrong, hf, hsec])
  rw [hread, Yard.item?, hsl]

theorem Yard.modItem_at (hsl : y.menuSlot i = sl) (hm : sl.state = .inUse m) (f : MenuItem → MenuItem) :
    y.modItem i f = y.setMenuSlot i (sl.write (f m)) := by
  have hitem : y.item? i = some m := by rw [Yard.item?, hsl, Slot.record?, hm]
  rw [Yard.modItem, hitem, hsl]

theorem Slot.write_parity (hf : sl.badFirst = false) (hsec : sl.badSecond = false) (m : MenuItem) :
    sl.write m = { sl with state := .inUse m } := by
  simp only [Slot.write, hf, hsec]

theorem Slot.record?_out {ρ : Type} {sl : Slot ρ} (h : sl.isOut = true) : sl.record? = none := by
  unfold Slot.isOut at h
  unfold Slot.record?
  cases hst : sl.state with
  | inUse r => rw [hst] at h; cases h
  | free | quarantined | underTest => rfl

theorem StockMode.of_ctorIdx (md : StockMode) : StockMode.of md.ctorIdx = some md := by cases md <;> rfl

/-- A MENU SET with its values in their lists is taken by its body. -/
theorem exec_menuSet (tag : Nat) (hi : i ≤ 63) (st : StationId) (price : Nat) (a : Bool) (md : StockMode) (s : State) :
    exec (.menuSet tag i st.val price (if a then 1 else 0) md.ctorIdx) s =
      request 0x23 tag (menuSetBody i st price a md) s := by
  refine congrArg (fun body => request 0x23 tag body s) (funext fun s => ?_)
  rw [flagOf_flag, StockMode.of_ctorIdx]
  dsimp only
  rw [finOf_val]
  exact congrFun (inRange_ok (decide_eq_true hi) _) s

section bodies
variable (hsl : s.yard.menuSlot i = sl) (hread : s.yard.readItem Yard.drain i = (Read.of sl.record?, s.yard))
include hsl hread

theorem menuSetBody_undefined (h : sl.record? = none) (st : StationId) (price : Nat) (a : Bool) (md : StockMode) :
    menuSetBody i st price a md s = if sl.isOut then refused .storeError s
      else (Reply.setting (decide (9999 < price)) (u16 (min price 9999)),
        { s with yard := s.yard.setMenuSlot i (sl.write (newItem st (min price 9999) a md)) }) := by
  unfold menuSetBody
  dsimp only
  rw [hread, h]
  dsimp only [Read.of]
  rw [hsl]
  rfl

theorem menuSetBody_defined (h : sl.state = .inUse m) (st : StationId) (price : Nat) (a : Bool) (md : StockMode) :
    menuSetBody i st price a md s =
      if s.link.part = .setup then (Reply.setting (decide (9999 < price)) (u16 (min price 9999)),
        { s with yard := s.yard.setMenuSlot i (sl.write (m.redefine st (min price 9999) a md)) })
      else if m.station = st ∧ m.mode = md then (Reply.setting (decide (9999 < price)) (u16 (min price 9999)),
        { s with yard := s.yard.setMenuSlot i (sl.write { m with price := min price 9999, available := a }) })
      else refused .state s := by
  have hrec : sl.record? = some m := by rw [Slot.record?, h]
  unfold menuSetBody
  dsimp only
  rw [hread, hrec]
  dsimp only [Read.of]
  rw [Yard.modItem_at hsl h, Yard.modItem_at hsl h]
  rfl

theorem restockBody_finite (h : sl.state = .inUse m) (hmode : m.mode = .finite) (q : Nat) :
    restockBody i q s = (Reply.setting (decide (min q (65535 - m.loaded) < q)) (u16 (min q (65535 - m.loaded))),
      { s with yard := (if m.remaining = 0 ∧ 0 < (m.load (min q (65535 - m.loaded))).remaining then
          (s.yard.setMenuSlot i (sl.write (m.load (min q (65535 - m.loaded))))).raise
            ((m.load (min q (65535 - m.loaded))).stockReport i)
        else s.yard.setMenuSlot i (sl.write (m.load (min q (65535 - m.loaded))))) }) := by
  have hrec : sl.record? = some m := by rw [Slot.record?, h]
  unfold restockBody
  rw [hread, hrec]
  dsimp only [Read.of]
  rw [if_neg (by rw [hmode]; decide), Yard.modItem_at hsl h]
  rfl

theorem stockWasteBody_finite (h : sl.state = .inUse m) (hmode : m.mode = .finite) (q : Nat) :
    stockWasteBody i q s = (Reply.setting (decide (min q m.remaining < q)) (u16 (min q m.remaining)),
      { s with yard := s.yard.setMenuSlot i (sl.write (m.writeOff q)) }) := by
  have hrec : sl.record? = some m := by rw [Slot.record?, h]
  unfold stockWasteBody
  rw [hread, hrec]
  dsimp only [Read.of]
  rw [if_neg (by rw [hmode]; decide), Yard.modItem_at hsl h]
  rfl

end bodies

theorem stockRange_ok {q : Nat} (hi : i ≤ 63) (h1 : 1 ≤ q) (h2 : q ≤ 65535) : stockRange i q = true := by
  rw [stockRange, decide_eq_true hi, decide_eq_true h1, decide_eq_true h2]
  rfl

theorem exec_restock (tag : Nat) {q : Nat} (hi : i ≤ 63) (h1 : 1 ≤ q) (h2 : q ≤ 65535) (s : State) :
    exec (.restock tag i q) s = request 0x24 tag (restockBody i q) s :=
  congrArg (fun body => request 0x24 tag body s) (inRange_ok (stockRange_ok hi h1 h2) _)

theorem exec_stockWaste (tag : Nat) {q : Nat} (hi : i ≤ 63) (h1 : 1 ≤ q) (h2 : q ≤ 65535) (s : State) :
    exec (.stockWaste tag i q) s = request 0x25 tag (stockWasteBody i q) s :=
  congrArg (fun body => request 0x25 tag body s) (inRange_ok (stockRange_ok hi h1 h2) _)

/-- A stock request of an item that is not in service, or has no stock to count. -/
theorem stockBody_refused (hread : s.yard.readItem Yard.drain i = (Read.of sl.record?, s.yard)) {e : Result}
    (h : (∃ m, sl.state = .inUse m ∧ m.mode = .unlimited) ∧ e = Result.state ∨
      (sl.state = .free ∨ sl.isOut = true) ∧ e = .noSuch) (q : Nat) :
    restockBody i q s = refused e s ∧ stockWasteBody i q s = refused e s := by
  unfold restockBody stockWasteBody
  rw [hread]
  rcases h with ⟨⟨m, hm, hmode⟩, rfl⟩ | ⟨hout, rfl⟩
  · have hrec : sl.record? = some m := by rw [Slot.record?, hm]
    rw [hrec]
    exact ⟨if_pos hmode, if_pos hmode⟩
  · have hrec : sl.record? = none := by
      unfold Slot.record?
      rcases hout with h | h
      · rw [h]
      · unfold Slot.isOut at h
        cases hst : sl.state with
        | inUse r => rw [hst] at h; cases h
        | free | quarantined | underTest => rfl
    rw [hrec]
    exact ⟨rfl, rfl⟩

end menu

/-- Settles O49, request by request. -/
theorem menuAndStock : Obligations.MenuAndStock := by
  unfold Obligations.MenuAndStock
  intro s tag i sl hs hi hsl hf hsec w hw
  have hread := Yard.readItem_parity hsl hf hsec
  have hset (m : MenuItem) : ({ s with yard := s.yard.setMenuSlot i (sl.write m) } : State) = w m := by
    rw [hw, Slot.write_parity hf hsec]
    rfl
  have hws (m : MenuItem) : (w m).settled := by
    rw [hw]
    exact hs.1
  refine ⟨?_, ?_, ?_, ?_⟩
  · rintro st price p a md c ans new rfl rfl rfl rfl
    rw [exec_menuSet tag hi]
    have hreply : Reply.setting (decide (9999 < price)) (u16 (min price 9999)) =
        if price ≤ 9999 then Reply.ok
        else { result := .clamped, indication := .none, fields := [.raw (u16 (min price 9999))] } :=
      Reply.setting_iff Nat.not_le.symm _
    rw [← hreply]
    refine ⟨fun h => ?_, fun h => ?_, fun m h hsetup hmd => ?_, fun m h hsetup hmd => ?_, fun m h hrun hst hmd => ?_,
      fun m h hrun hne => ?_⟩
    · refine request_answers_quietly _ _ _ _ _ _ hs.2 ?_ (hws _)
      rw [menuSetBody_undefined hsl hread (by rw [Slot.record?, h]), if_neg (by rw [Slot.isOut, h]; decide), hset]
      rfl
    · refine request_refused _ _ _ _ _ hs ?_
      rw [menuSetBody_undefined hsl hread (Slot.record?_out h), if_pos h]
    · refine request_answers_quietly _ _ _ _ _ _ hs.2 ?_ (hws _)
      rw [menuSetBody_defined hsl hread h, if_pos hsetup, hset, MenuItem.redefine, if_pos hmd]
    · refine request_answers_quietly _ _ _ _ _ _ hs.2 ?_ (hws _)
      rw [menuSetBody_defined hsl hread h, if_pos hsetup, hset, MenuItem.redefine, if_neg hmd]
      rfl
    · refine request_answers_quietly _ _ _ _ _ _ hs.2 ?_ (hws _)
      rw [menuSetBody_defined hsl hread h, if_neg (by rw [hrun]; decide), if_pos ⟨hst, hmd⟩, hset]
    · refine request_refused _ _ _ _ _ hs ?_
      rw [menuSetBody_defined hsl hread h, if_neg (by rw [hrun]; decide), if_neg hne]
  · rintro qty m k m' h1 h2 h hmode rfl rfl
    have hreply := Reply.setting_iff (Nat.not_le (a := qty) (b := min qty (65535 - m.loaded))).symm
      (u16 (min qty (65535 - m.loaded)))
    rw [exec_restock tag hi h1 h2, ← hreply]
    refine request_answers _ _ _ _ _ _ _ hs.2 ?_ (hws _)
    rw [restockBody_finite hsl hread h hmode]
    by_cases hz : m.remaining = 0 ∧ 0 < min qty (65535 - m.loaded)
    · rw [if_pos hz, if_pos (by rw [MenuItem.load]; exact ⟨hz.1, by rw [hz.1, Nat.zero_add]; exact hz.2⟩), hw,
        Slot.write_parity hf hsec]
      rfl
    · rw [if_neg hz, if_neg (fun hr => hz ⟨hr.1, by rw [MenuItem.load, hr.1, Nat.zero_add] at hr; exact hr.2⟩), hset,
        State.raiseAll_nil]
      rfl
  · rintro qty m k h1 h2 h hmode rfl
    have hreply := Reply.setting_iff (Nat.not_le (a := qty) (b := min qty m.remaining)).symm (u16 (min qty m.remaining))
    rw [exec_stockWaste tag hi h1 h2, ← hreply]
    refine request_answers_quietly _ _ _ _ _ _ hs.2 ?_ (hws _)
    rw [stockWasteBody_finite hsl hread h hmode, hset]
    rfl
  · intro qty h1 h2 e he
    obtain ⟨hr, hw⟩ := stockBody_refused (s := s) hread he qty
    rw [exec_restock tag hi h1 h2, exec_stockWaste tag hi h1 h2]
    exact ⟨request_refused _ _ _ _ _ hs hr, request_refused _ _ _ _ _ hs hw⟩

end Sys2Proof.Machine
end

section
/-! PROOF. The resets of the whole part (R34, R64, R90, R115, R135, R158, R175, R189, R200, R210). -/

namespace Sys2Proof.Machine

/-! ## What a reset leaves of a table -/

section tables
variable {ρ : Type} [DecidableEq ρ] {f : Slot ρ → Slot ρ} {t : Tab (Slot ρ)}

theorem inUse_eq_nil {t : Tab (Slot ρ)} (h : ∀ e ∈ t, e.2.record? = none) : inUse t = [] := by
  refine List.eq_nil_iff_forall_not_mem.2 ?_
  rintro ⟨i, r⟩ hm
  obtain ⟨sl, hmem, hr⟩ := mem_inUse.1 hm
  rw [h _ hmem] at hr
  cases hr

theorem inUse_mapEntries (h : ∀ sl, (f sl).record? = none) (t : Tab (Slot ρ)) :
    inUse (Tab.mapEntries Slot.blank (fun _ => f) t) = [] := by
  refine inUse_eq_nil fun e he => ?_
  obtain ⟨a, -, rfl⟩ := Tab.mem_mapEntries he
  exact h a.2

theorem Slot.deviceReset_record (sl : Slot ρ) : sl.deviceReset.record? = none := by
  unfold Slot.deviceReset
  cases h : sl.state with
  | free | quarantined => simp [Slot.record?, h]
  | inUse => rfl
  | underTest was => cases was <;> rfl

theorem Slot.powerOn_record (sl : Slot ρ) : sl.powerOn.record? = none := rfl

/-- Whether a device reset leaves a slot quarantined. -/
def Slot.staysOut {ρ : Type} (sl : Slot ρ) : Bool :=
  match sl.state with
  | .quarantined => true
  | .underTest was => was
  | .free => false
  | .inUse _ => false

theorem Slot.deviceReset_quarantined (sl : Slot ρ) : sl.deviceReset.isQuarantined = sl.staysOut := by
  unfold Slot.deviceReset Slot.staysOut
  cases h : sl.state with
  | free | quarantined => simp [Slot.isQuarantined, h]
  | inUse => rfl
  | underTest was => cases was <;> rfl

/-- The default of a table is not counted: a quarantined slot is never it. -/
theorem countP_mapEntries (q : Slot ρ → Bool) (hq : q Slot.blank = false) (f : Slot ρ → Slot ρ) (t : Tab (Slot ρ)) :
    (Tab.mapEntries Slot.blank (fun _ => f) t).countP (fun e => q e.2) = t.countP fun e => q (f e.2) := by
  unfold Tab.mapEntries
  rw [List.countP_filter, List.countP_map]
  refine List.countP_congr fun e _ => ?_
  simp only [Function.comp_apply, Bool.and_eq_true, Bool.not_eq_true', decide_eq_false_iff_not]
  refine ⟨fun h => h.1, fun h => ⟨h, fun hd => ?_⟩⟩
  rw [hd, hq] at h
  cases h

omit [DecidableEq ρ] in
theorem quarantinedSlots_length (t : Tab (Slot ρ)) : (quarantinedSlots t).length = t.countP fun e => e.2.isQuarantined := by
  rw [quarantinedSlots, List.length_map, List.countP_eq_length_filter]

theorem quarantinedSlots_deviceReset (t : Tab (Slot ρ)) :
    (quarantinedSlots (Tab.mapEntries Slot.blank (fun _ => Slot.deviceReset) t)).length = quarantinedAfterReset t := by
  rw [quarantinedSlots_length, countP_mapEntries (fun sl => sl.isQuarantined) rfl]
  refine List.countP_congr fun e _ => ?_
  rw [Slot.deviceReset_quarantined]
  rfl

theorem quarantinedSlots_powerOn (t : Tab (Slot ρ)) :
    (quarantinedSlots (Tab.mapEntries Slot.blank (fun _ => Slot.powerOn) t)).length = 0 := by
  rw [quarantinedSlots_length, countP_mapEntries (fun sl => sl.isQuarantined) rfl]
  exact List.countP_eq_zero.2 fun e _ => Bool.false_ne_true

theorem Store.quarantinedCount_deviceReset (st : Store) : st.deviceReset.quarantinedCount =
    quarantinedAfterReset st.cars + quarantinedAfterReset st.bays + quarantinedAfterReset st.orders +
      quarantinedAfterReset st.menu + quarantinedAfterReset st.tickets := by
  simp only [Store.quarantinedCount, Store.deviceReset, quarantinedSlots_deviceReset]

theorem Store.quarantinedCount_powerOn (st : Store) : st.powerOn.quarantinedCount = 0 := by
  simp only [Store.quarantinedCount, Store.powerOn, quarantinedSlots_powerOn]

theorem quarantineKept_deviceReset (h : Tab.wf Slot.blank t = true) :
    quarantineKept t (Tab.mapEntries Slot.blank (fun _ => Slot.deviceReset) t) := by
  intro i hi
  rw [Tab.get_mapEntries (fun _ => Slot.deviceReset) (fun _ => rfl) h]
  unfold Slot.isQuarantined at hi
  unfold Slot.deviceReset
  cases hs : (Tab.get Slot.blank t i).state with
  | quarantined => rfl
  | free | inUse | underTest => exact absurd hi (by simp [hs])

end tables

/-! ## The parts of a reset state -/

section part
variable (s : State)

theorem Screen.deviceReset_eq (r : Screen) : r.deviceReset = { Screen.reset with
    headA := { r.headA with motor := false, douser := false, speedLost := false, stopAtRunout := false }
    headB := { r.headB with motor := false, douser := false, speedLost := false, stopAtRunout := false } } := rfl

theorem Lane.deviceReset_eq (l : Lane) : l.deviceReset = { Lane.reset with
    arming := l.arming, barrierLoop := l.barrierLoop, feedback := l.feedback
    command := if l.barrierLoop = .clear then .down else .up } := by
  unfold Lane.deviceReset
  cases l.barrierLoop <;> rfl

end part

/-- Settles O58, block by block. -/
theorem wholePartResets : Obligations.WholePartResets := by
  unfold Obligations.WholePartResets
  intro s tag
  refine ⟨fun hs => request_answers_quietly 0x3B tag done s s Reply.ok hs.2 rfl hs.1, ?_⟩
  have hscreens (sc : ScreenId) : (s.screens.map Screen.deviceReset)[sc] = (s.screens[sc]).deviceReset :=
    Vector.getElem_map ..
  have hlanes (ln : LaneId) : (s.lanes.map Lane.deviceReset)[ln] = (s.lanes[ln]).deviceReset := Vector.getElem_map ..
  have hloops (lp : ScreenId) : (s.yard.loops.map LoopRec.deviceReset)[lp] = (s.yard.loops[lp]).deviceReset :=
    Vector.getElem_map ..
  have hsound (sc : ScreenId) : (Vector.replicate 4 Sound.reset)[sc] = Sound.reset := Vector.getElem_replicate ..
  simp only [List.forall_mem_cons]
  refine ⟨?_, ?_, fun c hc => absurd hc List.not_mem_nil⟩
  · refine ⟨_, rfl, fun sc => (hscreens sc).trans (Screen.deviceReset_eq _), hsound, rfl,
      fun ln => (hlanes ln).trans (Lane.deviceReset_eq _), fun lp => hloops lp, rfl, rfl,
      inUse_mapEntries Slot.deviceReset_record _, inUse_mapEntries Slot.deviceReset_record _,
      inUse_mapEntries Slot.deviceReset_record _, inUse_mapEntries Slot.deviceReset_record _,
      inUse_mapEntries Slot.deviceReset_record _, fun _ => ⟨fun hw => ?_, ?_⟩, fun h => by cases h⟩
    · obtain ⟨-, -, hw, -⟩ := (State.canonical_iff s).1 hw
      obtain ⟨hcars, hbays, horders, hmenu, htickets⟩ := (Store.canonical_iff _).1 hw
      exact ⟨quarantineKept_deviceReset hcars, quarantineKept_deviceReset hbays, quarantineKept_deviceReset horders,
        quarantineKept_deviceReset hmenu, quarantineKept_deviceReset htickets⟩
    · rintro q rfl
      have hcount := Store.quarantinedCount_deviceReset s.yard.store
      refine ⟨hcount, ?_⟩
      rw [← hcount]
      rfl
  · refine ⟨_, rfl, fun sc => (hscreens sc).trans (Screen.deviceReset_eq _), hsound, rfl,
      fun ln => (hlanes ln).trans (Lane.deviceReset_eq _), fun lp => hloops lp, rfl, rfl,
      inUse_mapEntries Slot.powerOn_record _, inUse_mapEntries Slot.powerOn_record _,
      inUse_mapEntries Slot.powerOn_record _, inUse_mapEntries Slot.powerOn_record _,
      inUse_mapEntries Slot.powerOn_record _, (fun h => by cases h), fun _ => ⟨?_, rfl⟩⟩
    exact Store.quarantinedCount_powerOn s.yard.store

end Sys2Proof.Machine
end

section
/-! PROOF. The fields of the status replies (R32, R62, R88, R114, R157, R174, R188, R199, R211). -/

namespace Sys2Proof.Machine

/-! ## The replies' fields -/

section fields

theorem ceilSeconds_unique {secs : Nat → Nat} (h : ∀ ms, secs ms = (ms + 999) / 1000) : secs = ceilSeconds := funext h

theorem OutSlot.status_eq (sl : OutSlot) : sl.status = if sl.use = .free then u8 sl.use.ctorIdx ++ [0, 0, 0, 0, 0, 0, 0]
    else u8 sl.use.ctorIdx ++ 1 :: u8 sl.post ++ 1 :: u8 sl.kind.ctorIdx ++ opt u8 sl.v0 ++ opt u8 sl.v1 ++
      1 :: u8 sl.prio ++ 1 :: u8 sl.origin.ctorIdx ++ 1 :: u8 sl.fails := by
  unfold OutSlot.status
  by_cases h : sl.use = .free
  · rw [if_pos h, decide_eq_false (not_not.2 h)]
    rfl
  · rw [if_neg h, decide_eq_true h]
    simp [presentFields, sideBytes]

theorem LoopRec.countPosts_eq (l : LoopRec) {posts : (Post → Bool) → List Byte}
    (h : ∀ q, posts q = u8 ((List.range 128).countP fun p => q (l.post p))) (q : Post → Bool) :
    u8 (l.countPosts q) = posts q := (h q).symm

theorem HeadRec.status_eq {head : HeadRec → List Byte} (h : ∀ h : HeadRec, head h = flag h.motor ++
    u8 (if h.douser then 0 else 1) ++ flag h.atSpeed ++ flag h.runout ++ flag h.lampOk ++ u8 h.state.ctorIdx ++
      flag h.stopAtRunout) : head = HeadRec.status := funext h

theorem activeStatus_eq (a : Option CueSet) : (match a with
    | some cs => u8 cs.reel ++ u16 cs.length ++ u8 cs.cues.length ++ u8 (cs.cues.countP fun c => c.2)
    | none => u8 Config.emptySetReel ++ u16 Config.emptySetLength ++ u8 0 ++ u8 0) = activeStatus a := rfl

theorem Sound.progAhead_eq (r : Sound) : r.progAhead = r.prog.countP fun e =>
    e.2.any fun b => decide (0 ≤ dist24 b.tag r.servo.block) && decide (dist24 b.tag r.servo.block ≤ 63) := by
  unfold Sound.progAhead
  congr 1
  funext e
  cases e.2 <;> rfl

theorem Pending.status_eq (p : Pending) : p.status = (match p with
    | .absent => [0]
    | .admission car ticket sc => 1 :: u16 car ++ u32 ticket ++ u8 sc
    | .exit car => 1 :: 1 :: u16 car
    | .anonymous => [1, 0]) := by
  cases p <;> rfl

theorem Lane.status_eq (ln : LaneId) (l : Lane) : l.status (isExit ln) =
    u8 l.state.ctorIdx ++ u8 l.arming.ctorIdx ++ u8 l.barrierLoop.ctorIdx ++ u8 l.command.ctorIdx ++
      u8 l.feedback.ctorIdx ++ flag l.closeDeferred ++ l.pending.status ++
      opt u8 (l.dwell.map ceilSeconds) ++ opt u16 (l.stall.map ceilSeconds) ++ opt u8 (l.travel.map ceilSeconds) ++
      opt u8 (if 4 ≤ ln.val then l.exitRead.map ceilSeconds else none) ++ l.counts.status ++ u8 l.dwellSetting ++
      u16 l.stallSetting ++ opt u8 (if 4 ≤ ln.val then some l.exitReadSetting else none) ++ u8 10 := by
  unfold Lane.status isExit
  simp only [decide_eq_true_eq]

theorem Yard.reservation_eq {y : Yard} {reserved : StationId → Nat}
    (h : ∀ st, reserved st = (y.held.toList.flatten.map fun e => e.stations.count st).sum) : y.reservation = reserved :=
  (funext h).symm

theorem Slot.isOut_of_quarantined {ρ : Type} {sl : Slot ρ} (h : sl.isQuarantined = true) : sl.isOut = true := by
  unfold Slot.isQuarantined at h
  unfold Slot.isOut
  cases hs : sl.state with
  | quarantined | underTest => rfl
  | free | inUse => simp [hs] at h

/-- The slots out of use are those quarantined and those under test. -/
theorem countP_isOut {ρ : Type} (t : Tab (Slot ρ)) : (t.countP fun e => e.2.isOut) =
    (t.countP fun e => e.2.isQuarantined) + t.countP fun e => e.2.isOut && !e.2.isQuarantined := by
  induction t with
  | nil => rfl
  | cons e t ih =>
    rw [List.countP_cons, List.countP_cons, List.countP_cons, ih]
    cases hq : e.2.isQuarantined with
    | true => simp [Slot.isOut_of_quarantined hq]; omega
    | false => simp; omega

/-- What one table adds to STORE STATUS, by the width of its numbers. -/
theorem tableStatus_eq {ρ : Type} (t : Tab (Slot ρ)) {size width : Nat} {count number : Nat → List Byte}
    (hc : ∀ n, sized size n = count n) (hn : ∀ n, sized (size - 1) n = number n)
    (hw : (if size ≤ 255 then 1 else 2) = width) : tableStatus t size =
      [.raw (count (inUse t).length ++ count (size - ((inUse t).length + t.countP fun e => e.2.isOut)) ++
          count (t.countP fun e => e.2.isQuarantined) ++ count (t.countP fun e => e.2.isOut && !e.2.isQuarantined)),
        .list width ((t.filter fun e => e.2.isQuarantined).map fun e => number e.1)] := by
  have hout : (t.countP fun e => e.2.isOut) - (quarantinedSlots t).length =
      t.countP fun e => e.2.isOut && !e.2.isQuarantined := by
    rw [quarantinedSlots_length, countP_isOut, Nat.add_sub_cancel_left]
  unfold tableStatus
  dsimp only
  rw [hout, quarantinedSlots_length, hw]
  simp only [hc, quarantinedSlots, List.map_map, Function.comp_def, hn]

end fields

end Sys2Proof.Machine
end

section
/-! PROOF. Status requests and queries: what they answer, with nothing changed (R32, R62, R88, R111, R114, R134, R157, R174,
R188, R199, R211). -/

namespace Sys2Proof.Machine

section queries
variable {s : State} {tag kind : Nat} {c : Instr} {body : State → Reply × State} {r : Reply}

/-- A request whose body changes nothing. -/
theorem exec_answers (hs : s.ready) (hx : exec c s = request kind tag body s) (hb : body s = (r, s)) :
    exec c s = .next (s.answered kind tag r []) :=
  hx.trans (request_answers_quietly kind tag body s s r hs.2 hb hs.1)

/-! ## Reads that meet no parity fault -/

section reads
variable {y : Yard} (hu : y.store.undamaged = true)
include hu

/-- A read by number meets no parity fault, and changes nothing. -/
theorem Yard.readCar_undamaged (n : Nat) : ∃ o : Option Car, y.readCar Yard.drain n = (Read.of o, y) := by
  obtain ⟨hcars, -⟩ := (Store.undamaged_iff _).1 hu
  unfold Yard.readCar
  cases y.findCar n with
  | none => exact ⟨none, rfl⟩
  | some e => exact ⟨_, Yard.readCarSlot_readable _ (Slot.readable_of_undamaged hcars e.1)⟩

theorem Yard.readOrder_undamaged (n : Nat) : ∃ o : Option Order, y.readOrder Yard.drain n = (Read.of o, y) := by
  obtain ⟨-, -, horders, -⟩ := (Store.undamaged_iff _).1 hu
  unfold Yard.readOrder
  cases y.findOrder n with
  | none => exact ⟨none, rfl⟩
  | some e => exact ⟨_, Yard.readOrderSlot_readable _ (Slot.readable_of_undamaged horders e.1)⟩

/-- The reads of a held order and its car change nothing, and do not lose the car. -/
theorem Yard.readHeld_undamaged (n : Nat) : ∃ x, y.readHeld n = (x, y) := by
  obtain ⟨o, ho⟩ := y.readOrder_undamaged hu n
  unfold Yard.readHeld
  rw [ho]
  cases o with
  | none => exact ⟨_, rfl⟩
  | some o =>
    obtain ⟨c, hc⟩ := y.readCar_undamaged hu o.car
    simp only [Read.of, hc]
    cases c with
    | none => exact ⟨_, rfl⟩
    | some c => exact ⟨_, rfl⟩

variable (hw : y.store.canonical = true)
include hw

theorem Yard.readCar_known {n : Nat} {c : Car} (h : y.car? n = some c) : y.readCar Yard.drain n = (.whole c, y) := by
  obtain ⟨hcars, -⟩ := (Store.undamaged_iff _).1 hu
  obtain ⟨e, hf, rfl⟩ := Option.map_eq_some_iff.1 h
  exact Yard.readCar_found _ hcars hw (i := e.1) hf

theorem Yard.readOrder_known {n : Nat} {o : Order} (h : y.order? n = some o) :
    y.readOrder Yard.drain n = (.whole o, y) := by
  obtain ⟨-, -, horders, -⟩ := (Store.undamaged_iff _).1 hu
  obtain ⟨e, hf, rfl⟩ := Option.map_eq_some_iff.1 h
  exact Yard.readOrder_found _ horders hw (i := e.1) hf

theorem Yard.readHeld_gone {n : Nat} {o : Order} (ho : y.order? n = some o) (hc : y.car? o.car = none) :
    y.readHeld n = (.carGone o, y) := by
  unfold Yard.readHeld
  rw [Yard.readOrder_known hu hw ho]
  dsimp only
  rw [Yard.readCar_absent _ (Option.map_eq_none_iff.1 hc)]

theorem Yard.readHeld_known {n : Nat} {o : Order} {c : Car} (ho : y.order? n = some o) (hc : y.car? o.car = some c) :
    y.readHeld n = (if o.carGone then .carGone o else .whole o c, y) := by
  unfold Yard.readHeld
  rw [Yard.readOrder_known hu hw ho]
  dsimp only
  rw [Yard.readCar_known hu hw hc]

/-- What an entry used ticket's read answers. -/
theorem Yard.readTicket_undamaged (n : Nat) :
    y.readTicket Yard.drain n = (Read.of ((y.findTicket n).map Prod.snd), y) := by
  obtain ⟨-, -, -, -, htickets⟩ := (Store.undamaged_iff _).1 hu
  cases hf : y.findTicket n with
  | none => exact Yard.readTicket_absent _ hf
  | some e => exact Yard.readTicket_found _ htickets hw (i := e.1) (e := e.2) hf

/-- The cars of a screen's field, by a read of every record. -/
theorem Yard.readField_entries (sc : ScreenId) {list : List (Nat × Car)}
    (h : ∀ e ∈ list, (y.carSlot e.1).record? = some e.2) : Yard.readField sc (list.map Prod.fst) y =
      ((list.map Prod.snd).filter fun c => decide (c.screen = sc), y) := by
  obtain ⟨hcars, -⟩ := (Store.undamaged_iff _).1 hu
  induction list with
  | nil => rfl
  | cons e list ih =>
    have ih := ih fun j hj => h j (List.mem_cons_of_mem _ hj)
    rw [List.map_cons, Yard.readField, Yard.readCarSlot_readable _ (Slot.readable_of_undamaged hcars e.1),
      h e List.mem_cons_self]
    simp only [Read.of, ih, List.map_cons, List.filter_cons, decide_eq_true_eq]

theorem Yard.readField_undamaged (sc : ScreenId) : Yard.readField sc y.carSlotsInUse y =
    (((inUse y.store.cars).map Prod.snd).filter fun c => decide (c.screen = sc), y) := by
  obtain ⟨hcars, -⟩ := (Store.canonical_iff _).1 hw
  exact Yard.readField_entries hu hw sc fun e he => get_of_mem_inUse (i := e.1) (r := e.2) hcars he

end reads

/-! ## The bodies of the queries -/

section bodies
variable (hu : s.yard.store.undamaged = true)
include hu

theorem bayQueryBody_answers (b : Nat) : bayQueryBody b s = (Reply.okWith (bayStatus s.yard b), s) := by
  unfold bayQueryBody
  rw [Yard.readBay_undamaged _ hu]
  cases s.yard.bay? b <;> rfl

theorem menuQueryBody_answers (i : Nat) : menuQueryBody i s = (Reply.okWith (menuStatus s.yard i), s) := by
  obtain ⟨-, -, -, hmenu, -⟩ := (Store.undamaged_iff _).1 hu
  unfold menuQueryBody
  rw [Yard.readItem_readable _ (Slot.readable_of_undamaged hmenu i)]
  cases s.yard.item? i <;> rfl

theorem ticketQueryBody_answers (hw : s.yard.store.canonical = true) (n : Nat) : ticketQueryBody n s =
    (Reply.okWith (opt (fun t : Ticket => u8 t.lane ++ u16 t.minute) ((s.yard.findTicket n).map Prod.snd) ++
      opt u16 (((inUse s.yard.store.cars).find? fun e => e.2.ticket == n).map fun e => e.2.number)), s) := by
  obtain ⟨hcars, -⟩ := (Store.undamaged_iff _).1 hu
  unfold ticketQueryBody
  rw [Yard.readTicket_undamaged hu hw]
  dsimp only
  rw [Yard.searchCars_undamaged _ hcars hw]
  dsimp only
  rw [Option.map_map]
  cases s.yard.findTicket n <;> rfl

theorem fieldStatusBody_answers (hw : s.yard.store.canonical = true) (sc : ScreenId) {cars : CarState → List Byte}
    (hcars : ∀ st, cars st = u16 ((inUse s.yard.store.cars).countP fun e =>
      decide (e.2.screen = sc) && decide (e.2.state = st))) : fieldStatusBody sc s =
    (Reply.okWith (u16 s.yard.capacity[sc] ++ u16 s.yard.admittedCount[sc] ++ u16 (s.yard.openBays sc) ++
      cars .entering ++ cars .onField ++ cars .parked ++ cars .leaving ++ u16 s.yard.lastCar), s) := by
  unfold fieldStatusBody
  rw [Yard.readField_undamaged hu hw]
  dsimp only
  have hcount (st : CarState) : u16 ((((inUse s.yard.store.cars).map Prod.snd).filter fun c =>
      decide (c.screen = sc)).countP fun c => decide (c.state = st)) = cars st := by
    rw [hcars, List.countP_filter, List.countP_map]
    congr 2
    funext e
    exact Bool.and_comm _ _
  rw [hcount, hcount, hcount, hcount]

/-- A query of a record answers from it and changes nothing. -/
theorem query_quiet (n : Nat) (j : RunnerId) : ∀ c ∈ [Instr.carQuery tag n, .orderQuery tag n, .runnerStatus tag j.val],
    s.ready → ∃ kind reply, requestOf c = some (kind, tag) ∧ exec c s = .next (s.answered kind tag reply []) := by
  obtain ⟨oc, hcar⟩ := s.yard.readCar_undamaged hu n
  obtain ⟨oo, horder⟩ := s.yard.readOrder_undamaged hu n
  have hcarBody : ∃ r, carQueryBody n s = (r, s) := by
    unfold carQueryBody
    rw [hcar]
    cases oc <;> exact ⟨_, rfl⟩
  have horderBody : ∃ r, orderQueryBody n s = (r, s) := by
    unfold orderQueryBody
    rw [horder]
    cases oo <;> exact ⟨_, rfl⟩
  have hrunnerBody : ∃ r, withRunner j.val runnerStatusBody s = (r, s) := by
    rw [withRunner_val]
    unfold runnerStatusBody
    dsimp only
    cases s.yard.runners[j].held with
    | none => exact ⟨_, rfl⟩
    | some m =>
      obtain ⟨x, hx⟩ := s.yard.readHeld_undamaged hu m
      dsimp only
      rw [hx]
      cases x <;> exact ⟨_, rfl⟩
  obtain ⟨rc, hrc⟩ := hcarBody
  obtain ⟨ro, hro⟩ := horderBody
  obtain ⟨rr, hrr⟩ := hrunnerBody
  simp only [List.forall_mem_cons]
  exact ⟨fun hs => ⟨0x20, rc, rfl, exec_answers hs rfl hrc⟩, fun hs => ⟨0x2A, ro, rfl, exec_answers hs rfl hro⟩,
    fun hs => ⟨0x34, rr, rfl, exec_answers hs rfl hrr⟩, fun c hc => absurd hc List.not_mem_nil⟩

end bodies

end queries

/-- Settles O59, request by request. -/
theorem statusChangesNothing : Obligations.StatusChangesNothing := by
  unfold Obligations.StatusChangesNothing
  intro s tag secs hs hsecs
  obtain rfl := ceilSeconds_unique hsecs
  refine ⟨?_, ?_, ?_, ?_, ?_, ?_, ?_, ?_, ?_, ?_⟩
  · rintro sc r head active rfl hhead rfl
    rw [HeadRec.status_eq hhead]
    refine exec_answers hs rfl ?_
    rw [withFin_val]
    rfl
  · rintro sc r v rfl rfl
    refine exec_answers hs rfl ?_
    rw [withFin_val, ← Sound.progAhead_eq]
    rfl
  · rintro lp l slot posts rfl hslot hposts
    obtain rfl : slot = OutSlot.status := funext fun sl => (hslot sl).trans sl.status_eq.symm
    refine ⟨exec_answers hs rfl ?_, ?_⟩
    · rw [withFin_val]
      simp only [← LoopRec.countPosts_eq _ hposts]
      rfl
    · rintro n p hn rfl
      refine exec_answers hs rfl ?_
      rw [withFin_val, inRange_ok (decide_eq_true hn)]
      rfl
  · rintro ln l held c rfl rfl hheld
    refine exec_answers hs rfl ?_
    rw [withFin_val, Lane.status_eq, hheld.trans (Pending.status_eq _).symm]
    simp only [LaneCounts.status, List.append_assoc]
  · intro reserved hreserved
    have hres := Yard.reservation_eq hreserved
    refine ⟨fun st => exec_answers hs rfl ?_, ?_⟩
    · rw [withStation_val, ← hres]
      rfl
    · rintro orders held taken out rfl rfl rfl rfl
      rw [← hres]
      exact exec_answers hs rfl rfl
  · exact exec_answers hs rfl rfl
  · exact exec_answers hs rfl rfl
  · rintro table htable fs rfl
    refine exec_answers hs rfl ?_
    simp only [htable]
    unfold storeStatusBody
    dsimp only
    rw [tableStatus_eq (count := u16) (number := u16) (width := 2) _ (fun _ => rfl) (fun _ => rfl) rfl,
      tableStatus_eq (count := u16) (number := u16) (width := 2) _ (fun _ => rfl) (fun _ => rfl) rfl,
      tableStatus_eq (count := u16) (number := u8) (width := 2) _ (fun _ => rfl) (fun _ => rfl) rfl,
      tableStatus_eq (count := u8) (number := u8) (width := 1) _ (fun _ => rfl) (fun _ => rfl) rfl,
      tableStatus_eq (count := u16) (number := u16) (width := 2) _ (fun _ => rfl) (fun _ => rfl) rfl]
    rfl
  · exact exec_answers hs rfl rfl
  · intro hu sc r n i b hi hb
    refine ⟨fun hw => exec_answers hs rfl (ticketQueryBody_answers hu hw n), ?_, ?_, fun hw cars hcars => ?_,
      fun c hc => query_quiet hu n r c hc hs, ?_, ?_, ?_, ?_, ?_⟩
    · refine exec_answers hs rfl ((congrFun (inRange_ok (decide_eq_true hb) _) s).trans ((bayQueryBody_answers hu b).trans ?_))
      unfold bayStatus
      cases s.yard.bay? b <;> rfl
    · refine exec_answers hs rfl ((congrFun (inRange_ok (decide_eq_true hi) _) s).trans ((menuQueryBody_answers hu i).trans ?_))
      unfold menuStatus
      cases s.yard.item? i with
      | none => rfl
      | some m => simp [presentFields, MenuItem.fields]
    · refine exec_answers hs rfl ?_
      rw [withFin_val, fieldStatusBody_answers hu hw sc hcars]
    · intro hn
      refine exec_answers hs rfl ?_
      rw [carQueryBody, Yard.readCar_absent _ hn]
    · intro hn
      refine exec_answers hs rfl ?_
      rw [orderQueryBody, Yard.readOrder_absent _ hn]
      rfl
    · intro hw c hc
      refine exec_answers hs rfl ?_
      rw [carQueryBody, Yard.readCar_known hu hw hc]
      dsimp only
      obtain ⟨e, hf, rfl⟩ := Option.map_eq_some_iff.1 hc
      rw [Car.status, (Yard.findCar_slot hw (i := e.1) (c := e.2) hf).2]
      rfl
    · rintro hw k whole rfl hwhole
      have hbody (x : Reply) (hx : runnerStatusBody r s = (x, s)) :
          exec (.runnerStatus tag r.val) s = .next (s.answered 0x34 tag x []) :=
        exec_answers hs rfl ((congrFun (withRunner_val r _) s).trans hx)
      have hstatus (gone : Option Bool) (bay : Option Nat) :
          whole gone bay = Reply.okWith ((s.yard.runners[r]).status ++ heldStatus gone bay) := by
        rw [hwhole, heldStatus, ← List.append_assoc]
        rfl
      refine ⟨fun hk => hbody _ ?_, fun h o hk ho => ⟨fun hc => hbody _ ?_, fun c hgone hc => hbody _ ?_⟩⟩
      all_goals
        unfold runnerStatusBody
        dsimp only
        rw [hstatus, hk]
      · dsimp only
        rw [Yard.readHeld_gone hu hw ho hc]
        rfl
      · dsimp only
        rw [Yard.readHeld_known hu hw ho hc, if_neg (by rw [hgone]; decide)]
        dsimp only
        rw [hgone]
        rfl
    · intro hw o ho
      refine exec_answers hs rfl ?_
      rw [orderQueryBody, Yard.readOrder_known hu hw ho]
      dsimp only
      rw [Order.status, linesStatus]
      simp only [List.append_assoc]
      rfl

end Sys2Proof.Machine
end

section
/-! PROOF. The receiver of the host link, and the frames it turns away (R201, R202, R204, R210). -/

namespace Sys2Proof.Machine

/-! ## Numbers in bytes -/

theorem getU16_u16 {n : Nat} (h : n < 65536) : ∃ hi lo, u16 n = [hi, lo] ∧ getU16 hi lo = n := by
  refine ⟨_, _, rfl, ?_⟩
  simp only [getU16, BitVec.toNat_ofNat]
  omega

theorem crc_matches_iff (crc : BitVec 16) (c1 c0 : Byte) :
    crc = BitVec.ofNat 16 (numberOf [c1, c0]) ↔ u16 crc.toNat = [c1, c0] := by
  have hcrc := crc.isLt
  have h1 := c1.isLt
  have h0 := c0.isLt
  simp only [numberOf, List.foldl_cons, List.foldl_nil, u16, List.cons.injEq, and_true]
  rw [← BitVec.toNat_inj, ← BitVec.toNat_inj, ← BitVec.toNat_inj]
  simp only [BitVec.toNat_ofNat]
  omega

/-! ## A step that has ended ends so again -/

theorem Link.kick_kick (l : Link) : l.kick.kick = l.kick := by
  by_cases hidle : l.tx = .idle
  · by_cases hrep : l.replies = []
    · cases hq : l.reports with
      | nil => rw [Link.kick_nothing hidle hrep hq, Link.kick_nothing hidle hrep hq]
      | cons q qs =>
        rw [Link.kick_report hidle hrep hq]
        exact Link.kick_busy (by simp)
    · rw [Link.kick_reply hidle hrep]
      exact Link.kick_busy (by simp)
  · rw [Link.kick_busy hidle, Link.kick_busy hidle]

theorem State.finish_finish (s : State) : s.finish.finish = s.finish := by
  rw [State.finish_settled _ s.finish_is_settled]
  unfold State.reported
  rw [State.finish_link, Link.after, List.foldl_nil, Link.after, Link.kick_kick]
  rfl

/-! ## The receiver -/

/-- A state with the receiver's bytes in place of its own. -/
def State.withRx (s : State) (rx : Option (List Byte)) : State :=
  { s with link := { s.link with rx := rx } }

/-- A state whose frame is discarded with a count, unless a RESET DEVICE waits, with the receiver's bytes after it. -/
def State.lostFrame (s : State) (rx : Option (List Byte)) : State :=
  { s with link := { s.link with
    rx := rx, linkErrors := if s.link.resetPending then s.link.linkErrors else satInc s.link.linkErrors } }

section receiver
variable {s : State}

theorem State.withRx_same {rx : Option (List Byte)} (h : s.link.rx = rx) : s.withRx rx = s := by
  subst h
  rfl

theorem State.discardFrame_eq (s : State) : s.discardFrame = s.lostFrame none := by
  unfold State.discardFrame State.lostFrame
  split <;> rfl

theorem State.discardFrame_withRx (s : State) (rx : Option (List Byte)) : (s.withRx rx).discardFrame = s.discardFrame := by
  rw [State.discardFrame_eq, State.discardFrame_eq]
  rfl

/-- Hunting, the receiver drops every byte but 0xA5. -/
theorem State.takeHostByte_hunt (h : s.link.rx = none) (b : Byte) :
    s.takeHostByte b = s.withRx (if b = 0xA5#8 then some [] else none) := by
  unfold State.takeHostByte
  rw [h]
  dsimp only
  split
  · rfl
  · exact (State.withRx_same h).symm

theorem State.foldl_takeHostByte_junk (h : s.link.rx = none) {junk : List Byte} (hj : ∀ b ∈ junk, b ≠ 0xA5#8) :
    junk.foldl State.takeHostByte s = s := by
  induction junk with
  | nil => rfl
  | cons b junk ih =>
    rw [List.foldl_cons, State.takeHostByte_hunt h, if_neg (hj b List.mem_cons_self), State.withRx_same h]
    exact ih fun c hc => hj c (List.mem_cons_of_mem _ hc)

theorem State.takeHostByte_first (s : State) (b : Byte) : (s.withRx (some [])).takeHostByte b = s.withRx (some [b]) := rfl

theorem State.takeHostByte_next (s : State) (hi lo b : Byte) (r : List Byte) :
    (s.withRx (some (hi :: lo :: r))).takeHostByte b =
      if 1024 < getU16 hi lo then s.discardFrame
      else if (r ++ [b]).length < getU16 hi lo + 4 then s.withRx (some (hi :: lo :: (r ++ [b])))
      else (s.withRx (some (hi :: lo :: r))).endFrame (getU16 hi lo)
        (crc16 ((hi :: lo :: (r ++ [b])).take (getU16 hi lo + 4))) (r ++ [b]) := by
  change (if 1024 < getU16 hi lo then (s.withRx _).discardFrame else _) = _
  rw [State.discardFrame_withRx]
  rfl

theorem State.takeHostByte_second (s : State) (hi lo : Byte) : (s.withRx (some [hi])).takeHostByte lo =
    if 1024 < getU16 hi lo then s.discardFrame else s.withRx (some [hi, lo]) := by
  change (if 1024 < getU16 hi lo then (s.withRx _).discardFrame else if 0 < getU16 hi lo + 4 then _ else _) = _
  rw [State.discardFrame_withRx, if_pos (Nat.succ_pos _)]
  rfl

/-- The bytes of a frame are gathered up to the last one. -/
theorem State.foldl_takeHostByte_gather (s : State) {hi lo : Byte} (hn : getU16 hi lo ≤ 1024) {r bytes : List Byte}
    (h : (r ++ bytes).length < getU16 hi lo + 4) :
    bytes.foldl State.takeHostByte (s.withRx (some (hi :: lo :: r))) = s.withRx (some (hi :: lo :: (r ++ bytes))) := by
  induction bytes generalizing r with
  | nil => rw [List.append_nil]; rfl
  | cons b bytes ih =>
    have hlen : (r ++ [b]).length < getU16 hi lo + 4 := by
      simp only [List.length_append, List.length_cons, List.length_nil] at h ⊢
      omega
    rw [List.foldl_cons, State.takeHostByte_next, if_neg (Nat.not_lt.2 hn), if_pos hlen,
      ih (by rwa [List.append_assoc])]
    rw [List.append_assoc]
    rfl

/-- A whole frame is judged by its CRC, and is a good frame or discarded. -/
theorem State.foldl_takeHostByte_frame (h : s.link.rx = none) {junk body frame : List Byte}
    (hj : ∀ b ∈ junk, b ≠ 0xA5#8) (hlen : body.length ≤ 1024) (k n : Nat)
    (hframe : frame = u16 body.length ++ u8 k ++ u8 n ++ body) (c1 c0 : Byte) : ∃ rx,
    (junk ++ 0xA5#8 :: (frame ++ [c1, c0])).foldl State.takeHostByte s =
      if u16 (crc16 frame).toNat = [c1, c0] then (s.withRx rx).goodFrame (k % 256) (n % 256) body
      else s.discardFrame := by
  obtain ⟨hi, lo, hu, hget⟩ := getU16_u16 (n := body.length) (by omega)
  obtain ⟨kb, hkb, hk⟩ : ∃ kb : Byte, u8 k = [kb] ∧ kb.toNat = k % 256 := ⟨_, rfl, BitVec.toNat_ofNat ..⟩
  obtain ⟨nb, hnb, hnn⟩ : ∃ nb : Byte, u8 n = [nb] ∧ nb.toNat = n % 256 := ⟨_, rfl, BitVec.toNat_ofNat ..⟩
  have hframe' : frame = hi :: lo :: kb :: nb :: body := by rw [hframe, hu, hkb, hnb]; rfl
  refine ⟨some (hi :: lo :: ((kb :: nb :: body) ++ [c1])), ?_⟩
  have hsplit : frame ++ [c1, c0] = hi :: lo :: (((kb :: nb :: body) ++ [c1]) ++ [c0]) := by
    rw [hframe']
    simp
  rw [List.foldl_append, State.foldl_takeHostByte_junk h hj, List.foldl_cons, State.takeHostByte_hunt h, if_pos rfl,
    hsplit, List.foldl_cons, State.takeHostByte_first, List.foldl_cons, State.takeHostByte_second,
    if_neg (by omega), List.foldl_append, State.foldl_takeHostByte_gather s (by omega) (r := []) (by simp; omega),
    List.foldl_cons, List.foldl_nil, List.nil_append, State.takeHostByte_next, if_neg (by omega), if_neg (by simp; omega)]
  have htake : (hi :: lo :: (((kb :: nb :: body) ++ [c1]) ++ [c0])).take (getU16 hi lo + 4) = frame := by
    rw [hget, ← hsplit, hframe']
    exact List.take_left' (by simp)
  have hrest : ((kb :: nb :: body) ++ [c1]) ++ [c0] = kb :: nb :: (body ++ [c1, c0]) := by simp
  rw [htake, hget]
  simp only [hrest]
  unfold State.endFrame
  dsimp only
  rw [List.drop_left, List.take_left, hk, hnn, State.discardFrame_withRx]
  simp only [crc_matches_iff] <;> rfl

end receiver

/-! ## Good frames -/

section good
variable {s : State} {kind tag n : Nat} {rx : Option (List Byte)}

/-- A request whose body does not look at the receiver takes a frame as it stands, whatever bytes it has had. -/
theorem State.request_withRx {body : State → Reply × State}
    (hb : body (s.withRx rx) = ((body s).1, (body s).2.withRx rx)) :
    (s.withRx rx).request kind tag body = s.request kind tag body := by
  unfold State.request
  rw [hb]
  rfl

theorem openNightBody_withRx (u : State) (rx : Option (List Byte)) :
    openNightBody (u.withRx rx) = ((openNightBody u).1, (openNightBody u).2.withRx rx) := by
  by_cases hrun : u.link.part = .run
  · rw [openNightBody, openNightBody, if_pos hrun, if_pos (by exact hrun)]
    rfl
  · by_cases htest : u.yard.menuTest = true
    · rw [openNightBody, openNightBody, if_neg hrun, if_neg (by exact hrun), if_pos htest, if_pos (by exact htest)]
      rfl
    · rw [openNightBody, openNightBody, if_neg hrun, if_neg (by exact hrun), if_neg htest, if_neg (by exact htest)]
      rfl

/-- The bytes on the line arrive one after the other. -/
theorem exec_hostFrameDiscard (h : s.hostLine ≠ []) : exec .hostFrameDiscard s =
    .next (s.hostLine.foldl State.takeHostByte { s with hostLine := [] }).finish :=
  congrArg (fun t : State => Host.Outcome.next t.finish) (if_neg h)

/-- A good frame on the line is the request of its KIND. -/
theorem exec_goodFrame {junk body : List Byte} {k : Nat} {f : State → Reply × State} (h : s.link.rx = none)
    (hj : ∀ b ∈ junk, b ≠ 0xA5#8) (hlen : body.length ≤ 1024) (hk : k < 256) (hn : n < 256)
    (hline : s.hostLine = junk ++ frameBytes k n body)
    (hm : (frameMeaning k n body).getD (Sys2Proof.Machine.request k n malformed) = Sys2Proof.Machine.request kind tag f)
    (hf : ∀ u rx, f (State.withRx u rx) = ((f u).1, (f u).2.withRx rx)) :
    exec .hostFrameDiscard s = Sys2Proof.Machine.request kind tag f { s with hostLine := [] } := by
  obtain ⟨c1, c0, hcrc⟩ : ∃ c1 c0, u16 (crc16 (u16 body.length ++ u8 k ++ u8 n ++ body)).toNat = [c1, c0] := ⟨_, _, rfl⟩
  have hline : s.hostLine = junk ++ 0xA5#8 :: (u16 body.length ++ u8 k ++ u8 n ++ body ++ [c1, c0]) := by
    rw [hline, ← hcrc]
    rfl
  obtain ⟨rx, hfold⟩ := State.foldl_takeHostByte_frame (s := { s with hostLine := [] }) h hj hlen k n rfl c1 c0
  rw [if_pos hcrc, Nat.mod_eq_of_lt hk, Nat.mod_eq_of_lt hn] at hfold
  have hne : s.hostLine ≠ [] := by
    rw [hline]
    exact List.append_ne_nil_of_right_ne_nil _ (List.cons_ne_nil _ _)
  have hgood : (State.withRx { s with hostLine := [] } rx).goodFrame k n body =
      (State.request { s with hostLine := [] } kind tag f).finish := by
    rw [State.goodFrame, hm, ← State.request_withRx (hf _ rx)]
    rfl
  rw [exec_hostFrameDiscard hne, hline]
  refine (congrArg (fun t : State => Host.Outcome.next t.finish) (hfold.trans hgood)).trans ?_
  rw [State.finish_finish]
  rfl

theorem State.hostGap_hunting (h : s.link.rx = none) : s.hostGap = s := by
  rw [State.hostGap, h]

theorem State.hostGap_frame {got : List Byte} (h : s.link.rx = some got) : s.hostGap = s.discardFrame := by
  rw [State.hostGap, h]

theorem State.takeGapByte_cons {b : Byte} {rest : List Byte} (hline : s.hostLine = b :: rest) (h : s.link.rx = none) :
    s.takeGapByte = (State.withRx { s with hostLine := rest } (if b = 0xA5#8 then some [] else none)) := by
  rw [State.takeGapByte, hline]
  exact State.takeHostByte_hunt (s := { s with hostLine := rest }) h b

theorem fields1_of {w v : Nat} {body : List Byte} (f : Nat → Meaning) (h : wholeFields [w] body = some [v]) :
    fields1 body w f = some (f v) := by
  rw [fields1, h]

theorem wholeFields_u8 {v : Nat} (h : v < 256) : wholeFields [1] (u8 v) = some [v] := by
  have hv : (BitVec.ofNat 8 v).toNat = v := by rw [BitVec.toNat_ofNat]; omega
  simp [wholeFields, takeFields, u8, numberOf, Nat.mod_eq_of_lt h]

/-- No request has a KIND beyond those of the catalogue. -/
theorem frameMeaning_beyond (h : 0x3C < kind) (body : List Byte) : frameMeaning kind tag body = none := by
  unfold frameMeaning
  split
  any_goals omega
  rfl

theorem fields0_long {body : List Byte} (h : body ≠ []) (m : Meaning) : fields0 body m = none := by
  unfold fields0 wholeFields takeFields
  cases body with
  | nil => exact absurd rfl h
  | cons b body => rfl

end good

/-- Settles O55, by what stands on the line and in the receiver. -/
theorem framesTurnedAway : Obligations.FramesTurnedAway := by
  unfold Obligations.FramesTurnedAway
  rintro s idle kind tag heard lost hs hheard hlost rfl
  obtain rfl : heard = State.withRx := funext fun u => funext fun rx => hheard u rx
  obtain rfl : lost = State.lostFrame := funext fun u => funext fun rx => hlost u rx
  refine ⟨?_, ?_, ?_, ?_, ?_, ?_, ?_, ?_⟩
  · rintro b rest rx hline rfl
    refine ⟨fun hrx => ?_, fun got hrx => ?_⟩
    · refine event_settles (f := fun s => s.hostGap.takeGapByte) ?_ hs
      rw [State.hostGap_hunting hrx, State.takeGapByte_cons hline hrx]
    · refine event_settles (f := fun s => s.hostGap.takeGapByte) ?_ hs
      rw [State.hostGap_frame hrx, State.discardFrame_eq, State.takeGapByte_cons (rest := rest) (by exact hline) rfl]
      rfl
  · intro hline
    have hgap (u : State) (hu : u.hostLine = []) : u.takeGapByte = u := by rw [State.takeGapByte, hu]
    refine ⟨event_settles ((if_pos hline).trans s.discardFrame_eq) hs, fun hrx => ?_, fun got hrx => ?_⟩
    · refine event_settles (f := fun s => s.hostGap.takeGapByte) ?_ hs
      rw [State.hostGap_hunting hrx, hgap _ hline]
    · refine event_settles (f := fun s => s.hostGap.takeGapByte) ?_ hs
      rw [State.hostGap_frame hrx, State.discardFrame_eq]
      exact hgap _ hline
  · intro hrx junk hj
    have hidle : ({ s with hostLine := [] } : State).settled := hs
    refine ⟨fun hne hline => ?_, fun hi lo hlong hline => ?_, fun k n body frame c1 c0 hlen hframe hcrc hline => ?_,
      fun n hn => ⟨fun k body hk hlen hkind hline => ?_, fun v hv hline => ?_, fun hline => ?_, fun hline => ?_⟩⟩
    · rw [exec_hostFrameDiscard (by rw [hline]; exact hne), hline,
        State.foldl_takeHostByte_junk (s := { s with hostLine := [] }) hrx hj, State.finish_settled _ hidle]
    · rw [exec_hostFrameDiscard (by rw [hline]; simp), hline, List.foldl_append,
        State.foldl_takeHostByte_junk (s := { s with hostLine := [] }) hrx hj, List.foldl_cons,
        State.takeHostByte_hunt (s := { s with hostLine := [] }) hrx, if_pos rfl, List.foldl_cons,
        State.takeHostByte_first, List.foldl_cons, State.takeHostByte_second, if_pos (show 1024 < getU16 hi lo from hlong),
        List.foldl_nil, State.discardFrame_eq]
      exact congrArg _ (State.finish_settled _ hs)
    · obtain ⟨rx, hfold⟩ := State.foldl_takeHostByte_frame (s := { s with hostLine := [] }) hrx hj hlen k n hframe c1 c0
      rw [exec_hostFrameDiscard (by rw [hline]; simp), hline, hfold, if_neg hcrc, State.discardFrame_eq]
      exact congrArg _ (State.finish_settled _ hs)
    · refine exec_goodFrame hrx hj hlen hk hn hline ?_ fun u rx => rfl
      have hnone : frameMeaning k n body = none := by
        rcases hkind with rfl | h | ⟨rfl, h⟩
        · rfl
        · exact frameMeaning_beyond h body
        · exact fields0_long h _
      rw [hnone]
      rfl
    · refine exec_goodFrame hrx hj (by simp [u8]) (by omega) hn hline ?_ fun u rx => rfl
      have hsome : frameMeaning 0x1E n (u8 v) = some (execCtSet n v) := fields1_of _ (wholeFields_u8 hv)
      rw [hsome]
      rfl
    · refine exec_goodFrame hrx hj (Nat.zero_le _) (by omega) hn hline rfl fun u rx => ?_
      exact openNightBody_withRx u rx
    · exact exec_goodFrame hrx hj (Nat.zero_le _) (by omega) hn hline rfl fun u rx => rfl
  · exact fun hroomy => request_refused kind tag malformed s .unknown ⟨hs, hroomy⟩ rfl
  · intro hreset hfull hlen
    refine event_settles (f := fun s => s.turnAway kind tag) ?_ hs
    rw [State.turnAway, if_neg (by omega), State.request, hreset, if_neg Bool.false_ne_true, if_neg (by omega),
      if_pos hfull]
    rfl
  · intro hreset hlen
    refine event_settles (f := fun s => s.turnAway kind tag) ?_ hs
    rw [State.turnAway, if_neg (by omega), State.request, ← State.discardFrame_eq, State.discardFrame, hreset,
      if_neg Bool.false_ne_true, if_neg Bool.false_ne_true, if_pos hlen]
  · exact fun h1 h2 => event_settles (f := fun s => s.turnAway kind tag) (if_pos ⟨h1, h2⟩) hs
  · intro hreset hno
    refine event_settles (f := fun s => s.turnAway kind tag) ?_ hs
    rw [State.turnAway, if_neg hno, State.request, if_pos hreset]
    rfl

end Sys2Proof.Machine
end

section
/-! PROOF. The records where every read is good: what the store's writes leave of the index and of the other records
(R190, R191). -/

namespace Sys2Proof.Machine

/-! ## One table -/

section table
variable {ρ : Type} [DecidableEq ρ] {t : Tab (Slot ρ)} {i : Nat} {sl : Slot ρ}

theorem Tab.get_put {α : Type} [DecidableEq α] {d : α} {t : Tab α} (hw : Tab.wf d t = true) (i : Nat) (v : α) (j : Nat) :
    Tab.get d (Tab.put d t i v) j = if j = i then v else Tab.get d t j := by
  by_cases hj : j = i
  · subst hj
    rw [if_pos rfl, Tab.get_put_self hw]
  · rw [if_neg hj, Tab.get_put_other _ _ _ hj]

theorem Tab.put_put {α : Type} [DecidableEq α] {d : α} {t : Tab α} (hw : Tab.wf d t = true) (i : Nat) (v w : α) :
    Tab.put d (Tab.put d t i v) i w = Tab.put d t i w := by
  refine Tab.ext_of_get (n := 0) (d := d) (Tab.wf_put (Tab.wf_put hw i v) i w) (Tab.wf_put hw i w) fun j => ?_
  rw [Tab.get_put (Tab.wf_put hw i v), Tab.get_put hw, Tab.get_put hw]
  split <;> rfl

/-- A slot whose read is good: it holds no record, or one with good parity. -/
def Slot.good {ρ : Type} (sl : Slot ρ) : Prop :=
  sl.record? = none ∨ sl.badFirst = false ∧ sl.badSecond = false

omit [DecidableEq ρ] in
theorem Slot.good_write (sl : Slot ρ) (r : ρ) : (sl.write r).good := .inr ⟨rfl, rfl⟩

omit [DecidableEq ρ] in
theorem Slot.good_release (sl : Slot ρ) : sl.release.good := .inl rfl

omit [DecidableEq ρ] in
@[simp] theorem Slot.record?_write (sl : Slot ρ) (r : ρ) : (sl.write r).record? = some r := rfl

omit [DecidableEq ρ] in
@[simp] theorem Slot.record?_release (sl : Slot ρ) : sl.release.record? = none := rfl

omit [DecidableEq ρ] in
theorem Slot.good.readable (h : sl.good) : sl.readable := by
  intro hr
  rcases h with h | ⟨h1, h2⟩
  · rw [h] at hr
    cases hr
  · rw [Slot.wrong, h1, h2]

omit [DecidableEq ρ] in
theorem recordsSound_iff : recordsSound t = true ↔ ∀ e ∈ t, e.2.good := by
  simp only [recordsSound, List.all_eq_true, Bool.or_eq_true, Option.isNone_iff_eq_none, Bool.and_eq_true,
    Bool.not_eq_true', Slot.good]

theorem recordsSound_put (h : recordsSound t = true) (i : Nat) (hsl : sl.good) :
    recordsSound (Tab.put Slot.blank t i sl) = true :=
  recordsSound_iff.2 fun e he => by
    rcases Tab.mem_put he with he | rfl
    · exact recordsSound_iff.1 h e he
    · exact hsl

omit [DecidableEq ρ] in
theorem recordsSound_get (h : recordsSound t = true) (i : Nat) : (Tab.get Slot.blank t i).good := by
  rcases Tab.get_mem Slot.blank t i with hb | hm
  · rw [hb]
    exact .inl rfl
  · exact recordsSound_iff.1 h _ hm

omit [DecidableEq ρ] in
theorem recordsSound_of_undamaged (h : tableUndamaged t = true) : recordsSound t = true :=
  recordsSound_iff.2 fun e he => by
    have := List.all_eq_true.1 h e he
    simp only [Bool.and_eq_true, Bool.not_eq_true'] at this
    exact .inr this

/-! ## The index of one table -/

variable {key : ρ → Nat} {n m : Nat} {r r' : ρ}

/-- A write of the record a key names, under the same key, is found by that key alone. -/
theorem find_inUse_write (hw : Tab.wf Slot.blank t = true)
    (hf : (inUse t).find? (fun e => key e.2 == n) = some (i, r)) (hr : sl.record? = some r') (hk : key r' = key r)
    (m : Nat) : (inUse (Tab.put Slot.blank t i sl)).find? (fun e => key e.2 == m) =
      if m = n then some (i, r') else (inUse t).find? fun e => key e.2 == m := by
  obtain ⟨hrec, hfound, hlow⟩ := (find_inUse_iff hw).1 hf
  have hkey : key r = n := by simpa using hfound
  clear hfound
  have hw' := Tab.wf_put hw i sl
  have hget (j : Nat) : (Tab.get Slot.blank (Tab.put Slot.blank t i sl) j).record? =
      if j = i then some r' else (Tab.get Slot.blank t j).record? := by
    rw [Tab.get_put hw]
    split
    · exact hr
    · rfl
  by_cases hm : m = n
  · subst hm
    rw [if_pos rfl, find_inUse_iff hw']
    refine ⟨by rw [hget, if_pos rfl], by simp [hk, hkey], fun j hj r'' hr'' => ?_⟩
    rw [hget, if_neg (by omega)] at hr''
    exact hlow j hj r'' hr''
  · rw [if_neg hm]
    have hnot {j : Nat} {r'' : ρ} (h : (Tab.get Slot.blank t j).record? = some r'') (hj : j = i) :
        (key r'' == m) = false := by
      subst hj
      rw [hrec] at h
      cases h
      rw [hkey]
      exact beq_false_of_ne (Ne.symm hm)
    have hnot' : (key r' == m) = false := by
      rw [hk, hkey]
      exact beq_false_of_ne (Ne.symm hm)
    cases hfm : (inUse t).find? fun e => key e.2 == m with
    | none =>
      rw [find_inUse_none hw']
      intro j r'' hr''
      rw [hget] at hr''
      split at hr''
      · cases hr''
        exact hnot'
      · exact (find_inUse_none hw).1 hfm j r'' hr''
    | some e =>
      obtain ⟨j, q⟩ := e
      obtain ⟨hq, hqm, hqlow⟩ := (find_inUse_iff hw).1 hfm
      have hji : j ≠ i := fun h => by rw [hnot hq h] at hqm; cases hqm
      rw [find_inUse_iff hw']
      refine ⟨by rw [hget, if_neg hji, hq], hqm, fun k hk' r'' hr'' => ?_⟩
      rw [hget] at hr''
      split at hr''
      · cases hr''
        exact hnot'
      · exact hqlow k hk' r'' hr''

/-- A slot that loses its record is missed by no other key than that record's. -/
theorem find_inUse_drop (hw : Tab.wf Slot.blank t = true) (hi : (Tab.get Slot.blank t i).record? = some r)
    (hr : sl.record? = none) (hm : m ≠ key r) : (inUse (Tab.put Slot.blank t i sl)).find? (fun e => key e.2 == m) =
      (inUse t).find? fun e => key e.2 == m := by
  have hw' := Tab.wf_put hw i sl
  have hget (j : Nat) : (Tab.get Slot.blank (Tab.put Slot.blank t i sl) j).record? =
      if j = i then none else (Tab.get Slot.blank t j).record? := by
    rw [Tab.get_put hw]
    split
    · exact hr
    · rfl
  cases hfm : (inUse t).find? fun e => key e.2 == m with
  | none =>
    rw [find_inUse_none hw']
    intro j r'' hr''
    rw [hget] at hr''
    split at hr''
    · cases hr''
    · exact (find_inUse_none hw).1 hfm j r'' hr''
  | some e =>
    obtain ⟨j, q⟩ := e
    obtain ⟨hq, hqm, hqlow⟩ := (find_inUse_iff hw).1 hfm
    have hji : j ≠ i := fun h => by
      subst h
      rw [hi] at hq
      cases hq
      exact hm (beq_iff_eq.1 hqm).symm
    rw [find_inUse_iff hw']
    refine ⟨by rw [hget, if_neg hji, hq], hqm, fun k hk' r'' hr'' => ?_⟩
    rw [hget] at hr''
    split at hr''
    · cases hr''
    · exact hqlow k hk' r'' hr''

/-- A record written to a slot that held none is found by its own key alone, where no lower slot carries that key. -/
theorem find_inUse_new (hw : Tab.wf Slot.blank t = true) (hi : (Tab.get Slot.blank t i).record? = none)
    (hr : sl.record? = some r) (hnew : (inUse t).find? (fun e => key e.2 == key r) = none) (m : Nat) :
    (inUse (Tab.put Slot.blank t i sl)).find? (fun e => key e.2 == m) =
      if m = key r then some (i, r) else (inUse t).find? fun e => key e.2 == m := by
  have hw' := Tab.wf_put hw i sl
  have hget (j : Nat) : (Tab.get Slot.blank (Tab.put Slot.blank t i sl) j).record? =
      if j = i then some r else (Tab.get Slot.blank t j).record? := by
    rw [Tab.get_put hw]
    split
    · exact hr
    · rfl
  by_cases hm : m = key r
  · subst hm
    rw [if_pos rfl, find_inUse_iff hw']
    refine ⟨by rw [hget, if_pos rfl], by simp, fun j hj r'' hr'' => ?_⟩
    rw [hget, if_neg (by omega)] at hr''
    exact (find_inUse_none hw).1 hnew j r'' hr''
  · rw [if_neg hm]
    have hnot : (key r == m) = false := beq_false_of_ne (Ne.symm hm)
    cases hfm : (inUse t).find? fun e => key e.2 == m with
    | none =>
      rw [find_inUse_none hw']
      intro j r'' hr''
      rw [hget] at hr''
      split at hr''
      · cases hr''
        exact hnot
      · exact (find_inUse_none hw).1 hfm j r'' hr''
    | some e =>
      obtain ⟨j, q⟩ := e
      obtain ⟨hq, hqm, hqlow⟩ := (find_inUse_iff hw).1 hfm
      have hji : j ≠ i := fun h => by
        subst h
        rw [hi] at hq
        cases hq
      rw [find_inUse_iff hw']
      refine ⟨by rw [hget, if_neg hji, hq], hqm, fun k hk' r'' hr'' => ?_⟩
      rw [hget] at hr''
      split at hr''
      · cases hr''
        exact hnot
      · exact hqlow k hk' r'' hr''

end table

/-! ## The store -/

/-- The store's tables are in their canonical form, and no read meets a parity fault. -/
def Yard.intact (y : Yard) : Prop :=
  y.store.canonical = true ∧ y.store.sound = true

section store
variable {y z : Yard}

theorem Store.sound_iff (st : Store) : st.sound = true ↔ recordsSound st.cars = true ∧ recordsSound st.bays = true ∧
    recordsSound st.orders = true ∧ recordsSound st.menu = true ∧ recordsSound st.tickets = true := by
  simp only [Store.sound, Bool.and_eq_true, and_assoc]

theorem Yard.intact_of_undamaged (hw : y.store.canonical = true) (hu : y.store.undamaged = true) : y.intact := by
  obtain ⟨hc, hb, ho, hm, ht⟩ := (Store.undamaged_iff _).1 hu
  exact ⟨hw, (Store.sound_iff _).2 ⟨recordsSound_of_undamaged hc, recordsSound_of_undamaged hb,
    recordsSound_of_undamaged ho, recordsSound_of_undamaged hm, recordsSound_of_undamaged ht⟩⟩

theorem Yard.intact.congr (h : y.intact) (hs : z.store = y.store) : z.intact := by
  unfold Yard.intact
  rw [hs]
  exact h

section intact
variable (h : y.intact)
include h

theorem Yard.intact.cars : Tab.wf Slot.blank y.store.cars = true := ((Store.canonical_iff _).1 h.1).1
theorem Yard.intact.bays : Tab.wf Slot.blank y.store.bays = true := ((Store.canonical_iff _).1 h.1).2.1
theorem Yard.intact.orders : Tab.wf Slot.blank y.store.orders = true := ((Store.canonical_iff _).1 h.1).2.2.1
theorem Yard.intact.menu : Tab.wf Slot.blank y.store.menu = true := ((Store.canonical_iff _).1 h.1).2.2.2.1

theorem Yard.intact.carSlot (i : Nat) : (y.carSlot i).good :=
  recordsSound_get ((Store.sound_iff _).1 h.2).1 i

theorem Yard.intact.baySlot (i : Nat) : (y.baySlot i).good :=
  recordsSound_get ((Store.sound_iff _).1 h.2).2.1 i

theorem Yard.intact.orderSlot (i : Nat) : (y.orderSlot i).good :=
  recordsSound_get ((Store.sound_iff _).1 h.2).2.2.1 i

theorem Yard.intact.menuSlot (i : Nat) : (y.menuSlot i).good :=
  recordsSound_get ((Store.sound_iff _).1 h.2).2.2.2.1 i

theorem Yard.intact.setCarSlot (i : Nat) {sl : Slot Car} (hsl : sl.good) : (y.setCarSlot i sl).intact := by
  obtain ⟨hc, hb, ho, hm, ht⟩ := (Store.canonical_iff _).1 h.1
  obtain ⟨sc, sb, so, sm, st⟩ := (Store.sound_iff _).1 h.2
  exact ⟨(Store.canonical_iff _).2 ⟨Tab.wf_put hc i sl, hb, ho, hm, ht⟩,
    (Store.sound_iff _).2 ⟨recordsSound_put sc i hsl, sb, so, sm, st⟩⟩

theorem Yard.intact.setBaySlot (i : Nat) {sl : Slot Bay} (hsl : sl.good) : (y.setBaySlot i sl).intact := by
  obtain ⟨hc, hb, ho, hm, ht⟩ := (Store.canonical_iff _).1 h.1
  obtain ⟨sc, sb, so, sm, st⟩ := (Store.sound_iff _).1 h.2
  exact ⟨(Store.canonical_iff _).2 ⟨hc, Tab.wf_put hb i sl, ho, hm, ht⟩,
    (Store.sound_iff _).2 ⟨sc, recordsSound_put sb i hsl, so, sm, st⟩⟩

theorem Yard.intact.setOrderSlot (i : Nat) {sl : Slot Order} (hsl : sl.good) : (y.setOrderSlot i sl).intact := by
  obtain ⟨hc, hb, ho, hm, ht⟩ := (Store.canonical_iff _).1 h.1
  obtain ⟨sc, sb, so, sm, st⟩ := (Store.sound_iff _).1 h.2
  exact ⟨(Store.canonical_iff _).2 ⟨hc, hb, Tab.wf_put ho i sl, hm, ht⟩,
    (Store.sound_iff _).2 ⟨sc, sb, recordsSound_put so i hsl, sm, st⟩⟩

theorem Yard.intact.setMenuSlot (i : Nat) {sl : Slot MenuItem} (hsl : sl.good) : (y.setMenuSlot i sl).intact := by
  obtain ⟨hc, hb, ho, hm, ht⟩ := (Store.canonical_iff _).1 h.1
  obtain ⟨sc, sb, so, sm, st⟩ := (Store.sound_iff _).1 h.2
  exact ⟨(Store.canonical_iff _).2 ⟨hc, hb, ho, Tab.wf_put hm i sl, ht⟩,
    (Store.sound_iff _).2 ⟨sc, sb, so, recordsSound_put sm i hsl, st⟩⟩

theorem Yard.intact.modCar (n : Nat) (f : Car → Car) : (y.modCar n f).intact := by
  unfold Yard.modCar
  split
  · exact h.setCarSlot _ (Slot.good_write _ _)
  · exact h

theorem Yard.intact.modBay (b : Nat) (f : Bay → Bay) : (y.modBay b f).intact := by
  unfold Yard.modBay
  split
  · exact h.setBaySlot _ (Slot.good_write _ _)
  · exact h

theorem Yard.intact.modOrder (n : Nat) (f : Order → Order) : (y.modOrder n f).intact := by
  unfold Yard.modOrder
  split
  · exact h.setOrderSlot _ (Slot.good_write _ _)
  · exact h

theorem Yard.intact.modItem (i : Nat) (f : MenuItem → MenuItem) : (y.modItem i f).intact := by
  unfold Yard.modItem
  split
  · exact h.setMenuSlot _ (Slot.good_write _ _)
  · exact h

theorem Yard.intact.freeCar (n : Nat) : (y.freeCar n).intact := by
  unfold Yard.freeCar
  split
  · exact h.setCarSlot _ (Slot.good_release _)
  · exact h

theorem Yard.intact.freeOrder (n : Nat) : (y.freeOrder n).intact := by
  unfold Yard.freeOrder
  split
  · exact h.setOrderSlot _ (Slot.good_release _)
  · exact h

/-! ## Reads -/

theorem Yard.readBay_intact (settle : Yard → Yard) (b : Nat) : y.readBay settle b = (Read.of (y.bay? b), y) :=
  Yard.readBay_readable settle (h.baySlot b).readable

theorem Yard.readItem_intact (settle : Yard → Yard) (i : Nat) : y.readItem settle i = (Read.of (y.item? i), y) :=
  Yard.readItem_readable settle (h.menuSlot i).readable

theorem Yard.findCar_get {n i : Nat} {c : Car} (hf : y.findCar n = some (i, c)) :
    (y.carSlot i).record? = some c ∧ c.number = n :=
  Yard.findCar_slot h.1 hf

theorem Yard.findOrder_get {n i : Nat} {o : Order} (hf : y.findOrder n = some (i, o)) :
    (y.orderSlot i).record? = some o ∧ o.number = n :=
  Yard.findOrder_slot h.1 hf

theorem Yard.readCar_intact (settle : Yard → Yard) (n : Nat) : y.readCar settle n = (Read.of (y.car? n), y) := by
  unfold Yard.readCar Yard.car?
  cases hf : y.findCar n with
  | none => rfl
  | some e =>
    obtain ⟨i, c⟩ := e
    dsimp only
    rw [Yard.readCarSlot_readable settle (h.carSlot i).readable, (Yard.findCar_get h hf).1]
    rfl

theorem Yard.readOrder_intact (settle : Yard → Yard) (n : Nat) : y.readOrder settle n = (Read.of (y.order? n), y) := by
  unfold Yard.readOrder Yard.order?
  cases hf : y.findOrder n with
  | none => rfl
  | some e =>
    obtain ⟨i, o⟩ := e
    dsimp only
    rw [Yard.readOrderSlot_readable settle (h.orderSlot i).readable, (Yard.findOrder_get h hf).1]
    rfl

/-! ## Writes, as the index and the slots show them -/

theorem Yard.findCar_modCar {f : Car → Car} (hf : ∀ c, (f c).number = c.number) (n m : Nat) :
    (y.modCar n f).findCar m = (y.findCar m).map fun e => if m = n then (e.1, f e.2) else e := by
  unfold Yard.modCar
  cases hfc : y.findCar n with
  | none =>
    by_cases hm : m = n
    · subst hm
      rw [hfc]
      rfl
    · simp [hm]
  | some e =>
    obtain ⟨i, c⟩ := e
    refine (find_inUse_write (key := Car.number) h.cars hfc (Slot.record?_write _ _) (hf c) m).trans ?_
    by_cases hm : m = n
    · subst hm
      simp [hfc]
    · simp [hm, Yard.findCar]

theorem Yard.car?_modCar {f : Car → Car} (hf : ∀ c, (f c).number = c.number) (n m : Nat) :
    (y.modCar n f).car? m = (y.car? m).map fun c => if m = n then f c else c := by
  unfold Yard.car?
  rw [Yard.findCar_modCar h hf]
  cases y.findCar m with
  | none => rfl
  | some e => by_cases hm : m = n <;> simp [hm]

theorem Yard.findOrder_modOrder {f : Order → Order} (hf : ∀ o, (f o).number = o.number) (n m : Nat) :
    (y.modOrder n f).findOrder m = (y.findOrder m).map fun e => if m = n then (e.1, f e.2) else e := by
  unfold Yard.modOrder
  cases hfc : y.findOrder n with
  | none =>
    by_cases hm : m = n
    · subst hm
      rw [hfc]
      rfl
    · simp [hm]
  | some e =>
    obtain ⟨i, o⟩ := e
    refine (find_inUse_write (key := Order.number) h.orders hfc (Slot.record?_write _ _) (hf o) m).trans ?_
    by_cases hm : m = n
    · subst hm
      simp [hfc]
    · simp [hm, Yard.findOrder]

theorem Yard.order?_modOrder {f : Order → Order} (hf : ∀ o, (f o).number = o.number) (n m : Nat) :
    (y.modOrder n f).order? m = (y.order? m).map fun o => if m = n then f o else o := by
  unfold Yard.order?
  rw [Yard.findOrder_modOrder h hf]
  cases y.findOrder m with
  | none => rfl
  | some e => by_cases hm : m = n <;> simp [hm]

theorem Yard.bay?_setBaySlot (b : Nat) (sl : Slot Bay) (k : Nat) :
    (y.setBaySlot b sl).bay? k = if k = b then sl.record? else y.bay? k := by
  unfold Yard.bay? Yard.baySlot Yard.setBaySlot
  dsimp only
  rw [Tab.get_put h.bays]
  split <;> rfl

theorem Yard.bay?_modBay (b : Nat) (f : Bay → Bay) (k : Nat) :
    (y.modBay b f).bay? k = (y.bay? k).map fun r => if k = b then f r else r := by
  unfold Yard.modBay
  cases hb : y.bay? b with
  | none =>
    by_cases hk : k = b
    · subst hk
      rw [hb]
      rfl
    · simp [hk]
  | some r =>
    dsimp only
    rw [Yard.bay?_setBaySlot h]
    by_cases hk : k = b
    · subst hk
      simp [hb]
    · simp [hk]

theorem Yard.carSlot_modCar {n i : Nat} {c : Car} (hf : y.findCar n = some (i, c)) (f : Car → Car) (j : Nat) :
    (y.modCar n f).carSlot j = if j = i then (y.carSlot i).write (f c) else y.carSlot j := by
  rw [Yard.modCar_found hf]
  exact Tab.get_put h.cars _ _ _

end intact

/-! ## What a write of one table leaves -/

theorem Yard.modCar_cars (y : Yard) (n : Nat) (f : Car → Car) :
    ∃ t, y.modCar n f = { y with store := { y.store with cars := t } } := by
  unfold Yard.modCar
  split
  · exact ⟨_, rfl⟩
  · exact ⟨y.store.cars, rfl⟩

theorem Yard.modBay_bays (y : Yard) (n : Nat) (f : Bay → Bay) :
    ∃ t, y.modBay n f = { y with store := { y.store with bays := t } } := by
  unfold Yard.modBay
  split
  · exact ⟨_, rfl⟩
  · exact ⟨y.store.bays, rfl⟩

theorem Yard.modOrder_orders (y : Yard) (n : Nat) (f : Order → Order) :
    ∃ t, y.modOrder n f = { y with store := { y.store with orders := t } } := by
  unfold Yard.modOrder
  split
  · exact ⟨_, rfl⟩
  · exact ⟨y.store.orders, rfl⟩

theorem Yard.modItem_menu (y : Yard) (n : Nat) (f : MenuItem → MenuItem) :
    ∃ t, y.modItem n f = { y with store := { y.store with menu := t } } := by
  unfold Yard.modItem
  split
  · exact ⟨_, rfl⟩
  · exact ⟨y.store.menu, rfl⟩

theorem Yard.freeCar_cars (y : Yard) (n : Nat) : ∃ t, y.freeCar n = { y with store := { y.store with cars := t } } := by
  unfold Yard.freeCar
  split
  · exact ⟨_, rfl⟩
  · exact ⟨y.store.cars, rfl⟩

theorem Yard.freeOrder_orders (y : Yard) (n : Nat) :
    ∃ t, y.freeOrder n = { y with store := { y.store with orders := t } } := by
  unfold Yard.freeOrder
  split
  · exact ⟨_, rfl⟩
  · exact ⟨y.store.orders, rfl⟩

end store

end Sys2Proof.Machine
end

section
/-! PROOF. What is on its way to a bay: the values the outbound slots carry, as items are placed and coalesced (R75, R76,
R128, R156). -/

namespace Sys2Proof.Machine

/-! ## One loop -/

/-- Whether a loop carries a value for one side of a post, or takes none for it. -/
def LoopRec.carries (l : LoopRec) (kind : SlotKind) (post : Nat) (side1 : Bool) (v : Nat) : Prop :=
  (l.post post).present = false ∨ (l.post post).conf = .dropped ∨
    ∃ i : Fin 16, (l.slots[i]).use = .pending ∧ (l.slots[i]).post = post ∧ (l.slots[i]).kind = kind ∧
      (if side1 then (l.slots[i]).v1 else (l.slots[i]).v0) = some v

/-- Whether an item has no other value than the given one for the side of a post. -/
def Item.agrees (it : Item) (kind : SlotKind) (post : Nat) (side1 : Bool) (v : Nat) : Prop :=
  it.kind = kind → it.post = post → ∀ w, it.value side1 = some w → w = v

section loop
variable {l : LoopRec} {it : Item} {kind : SlotKind} {post v : Nat} {side1 : Bool}

theorem LoopRec.setSlot_slot (l : LoopRec) (i : Fin 16) (sl : OutSlot) (j : Fin 16) :
    (l.setSlot i sl).slots[j] = if j = i then sl else l.slots[j] := by
  by_cases hj : j = i
  · subst hj
    rw [if_pos rfl]
    exact Vector.getElem_set_self _
  · rw [if_neg hj]
    exact Vector.getElem_set_ne i.isLt j.isLt fun h => hj (Fin.ext h.symm)

theorem LoopRec.carries.of_slots {l' : LoopRec} (h : l.carries kind post side1 v) (hp : l'.posts = l.posts)
    (hs : ∀ i : Fin 16, (l.slots[i]).use = .pending → l'.slots[i] = l.slots[i]) : l'.carries kind post side1 v := by
  have hpost : l'.post post = l.post post := by unfold LoopRec.post; rw [hp]
  unfold LoopRec.carries
  rw [hpost]
  rcases h with h | h | ⟨i, hi⟩
  · exact .inl h
  · exact .inr (.inl h)
  · exact .inr (.inr ⟨i, by rw [hs i hi.1]; exact hi⟩)

/-- Coalescing a side leaves what the loop carries for another side. -/
theorem LoopRec.carries.mergeSide {s1 : Bool} (h : l.carries kind post side1 v) (ha : s1 = side1 → it.agrees kind post side1 v) :
    (l.mergeSide it s1).2.carries kind post side1 v := by
  cases hv : it.value s1 with
  | none =>
    rw [LoopRec.mergeSide_unnamed hv]
    exact h
  | some w =>
    cases hi : l.mergeTarget it s1 with
    | none =>
      rw [LoopRec.mergeSide_dropped hv hi]
      exact h
    | some i =>
      rw [LoopRec.mergeSide_found hv hi]
      obtain ⟨-, hipost, hikind, -⟩ := LoopRec.mergeTarget_takes hi
      rcases h with h | h | ⟨j, huse, hpost, hkind, hval⟩
      · exact .inl h
      · exact .inr (.inl h)
      · refine .inr (.inr ⟨j, ?_⟩)
        rw [LoopRec.setSlot_slot]
        by_cases hj : j = i
        · subst hj
          rw [if_pos rfl]
          refine ⟨huse, hpost, hkind, ?_⟩
          by_cases hs : s1 = side1
          · subst hs
            have := ha rfl (hikind.symm.trans hkind) (hipost.symm.trans hpost) w hv
            subst this
            cases s1 <;> rfl
          · cases s1 <;> cases side1
            · exact absurd rfl hs
            · exact hval
            · exact hval
            · exact absurd rfl hs
        · rw [if_neg hj]
          exact ⟨huse, hpost, hkind, hval⟩

theorem LoopRec.mergeSide_overflow (h : l.overflow = true) (s1 : Bool) : (l.mergeSide it s1).2.overflow = true := by
  cases hv : it.value s1 with
  | none =>
    rw [LoopRec.mergeSide_unnamed hv]
    exact h
  | some w =>
    cases hi : l.mergeTarget it s1 with
    | none => rw [LoopRec.mergeSide_dropped hv hi]
    | some i =>
      rw [LoopRec.mergeSide_found hv hi]
      exact h

/-- A side that is coalesced is carried; one that is dropped sets the overflow flag. -/
theorem LoopRec.mergeSide_carries {s1 : Bool} (hv : it.value s1 = some v) :
    ((l.mergeSide it s1).1 = true ∧ (l.mergeSide it s1).2.carries it.kind it.post s1 v) ∨
      ((l.mergeSide it s1).1 = false ∧ (l.mergeSide it s1).2.overflow = true) := by
  cases hi : l.mergeTarget it s1 with
  | none => exact .inr (by rw [LoopRec.mergeSide_dropped hv hi]; exact ⟨rfl, rfl⟩)
  | some i =>
    rw [LoopRec.mergeSide_found hv hi]
    obtain ⟨huse, hipost, hikind, -⟩ := LoopRec.mergeTarget_takes hi
    refine .inl ⟨rfl, .inr (.inr ⟨i, ?_⟩)⟩
    rw [LoopRec.setSlot_slot, if_pos rfl]
    exact ⟨huse, hipost, hikind, by cases s1 <;> rfl⟩

end loop

/-! ## The yard -/

section yard
variable {y z : Yard} {lp : ScreenId} {it : Item} {kind : SlotKind} {bay v : Nat}

/-- The side of a bay at its post. -/
def baySide1 (bay : Nat) : Bool := decide (bay % 2 ≠ 0)

theorem Yard.sends_iff : y.sends kind bay v ↔ (y.loops[bayLoop bay]).carries kind (bayPost bay) (baySide1 bay) v := by
  unfold Yard.sends LoopRec.carries baySide1
  by_cases h : bay % 2 = 0 <;> simp [h]

/-- Whether a bay has been told a value, or its loop has the overflow flag set. -/
def Yard.shows (y : Yard) (kind : SlotKind) (bay v : Nat) : Prop :=
  (y.loops[bayLoop bay]).overflow = true ∨ y.sends kind bay v

theorem Yard.sends_congr (h : z.loops = y.loops) : z.sends kind bay v ↔ y.sends kind bay v := by
  unfold Yard.sends
  rw [h]

theorem Yard.shows_congr (h : z.loops = y.loops) : z.shows kind bay v ↔ y.shows kind bay v := by
  unfold Yard.shows Yard.sends
  rw [h]

/-- The side of an item for one bay. -/
def placedSide (r : Bool × Bool) (side1 : Bool) : Bool := if side1 then r.2 else r.1

/-- A side of an item is carried where it was placed or merged, and has set the overflow flag where it was dropped. -/
theorem Yard.putItem_carries {side1 : Bool} (hv : it.value side1 = some v) :
    (placedSide (y.putItem lp it).1 side1 = true ∧
      ((y.putItem lp it).2.loops[lp]).carries it.kind it.post side1 v) ∨
    (placedSide (y.putItem lp it).1 side1 = false ∧ ((y.putItem lp it).2.loops[lp]).overflow = true) := by
  cases hf : (y.loops[lp]).freeSlot? with
  | none =>
    rw [Yard.putItem_merged hf, Yard.told_loop]
    cases side1 with
    | false =>
      rcases LoopRec.mergeSide_carries (l := y.loops[lp]) hv with ⟨h1, h2⟩ | ⟨h1, h2⟩
      · exact .inl ⟨h1, h2.mergeSide (fun h => by cases h)⟩
      · exact .inr ⟨h1, LoopRec.mergeSide_overflow h2 _⟩
    | true => exact LoopRec.mergeSide_carries (l := ((y.loops[lp]).mergeSide it false).2) hv
  | some i =>
    have hside : placedSide (true, true) side1 = true := by cases side1 <;> rfl
    cases hu : ((y.loops[lp]).post it.post).unreachable with
    | false =>
      rw [Yard.putItem_placed hf hu, Yard.told_loop]
      refine .inl ⟨hside, .inr (.inr ⟨i, ?_⟩)⟩
      have hslot : ((y.loops[lp]).placed i it).slots[i] = (y.loops[lp]).newSlot it := Vector.getElem_set_self _
      rw [hslot]
      exact ⟨rfl, rfl, rfl, hv⟩
    | true =>
      rw [Yard.putItem_undelivered hf hu, Yard.told_loop]
      rcases (Post.unreachable_iff _).1 hu with h | h
      · exact .inl ⟨hside, .inl h⟩
      · exact .inl ⟨hside, .inr (.inl h)⟩

/-- An item leaves what its loop carries, where it has no other value for it. -/
theorem Yard.putItem_carried {post : Nat} {side1 : Bool} (h : (y.loops[lp]).carries kind post side1 v)
    (ha : it.agrees kind post side1 v) : ((y.putItem lp it).2.loops[lp]).carries kind post side1 v := by
  cases hf : (y.loops[lp]).freeSlot? with
  | none =>
    rw [Yard.putItem_merged hf, Yard.told_loop]
    exact (h.mergeSide fun _ => ha).mergeSide fun _ => ha
  | some i =>
    have hother (sl : OutSlot) (j : Fin 16) (hj : ((y.loops[lp]).slots[j]).use = .pending) :
        ((y.loops[lp]).slots.set i sl)[j] = (y.loops[lp]).slots[j] := by
      refine Vector.getElem_set_ne _ _ fun hji => ?_
      rw [← Fin.ext hji] at hj
      have hfree := LoopRec.freeSlot?_free hf
      rw [hj] at hfree
      cases hfree
    cases hu : ((y.loops[lp]).post it.post).unreachable with
    | false =>
      rw [Yard.putItem_placed hf hu, Yard.told_loop]
      exact h.of_slots rfl (hother _)
    | true =>
      rw [Yard.putItem_undelivered hf hu, Yard.told_loop]
      exact h.of_slots rfl (hother _)

theorem Yard.putItem_overflowed (h : (y.loops[lp]).overflow = true) : ((y.putItem lp it).2.loops[lp]).overflow = true := by
  cases hf : (y.loops[lp]).freeSlot? with
  | none =>
    rw [Yard.putItem_merged hf, Yard.told_loop]
    exact LoopRec.mergeSide_overflow (LoopRec.mergeSide_overflow h _) _
  | some i =>
    cases hu : ((y.loops[lp]).post it.post).unreachable with
    | false =>
      rw [Yard.putItem_placed hf hu, Yard.told_loop]
      exact h
    | true =>
      rw [Yard.putItem_undelivered hf hu, Yard.told_loop]
      exact h

theorem Yard.putItem_otherLoop {k : ScreenId} (hk : k ≠ lp) : (y.putItem lp it).2.loops[k] = y.loops[k] := by
  obtain ⟨l, rs, h⟩ := y.putItem_told lp it
  rw [h]
  exact Vector.getElem_set_ne lp.isLt k.isLt fun he => hk (Fin.ext he.symm)

/-- An item leaves what a bay has been told, where it has no other value for it. -/
theorem Yard.sends.putItem (h : y.sends kind bay v)
    (ha : bayLoop bay = lp → it.agrees kind (bayPost bay) (baySide1 bay) v) : (y.putItem lp it).2.sends kind bay v := by
  rw [Yard.sends_iff] at h ⊢
  by_cases hl : bayLoop bay = lp
  · subst hl
    exact Yard.putItem_carried h (ha rfl)
  · rw [Yard.putItem_otherLoop hl]
    exact h

theorem Yard.shows.putItem (h : y.shows kind bay v)
    (ha : bayLoop bay = lp → it.agrees kind (bayPost bay) (baySide1 bay) v) : (y.putItem lp it).2.shows kind bay v := by
  rcases h with h | h
  · by_cases hl : bayLoop bay = lp
    · subst hl
      exact .inl (Yard.putItem_overflowed h)
    · exact .inl (by rw [Yard.putItem_otherLoop hl]; exact h)
  · exact .inr (h.putItem ha)

theorem Item.agrees_other {kind' : SlotKind} {post : Nat} {side1 : Bool} (h : it.kind ≠ kind') :
    it.agrees kind' post side1 v := fun hk => absurd hk h

/-! ## A lamp placed for one bay -/

/-- The item that a lamp value of a bay makes. -/
def lampItemOf (origin : Origin) (bay v : Nat) : Item :=
  { post := bayPost bay, kind := .lamps, v0 := (sideValues (baySide bay) v).1, v1 := (sideValues (baySide bay) v).2,
    prio := 1, origin := origin }

theorem Yard.placeLamp_eq (y : Yard) (origin : Origin) (bay v : Nat) : y.placeLamp origin bay v =
    ((y.putItem (bayLoop bay) (lampItemOf origin bay v)).1.1 && (y.putItem (bayLoop bay) (lampItemOf origin bay v)).1.2,
      (y.putItem (bayLoop bay) (lampItemOf origin bay v)).2) := rfl

theorem lampItemOf_value (origin : Origin) (bay v : Nat) (side1 : Bool) :
    (lampItemOf origin bay v).value side1 = if side1 = baySide1 bay then some v else none := by
  unfold lampItemOf Item.value sideValues baySide baySide1
  by_cases h : bay % 2 = 0 <;> cases side1 <;> simp [h]

/-- A lamp placed for a bay is shown there, or has set its loop's overflow flag. -/
theorem Yard.placeLamp_shows (y : Yard) (origin : Origin) (bay v : Nat) :
    (y.placeLamp origin bay v).2.shows .lamps bay v := by
  have hv : (lampItemOf origin bay v).value (baySide1 bay) = some v := by rw [lampItemOf_value, if_pos rfl]
  rw [Yard.placeLamp_eq]
  rcases Yard.putItem_carries (y := y) (lp := bayLoop bay) hv with ⟨-, h⟩ | ⟨-, h⟩
  · exact .inr (Yard.sends_iff.2 h)
  · exact .inl h

theorem Yard.shows.placeLamp_speakers (h : y.shows .speakers bay v) (origin : Origin) (b w : Nat) :
    (y.placeLamp origin b w).2.shows .speakers bay v := by
  rw [Yard.placeLamp_eq]
  exact h.putItem fun _ => Item.agrees_other (by simp [lampItemOf])

theorem Yard.sends.placeLamp_speakers (h : y.sends .speakers bay v) (origin : Origin) (b w : Nat) :
    (y.placeLamp origin b w).2.sends .speakers bay v := by
  rw [Yard.placeLamp_eq]
  exact h.putItem fun _ => Item.agrees_other (by simp [lampItemOf])

/-- The same value placed for another bay leaves what a bay shows. -/
theorem Yard.shows.placeLamp_same (h : y.shows .lamps bay v) (origin : Origin) (b : Nat) :
    (y.placeLamp origin b v).2.shows .lamps bay v := by
  rw [Yard.placeLamp_eq]
  refine h.putItem fun _ _ _ w hw => ?_
  rw [lampItemOf_value] at hw
  split at hw
  · exact (Option.some.inj hw).symm
  · cases hw

end yard

end Sys2Proof.Machine
end

section
/-! PROOF. What the Car Table and the Order Engine tell the loops, and the field's own operations: signals, a bind change,
and a car unbound from its bay (R127, R128, R156, R170). -/

namespace Sys2Proof.Machine

/-! ## Signals -/

/-- Whether one yard is another that has sent signals: slots, marks and reports apart, it is the same. -/
def Yard.signals (y z : Yard) : Prop :=
  ∃ loops rs spk lamp, z = { y with loops := loops, raised := y.raised ++ rs, spkMarks := spk, lampMarks := lamp }

section signals
variable {y z x : Yard}

theorem Yard.signals.refl (y : Yard) : y.signals y := ⟨y.loops, [], y.spkMarks, y.lampMarks, by rw [List.append_nil]⟩

theorem Yard.signals.trans (h : x.signals y) (h' : y.signals z) : x.signals z := by
  obtain ⟨_, rs, _, _, rfl⟩ := h
  obtain ⟨loops, rs', spk, lamp, rfl⟩ := h'
  exact ⟨loops, rs ++ rs', spk, lamp, by rw [List.append_assoc]⟩

theorem Yard.signals.store (h : y.signals z) : z.store = y.store := by
  obtain ⟨_, _, _, _, rfl⟩ := h
  rfl

theorem Yard.signals.intact (h : y.signals z) (hy : y.intact) : z.intact := hy.congr h.store

theorem Yard.signals.raised (h : y.signals z) : ∃ rs, z.raised = y.raised ++ rs := by
  obtain ⟨_, rs, _, _, rfl⟩ := h
  exact ⟨rs, rfl⟩

theorem Yard.signals.bay? (h : y.signals z) (b : Nat) : z.bay? b = y.bay? b := by
  obtain ⟨_, _, _, _, rfl⟩ := h
  rfl

theorem Yard.signals.findCar (h : y.signals z) (n : Nat) : z.findCar n = y.findCar n := by
  obtain ⟨_, _, _, _, rfl⟩ := h
  rfl

theorem Yard.signals.car? (h : y.signals z) (n : Nat) : z.car? n = y.car? n := by
  obtain ⟨_, _, _, _, rfl⟩ := h
  rfl

theorem Yard.signals.limits (h : y.signals z) : z.limits = y.limits := by
  obtain ⟨_, _, _, _, rfl⟩ := h
  rfl

theorem Yard.signals.raise (y : Yard) (r : Report) : y.signals (y.raise r) := ⟨y.loops, [r], y.spkMarks, y.lampMarks, rfl⟩

theorem Yard.signals.setSpkMark (y : Yard) (b : Nat) (m : Bool) : y.signals (y.setSpkMark b m) :=
  ⟨y.loops, [], _, y.lampMarks, by rw [List.append_nil]; rfl⟩

theorem Yard.signals.setLampMark (y : Yard) (b : Nat) (m : Bool) : y.signals (y.setLampMark b m) :=
  ⟨y.loops, [], y.spkMarks, _, by rw [List.append_nil]; rfl⟩

theorem Yard.signals.putItem (y : Yard) (lp : ScreenId) (it : Item) : y.signals (y.putItem lp it).2 := by
  obtain ⟨l, rs, h⟩ := y.putItem_told lp it
  exact ⟨_, rs, y.spkMarks, y.lampMarks, h⟩

theorem Yard.signals.placeLamp (y : Yard) (origin : Origin) (bay v : Nat) : y.signals (y.placeLamp origin bay v).2 :=
  Yard.signals.putItem y _ _

theorem Yard.signals.placePassing (y : Yard) (bay v : Nat) : y.signals (y.placePassing bay v) := by
  have h := Yard.signals.placeLamp y .oe bay v
  unfold Yard.placePassing
  split
  · next hp => rw [hp] at h; exact h
  · next hp => rw [hp] at h; exact h.trans (Yard.signals.setLampMark _ _ _)

theorem Yard.signals.placeRestingNow (y : Yard) (bay : Nat) (occ : Option Nat) : y.signals (y.placeRestingNow bay occ) :=
  (Yard.signals.placeLamp y .oe bay _).trans (Yard.signals.setLampMark _ _ _)

section intact
variable (h : y.intact) (settle : Yard → Yard)
include h

theorem Yard.intact.readable (i : Nat) : (y.baySlot i).readable := (h.baySlot i).readable

theorem Yard.signals.placeSpeakersAt (lp : ScreenId) (p : Nat) : y.signals (y.placeSpeakersAt settle lp p) := by
  by_cases hm : y.spkMarked (postBay lp p 0) = true ∨ y.spkMarked (postBay lp p 1) = true
  · rw [Yard.placeSpeakersAt_marked h.readable settle lp p hm]
    obtain ⟨l, rs, _, lamp, he⟩ := Yard.signals.putItem y lp (y.speakerItem lp p)
    exact ⟨l, rs, _, lamp, by rw [he]⟩
  · rw [not_or] at hm
    rw [Yard.placeSpeakersAt_unmarked h.readable settle lp p (Bool.eq_false_iff.2 hm.1) (Bool.eq_false_iff.2 hm.2)]
    exact Yard.signals.refl y

theorem Yard.signals.placeLampsAt (lp : ScreenId) (p : Nat) : y.signals (y.placeLampsAt settle lp p) := by
  by_cases hm : y.lampMarked (postBay lp p 0) = true ∨ y.lampMarked (postBay lp p 1) = true
  · rw [Yard.placeLampsAt_marked h.readable settle lp p hm]
    obtain ⟨l, rs, spk, _, he⟩ := Yard.signals.putItem y lp (y.lampItem lp p)
    exact ⟨l, rs, spk, _, by rw [he]⟩
  · rw [not_or] at hm
    rw [Yard.placeLampsAt_unmarked h.readable settle lp p (Bool.eq_false_iff.2 hm.1) (Bool.eq_false_iff.2 hm.2)]
    exact Yard.signals.refl y

theorem Yard.signals.placeSpeakersOf (bays : List Nat) : y.signals (y.placeSpeakersOf settle bays) := by
  induction bays generalizing y with
  | nil => exact Yard.signals.refl y
  | cons b bays ih =>
    have hb := Yard.signals.placeSpeakersAt h settle (bayLoop b) (bayPost b)
    exact hb.trans (ih (hb.intact h))

theorem Yard.signals.foldl_placeSpeakersAt (lp : ScreenId) (posts : List Nat) :
    y.signals (posts.foldl (fun y p => y.placeSpeakersAt settle lp p) y) := by
  induction posts generalizing y with
  | nil => exact Yard.signals.refl y
  | cons p posts ih =>
    have hp := Yard.signals.placeSpeakersAt h settle lp p
    exact hp.trans (ih (hp.intact h))

theorem Yard.signals.foldl_placeLampsAt (lp : ScreenId) (posts : List Nat) :
    y.signals (posts.foldl (fun y p => y.placeLampsAt settle lp p) y) := by
  induction posts generalizing y with
  | nil => exact Yard.signals.refl y
  | cons p posts ih =>
    have hp := Yard.signals.placeLampsAt h settle lp p
    exact hp.trans (ih (hp.intact h))

theorem Yard.signals.markLamp (bay : Nat) : y.signals (y.markLamp settle bay) :=
  (Yard.signals.setLampMark y bay true).trans
    (Yard.signals.placeLampsAt ((Yard.signals.setLampMark y bay true).intact h) settle _ _)

end intact

/-! ## What a bay shows -/

theorem Yard.sends.placeLampsAt_speakers {kind : SlotKind} {bay v : Nat} (hk : kind = .speakers) (hs : y.sends kind bay v)
    (h : y.intact) (settle : Yard → Yard) (lp : ScreenId) (p : Nat) : (y.placeLampsAt settle lp p).sends kind bay v := by
  by_cases hm : y.lampMarked (postBay lp p 0) = true ∨ y.lampMarked (postBay lp p 1) = true
  · rw [Yard.placeLampsAt_marked h.readable settle lp p hm]
    exact hs.putItem fun _ => Item.agrees_other (by rw [hk]; simp [Yard.lampItem])
  · rw [not_or] at hm
    rw [Yard.placeLampsAt_unmarked h.readable settle lp p (Bool.eq_false_iff.2 hm.1) (Bool.eq_false_iff.2 hm.2)]
    exact hs

theorem Yard.shows.placeSpeakersAt {bay v : Nat} (hs : y.shows .lamps bay v) (h : y.intact) (settle : Yard → Yard)
    (lp : ScreenId) (p : Nat) : (y.placeSpeakersAt settle lp p).shows .lamps bay v := by
  by_cases hm : y.spkMarked (postBay lp p 0) = true ∨ y.spkMarked (postBay lp p 1) = true
  · rw [Yard.placeSpeakersAt_marked h.readable settle lp p hm]
    exact hs.putItem fun _ => Item.agrees_other (by simp [Yard.speakerItem])
  · rw [not_or] at hm
    rw [Yard.placeSpeakersAt_unmarked h.readable settle lp p (Bool.eq_false_iff.2 hm.1) (Bool.eq_false_iff.2 hm.2)]
    exact hs

theorem Yard.shows.placeSpeakersOf {bay v : Nat} (hs : y.shows .lamps bay v) (h : y.intact) (settle : Yard → Yard)
    (bays : List Nat) : (y.placeSpeakersOf settle bays).shows .lamps bay v := by
  induction bays generalizing y with
  | nil => exact hs
  | cons b bays ih =>
    exact ih (hs.placeSpeakersAt h settle _ _) ((Yard.signals.placeSpeakersAt h settle _ _).intact h)

/-- Whether a bay's speaker state is settled: still marked to be placed, or on its way. -/
def Yard.speaks (y : Yard) (bay v : Nat) : Prop :=
  y.spkMarked bay = true ∨ bay ≤ 1023 ∧ y.sends .speakers bay v

theorem Yard.signals.speakerValue (h : y.signals z) (b : Nat) : z.speakerValue b = y.speakerValue b := by
  unfold Yard.speakerValue
  rw [h.bay?]

theorem Yard.speaks.placeLamp {bay v : Nat} (hs : y.speaks bay v) (origin : Origin) (b w : Nat) :
    (y.placeLamp origin b w).2.speaks bay v := by
  rcases hs with hs | hs
  · refine .inl ?_
    rw [Yard.placeLamp_eq]
    unfold Yard.spkMarked
    rw [Yard.putItem_spkMarks]
    exact hs
  · exact .inr ⟨hs.1, hs.2.placeLamp_speakers _ _ _⟩

theorem postBay_side {lp : ScreenId} {p side : Nat} (hp : p < 128) (hs : side ≤ 1) : bayLoop (postBay lp p side) = lp ∧
    bayPost (postBay lp p side) = p ∧ baySide1 (postBay lp p side) = decide (side = 1) ∧ postBay lp p side ≤ 1023 := by
  obtain ⟨h1, h2, h3⟩ := bayOf_post (lp := lp) (p := p) (side := side) hp hs
  refine ⟨h1, h2, ?_, ?_⟩
  · have h3 : postBay lp p side % 2 = side := h3
    simp only [baySide1, h3, ne_eq, decide_eq_decide]
    omega
  · have := lp.isLt
    unfold postBay
    omega

theorem eq_postBay {bay : Nat} (hb : bay ≤ 1023) :
    bay = postBay (bayLoop bay) (bayPost bay) (if baySide1 bay then 1 else 0) := by
  unfold postBay bayLoop bayPost baySide1
  by_cases h2 : bay % 2 = 0
  · simp only [h2, ne_eq, not_true_eq_false, decide_false, Bool.false_eq_true, if_false]
    omega
  · simp only [h2, ne_eq, not_false_eq_true, decide_true, if_true]
    omega

theorem Yard.placeSpeakersAt_wf (h : y.intact) (hw : Tab.wf false y.spkMarks = true) (settle : Yard → Yard) (lp : ScreenId)
    (p : Nat) : Tab.wf false (y.placeSpeakersAt settle lp p).spkMarks = true := by
  by_cases hm : y.spkMarked (postBay lp p 0) = true ∨ y.spkMarked (postBay lp p 1) = true
  · rw [Yard.placeSpeakersAt_marked h.readable settle lp p hm]
    exact wf_clearMark (wf_clearMark hw _ _) _ _
  · rw [not_or] at hm
    rw [Yard.placeSpeakersAt_unmarked h.readable settle lp p (Bool.eq_false_iff.2 hm.1) (Bool.eq_false_iff.2 hm.2)]
    exact hw

theorem Yard.speakerItem_value (y : Yard) (lp : ScreenId) (p : Nat) (side1 : Bool) :
    (y.speakerItem lp p).value side1 = if y.spkMarked (postBay lp p (if side1 then 1 else 0)) then
      some (y.speakerValue (postBay lp p (if side1 then 1 else 0))) else none := by
  cases side1 <;> rfl

/-- A speaker state settled stays so where the marked states of a post are placed. -/
theorem Yard.speaks.placeSpeakersAt {bay : Nat} (hs : y.speaks bay (y.speakerValue bay)) (h : y.intact)
    (hw : Tab.wf false y.spkMarks = true) (settle : Yard → Yard) (lp : ScreenId) {p : Nat} (hp : p < 128) :
    (y.placeSpeakersAt settle lp p).speaks bay (y.speakerValue bay) := by
  by_cases hm : y.spkMarked (postBay lp p 0) = true ∨ y.spkMarked (postBay lp p 1) = true
  swap
  · rw [not_or] at hm
    rw [Yard.placeSpeakersAt_unmarked h.readable settle lp p (Bool.eq_false_iff.2 hm.1) (Bool.eq_false_iff.2 hm.2)]
    exact hs
  rw [Yard.placeSpeakersAt_marked h.readable settle lp p hm]
  have hmarks := get_clearMarks hw (postBay lp p 0) (postBay lp p 1) (y.putItem lp (y.speakerItem lp p)).1.1
    (y.putItem lp (y.speakerItem lp p)).1.2 bay
  rcases hs with hs | ⟨hbay, hs⟩
  · by_cases hat : ∃ side1 : Bool, bay = postBay lp p (if side1 then 1 else 0)
    · obtain ⟨side1, hat⟩ := hat
      obtain ⟨hl, hb, h1, hle⟩ := postBay_side (lp := lp) (side := if side1 then 1 else 0) hp (by split <;> omega)
      have hside : baySide1 bay = side1 := by
        rw [hat, h1]
        cases side1 <;> rfl
      rw [← hat] at hl hb hle
      rcases Yard.putItem_carries (y := y) (lp := lp) (it := y.speakerItem lp p) (side1 := side1)
          (v := y.speakerValue bay) (by rw [Yard.speakerItem_value, ← hat]; exact if_pos hs) with ⟨-, hc⟩ | ⟨hno, -⟩
      · refine .inr ⟨hle, Yard.sends_iff.2 ?_⟩
        subst hl
        rw [hb, hside]
        exact hc
      · refine .inl (hmarks.trans ?_)
        have hs : Tab.get false y.spkMarks bay = true := hs
        rw [hs, Bool.true_and]
        cases side1 with
        | false =>
          have hno : (y.putItem lp (y.speakerItem lp p)).1.1 = false := hno
          have hne : bay ≠ postBay lp p 1 := by
            rw [hat]
            unfold postBay
            simp
          rw [hno, beq_false_of_ne hne]
          simp
        | true =>
          have hno : (y.putItem lp (y.speakerItem lp p)).1.2 = false := hno
          have hne : bay ≠ postBay lp p 0 := by
            rw [hat]
            unfold postBay
            simp
          rw [hno, beq_false_of_ne hne]
          simp
    · have h0 : bay ≠ postBay lp p 0 := fun h0 => hat ⟨false, h0⟩
      have h1 : bay ≠ postBay lp p 1 := fun h1 => hat ⟨true, h1⟩
      refine .inl (hmarks.trans ?_)
      have hs : Tab.get false y.spkMarks bay = true := hs
      rw [hs, beq_false_of_ne h0, beq_false_of_ne h1]
      rfl
  · refine .inr ⟨hbay, hs.putItem fun hl _ hb w hw' => ?_⟩
    have hat := eq_postBay hbay
    have hb : p = bayPost bay := hb
    rw [hl, ← hb] at hat
    rw [Yard.speakerItem_value, ← hat] at hw'
    split at hw'
    · exact (Option.some.inj hw').symm
    · cases hw'

theorem bayPost_lt (b : Nat) : bayPost b < 128 := by
  unfold bayPost
  omega

theorem Yard.speaks.placeSpeakersOf {bay : Nat} (hs : y.speaks bay (y.speakerValue bay)) (h : y.intact)
    (hw : Tab.wf false y.spkMarks = true) (settle : Yard → Yard) (bays : List Nat) :
    (y.placeSpeakersOf settle bays).speaks bay (y.speakerValue bay) := by
  induction bays generalizing y with
  | nil => exact hs
  | cons b bays ih =>
    have hsig := Yard.signals.placeSpeakersAt h settle (bayLoop b) (bayPost b)
    have hstep := hs.placeSpeakersAt h hw settle (bayLoop b) (bayPost_lt b)
    rw [← hsig.speakerValue bay] at hstep ⊢
    exact ih hstep (hsig.intact h) (Yard.placeSpeakersAt_wf h hw settle _ _)

end signals

end Sys2Proof.Machine
end

section
/-! PROOF. The field's own operations: a bind change, a speaker set, a car unbound from its bay (R127, R170). -/

namespace Sys2Proof.Machine

/-! ## What field work leaves -/

/-- Whether one yard is another in which the Car Table has done its work on the field: cars, bays, check-in limits, the
rows of the ready list and the signals apart, it is the same. -/
def Yard.fieldwork (y z : Yard) : Prop :=
  ∃ loops rs spk lamp limits ready rows cars bays, z = { y with
    loops := loops, raised := y.raised ++ rs, spkMarks := spk, lampMarks := lamp, limits := limits, readyList := ready,
    rowCounts := rows, store := { y.store with cars := cars, bays := bays } }

section fieldwork
variable {y z x : Yard}

theorem Yard.fieldwork.trans (h : x.fieldwork y) (h' : y.fieldwork z) : x.fieldwork z := by
  obtain ⟨_, rs, _, _, _, _, _, _, _, rfl⟩ := h
  obtain ⟨loops, rs', spk, lamp, limits, ready, rows, cars, bays, rfl⟩ := h'
  exact ⟨loops, rs ++ rs', spk, lamp, limits, ready, rows, cars, bays, by rw [List.append_assoc]⟩

theorem Yard.signals.fieldwork (h : y.signals z) : y.fieldwork z := by
  obtain ⟨loops, rs, spk, lamp, rfl⟩ := h
  exact ⟨loops, rs, spk, lamp, y.limits, y.readyList, y.rowCounts, y.store.cars, y.store.bays, rfl⟩

theorem Yard.fieldwork.refl (y : Yard) : y.fieldwork y := (Yard.signals.refl y).fieldwork

theorem Yard.fieldwork.raised (h : y.fieldwork z) : ∃ rs, z.raised = y.raised ++ rs := by
  obtain ⟨_, rs, _, _, _, _, _, _, _, rfl⟩ := h
  exact ⟨rs, rfl⟩

theorem Yard.fieldwork.order? (h : y.fieldwork z) (n : Nat) : z.order? n = y.order? n := by
  obtain ⟨_, _, _, _, _, _, _, _, _, rfl⟩ := h
  rfl

/-- A yard with its ready list and its row counts in place of its own. -/
def Yard.rowed (y : Yard) (ready : List ReadyEntry) (rows : Tab Nat) : Yard :=
  { y with readyList := ready, rowCounts := rows }

theorem Yard.fieldwork.rowed (y : Yard) (ready : List ReadyEntry) (rows : Tab Nat) : y.fieldwork (y.rowed ready rows) :=
  ⟨y.loops, [], y.spkMarks, y.lampMarks, y.limits, ready, rows, y.store.cars, y.store.bays, by
    rw [List.append_nil]
    rfl⟩

theorem Yard.fieldwork.modCar (y : Yard) (n : Nat) (f : Car → Car) : y.fieldwork (y.modCar n f) := by
  obtain ⟨t, h⟩ := y.modCar_cars n f
  exact ⟨y.loops, [], y.spkMarks, y.lampMarks, y.limits, y.readyList, y.rowCounts, t, y.store.bays, by
    rw [List.append_nil, h]⟩

theorem Yard.fieldwork.setBaySlot (y : Yard) (b : Nat) (sl : Slot Bay) : y.fieldwork (y.setBaySlot b sl) :=
  ⟨y.loops, [], y.spkMarks, y.lampMarks, y.limits, y.readyList, y.rowCounts, y.store.cars, _, by
    rw [List.append_nil]
    rfl⟩

theorem Yard.fieldwork.modBay (y : Yard) (b : Nat) (f : Bay → Bay) : y.fieldwork (y.modBay b f) := by
  unfold Yard.modBay
  split
  · exact Yard.fieldwork.setBaySlot _ _ _
  · exact Yard.fieldwork.refl y

theorem Yard.fieldwork.startLimit (y : Yard) (n : Nat) : y.fieldwork (y.startLimit n) :=
  ⟨y.loops, [], y.spkMarks, y.lampMarks, _, y.readyList, y.rowCounts, y.store.cars, y.store.bays, by
    rw [List.append_nil]
    rfl⟩

theorem Yard.fieldwork.stopLimit (y : Yard) (n : Nat) : y.fieldwork (y.stopLimit n) :=
  ⟨y.loops, [], y.spkMarks, y.lampMarks, _, y.readyList, y.rowCounts, y.store.cars, y.store.bays, by
    rw [List.append_nil]
    rfl⟩

end fieldwork

/-! ## A bind change (R170) -/

section rows
variable {y : Yard}

theorem Yard.rowUp_rowed (y : Yard) (row : Option Nat) : ∃ rows, y.rowUp row = y.rowed y.readyList rows := by
  cases row with
  | none => exact ⟨y.rowCounts, rfl⟩
  | some r => exact ⟨_, rfl⟩

theorem Yard.rowDown_rowed (y : Yard) (row : Option Nat) : ∃ rows, y.rowDown row = y.rowed y.readyList rows := by
  cases row with
  | none => exact ⟨y.rowCounts, rfl⟩
  | some r => exact ⟨_, rfl⟩

/-- An entry of the ready list as a car's bind change leaves it. -/
def ReadyEntry.rebound (e : ReadyEntry) (car : Nat) (bay : Option Nat) : ReadyEntry :=
  if e.car == car then { e with row := bay.map bayRow } else e

/-- A bind change writes the rows of the car's entries and the row counts, and answers the number of these entries. -/
theorem Yard.bindChange_rowed (y : Yard) (car : Nat) (bay : Option Nat) : ∃ rows, y.bindChange car bay =
    ((y.readyList.filter fun e => e.car == car).length, y.rowed (y.readyList.map fun e => e.rebound car bay) rows) := by
  have hfold (list : List ReadyEntry) (z : Yard) : ∃ rows,
      list.foldl (fun y e => (y.rowDown e.row).rowUp (bay.map bayRow)) z = z.rowed z.readyList rows := by
    induction list generalizing z with
    | nil => exact ⟨z.rowCounts, rfl⟩
    | cons e list ih =>
      obtain ⟨r1, h1⟩ := z.rowDown_rowed e.row
      obtain ⟨r2, h2⟩ := (z.rowDown e.row).rowUp_rowed (bay.map bayRow)
      obtain ⟨r3, h3⟩ := ih ((z.rowDown e.row).rowUp (bay.map bayRow))
      refine ⟨r3, h3.trans ?_⟩
      rw [h2, h1]
      rfl
  obtain ⟨rows, h⟩ := hfold (y.readyList.filter fun e => e.car == car) y
  refine ⟨rows, ?_⟩
  unfold Yard.bindChange
  dsimp only
  rw [h]
  rfl

theorem Yard.fieldwork.bindChange (y : Yard) (car : Nat) (bay : Option Nat) : y.fieldwork (y.bindChange car bay).2 := by
  obtain ⟨rows, h⟩ := y.bindChange_rowed car bay
  rw [h]
  exact Yard.fieldwork.rowed _ _ _

end rows

/-! ## The store as the field's operations leave it -/

section field
variable {y : Yard}

/-- A bay as its speaker is set. -/
theorem Yard.setSpeaker_eq (y : Yard) (bay : Nat) (on : Bool) : ∃ spk,
    y.setSpeaker bay on = { y.modBay bay (fun b => { b with speaker := on }) with spkMarks := spk } ∧
      (y.spkMarked bay = true → Tab.get false spk bay = true) ∧
      (∀ b, y.bay? bay = some b → b.speaker ≠ on → Tab.get false spk bay = true) ∧
      (Tab.wf false y.spkMarks = true → Tab.wf false spk = true) ∧
      ∀ k, k ≠ bay → Tab.get false spk k = Tab.get false y.spkMarks k := by
  unfold Yard.setSpeaker
  cases hb : y.bay? bay with
  | none =>
    refine ⟨y.spkMarks, ?_, fun h => h, fun b h => (by cases h), fun h => h, fun k _ => rfl⟩
    unfold Yard.modBay
    rw [hb]
  | some b =>
    dsimp only
    by_cases hon : b.speaker = on
    · refine ⟨y.spkMarks, ?_, fun h => h, fun b' h hne => ?_, fun h => h, fun k _ => rfl⟩
      · rw [hon]
        simp only [bne_self_eq_false, Bool.false_eq_true, if_false]
        obtain ⟨t, ht⟩ := y.modBay_bays bay fun b => { b with speaker := on }
        rw [ht]
      · cases h
        exact absurd hon hne
    · refine ⟨Tab.put false y.spkMarks bay true, ?_, fun _ => ?_, fun _ _ _ => ?_, fun h => Tab.wf_put h _ _,
        fun k hk => Tab.get_put_other _ _ _ hk⟩
      · rw [if_pos (bne_iff_ne.2 hon)]
        obtain ⟨t, ht⟩ := y.modBay_bays bay fun b => { b with speaker := on }
        rw [ht]
        rfl
      · exact Tab.get_put_of_ne _ _ (by decide)
      · exact Tab.get_put_of_ne _ _ (by decide)

theorem Yard.fieldwork.setSpeaker (y : Yard) (bay : Nat) (on : Bool) : y.fieldwork (y.setSpeaker bay on) := by
  obtain ⟨spk, h, -⟩ := y.setSpeaker_eq bay on
  rw [h]
  exact (Yard.fieldwork.modBay y bay _).trans (Yard.signals.fieldwork ⟨_, [], spk, _, by rw [List.append_nil]⟩)

section intact
variable (h : y.intact)
include h

theorem Yard.intact.setSpeaker (bay : Nat) (on : Bool) : (y.setSpeaker bay on).intact := by
  obtain ⟨spk, he, -⟩ := y.setSpeaker_eq bay on
  exact (h.modBay bay _).congr (by rw [he])

theorem Yard.bay?_setSpeaker (bay : Nat) (on : Bool) (k : Nat) :
    (y.setSpeaker bay on).bay? k = (y.bay? k).map fun r => if k = bay then { r with speaker := on } else r := by
  obtain ⟨spk, he, -⟩ := y.setSpeaker_eq bay on
  rw [he]
  exact Yard.bay?_modBay h bay _ k

end intact

theorem Yard.modBay_findCar (y : Yard) (b : Nat) (f : Bay → Bay) (n : Nat) : (y.modBay b f).findCar n = y.findCar n := by
  obtain ⟨t, h⟩ := y.modBay_bays b f
  rw [h]
  rfl

theorem Yard.setSpeaker_findCar (y : Yard) (bay : Nat) (on : Bool) (n : Nat) :
    (y.setSpeaker bay on).findCar n = y.findCar n := by
  obtain ⟨spk, h, -⟩ := y.setSpeaker_eq bay on
  rw [h]
  exact y.modBay_findCar bay _ n

theorem Yard.modCar_bay? (y : Yard) (n : Nat) (f : Car → Car) (b : Nat) : (y.modCar n f).bay? b = y.bay? b := by
  obtain ⟨t, h⟩ := y.modCar_cars n f
  rw [h]
  rfl

theorem Yard.bindChange_store (y : Yard) (car : Nat) (bay : Option Nat) :
    (y.bindChange car bay).2.store = y.store := by
  obtain ⟨rows, h⟩ := y.bindChange_rowed car bay
  rw [h]
  rfl

theorem Yard.bindChange_loops (y : Yard) (car : Nat) (bay : Option Nat) :
    (y.bindChange car bay).2.loops = y.loops := by
  obtain ⟨rows, h⟩ := y.bindChange_rowed car bay
  rw [h]
  rfl

theorem Yard.bindChange_spkMarks (y : Yard) (car : Nat) (bay : Option Nat) :
    (y.bindChange car bay).2.spkMarks = y.spkMarks := by
  obtain ⟨rows, h⟩ := y.bindChange_rowed car bay
  rw [h]
  rfl

theorem Yard.bindChange_limits (y : Yard) (car : Nat) (bay : Option Nat) :
    (y.bindChange car bay).2.limits = y.limits := by
  obtain ⟨rows, h⟩ := y.bindChange_rowed car bay
  rw [h]
  rfl

theorem Yard.modCar_limits (y : Yard) (n : Nat) (f : Car → Car) : (y.modCar n f).limits = y.limits := by
  obtain ⟨t, h⟩ := y.modCar_cars n f
  rw [h]

theorem Yard.modBay_limits (y : Yard) (b : Nat) (f : Bay → Bay) : (y.modBay b f).limits = y.limits := by
  obtain ⟨t, h⟩ := y.modBay_bays b f
  rw [h]

theorem Yard.setSpeaker_limits (y : Yard) (bay : Nat) (on : Bool) : (y.setSpeaker bay on).limits = y.limits := by
  obtain ⟨spk, h, -⟩ := y.setSpeaker_eq bay on
  rw [h]
  exact y.modBay_limits bay _

/-! ## A car unbound from its bay (R127) -/

/-- The record of a bay that is left. -/
def Bay.empty : Bay := { occupant := none, speaker := false }

/-- What is left of a yard whose car is unbound, before the Order Engine is told. -/
def Yard.unbound (y : Yard) (car bay : Nat) : Yard :=
  ((((y.modBay bay fun b => { b with occupant := none }).setSpeaker bay false).modCar car
    fun c => { c with bay := none }).placeLamp .ct bay lampNone).2

theorem Yard.release_eq (y : Yard) (car bay : Nat) : y.release car bay = ((y.unbound car bay).bindChange car none).2 := rfl

theorem Yard.fieldwork.unbound (y : Yard) (car bay : Nat) : y.fieldwork (y.unbound car bay) :=
  (((Yard.fieldwork.modBay y bay _).trans (Yard.fieldwork.setSpeaker _ bay false)).trans
    (Yard.fieldwork.modCar _ car _)).trans (Yard.signals.placeLamp _ .ct bay lampNone).fieldwork

theorem Yard.fieldwork.release (y : Yard) (car bay : Nat) : y.fieldwork (y.release car bay) :=
  (Yard.fieldwork.unbound y car bay).trans (Yard.fieldwork.bindChange _ car none)

theorem Yard.release_limits (y : Yard) (car bay : Nat) : (y.release car bay).limits = y.limits := by
  rw [Yard.release_eq, Yard.bindChange_limits, Yard.unbound, (Yard.signals.placeLamp _ .ct bay lampNone).limits,
    Yard.modCar_limits, Yard.setSpeaker_limits, Yard.modBay_limits]

theorem Yard.release_readyList (y : Yard) (car bay : Nat) :
    (y.release car bay).readyList = (y.unbound car bay).readyList.map fun e => e.rebound car none := by
  rw [Yard.release_eq]
  obtain ⟨rows, h⟩ := (y.unbound car bay).bindChange_rowed car none
  rw [h]
  rfl

/-- A bay left has its lamp put out. -/
theorem Yard.release_shows (y : Yard) (car bay : Nat) : (y.release car bay).shows .lamps bay lampNone := by
  rw [Yard.release_eq, Yard.shows_congr (Yard.bindChange_loops _ _ _)]
  exact Yard.placeLamp_shows _ _ _ _

section intact
variable (h : y.intact)
include h

theorem Yard.intact.unbound (car bay : Nat) : (y.unbound car bay).intact :=
  (Yard.signals.placeLamp _ .ct bay lampNone).intact (((h.modBay bay _).setSpeaker bay false).modCar car _)

theorem Yard.intact.bindChange (car : Nat) (bay : Option Nat) : (y.bindChange car bay).2.intact :=
  h.congr (y.bindChange_store car bay)

theorem Yard.intact.release (car bay : Nat) : (y.release car bay).intact := (h.unbound car bay).bindChange car none

theorem Yard.findCar_release (car bay n : Nat) : (y.release car bay).findCar n =
    (y.findCar n).map fun e => if n = car then (e.1, { e.2 with bay := none }) else e := by
  have hstore : (y.release car bay).findCar n = (y.unbound car bay).findCar n := by
    unfold Yard.findCar
    rw [Yard.release_eq, Yard.bindChange_store]
  rw [hstore]
  unfold Yard.unbound
  rw [(Yard.signals.placeLamp _ .ct bay lampNone).findCar,
    Yard.findCar_modCar ((h.modBay bay _).setSpeaker bay false) (f := fun c => { c with bay := none }) (fun _ => rfl),
    Yard.setSpeaker_findCar, Yard.modBay_findCar]

theorem Yard.bay?_release (car bay k : Nat) : (y.release car bay).bay? k =
    (y.bay? k).map fun r => if k = bay then Bay.empty else r := by
  have hstore : (y.release car bay).bay? k = (y.unbound car bay).bay? k := by
    unfold Yard.bay? Yard.baySlot
    rw [Yard.release_eq, Yard.bindChange_store]
  rw [hstore]
  unfold Yard.unbound
  rw [(Yard.signals.placeLamp _ .ct bay lampNone).bay?, Yard.modCar_bay?, Yard.bay?_setSpeaker (h.modBay bay _),
    Yard.bay?_modBay h]
  cases y.bay? k with
  | none => rfl
  | some r => by_cases hk : k = bay <;> simp [hk, Bay.empty]

/-- A speaker that was ON is to be sent OFF. -/
theorem Yard.release_marks {car bay : Nat} {b : Bay} (hb : y.bay? bay = some b) (hon : b.speaker = true) :
    (y.release car bay).spkMarked bay = true := by
  unfold Yard.spkMarked
  rw [Yard.release_eq, Yard.bindChange_spkMarks]
  unfold Yard.unbound
  rw [Yard.placeLamp_eq, Yard.putItem_spkMarks]
  obtain ⟨t, ht⟩ := ((y.modBay bay fun b => { b with occupant := none }).setSpeaker bay false).modCar_cars car
    fun c => { c with bay := none }
  rw [ht]
  obtain ⟨spk, hs, -, hmark, -⟩ := (y.modBay bay fun b => { b with occupant := none }).setSpeaker_eq bay false
  rw [hs]
  refine hmark { b with occupant := none } ?_ (by simp [hon])
  rw [Yard.bay?_modBay h, hb]
  simp

end intact

theorem Yard.car?_of_find {y z : Yard} {n : Nat} {g : Nat × Car → Nat × Car} {f : Car → Car}
    (hf : z.findCar n = (y.findCar n).map g) (hg : ∀ e, (g e).2 = f e.2) : z.car? n = (y.car? n).map f := by
  unfold Yard.car?
  rw [hf]
  cases y.findCar n with
  | none => rfl
  | some e => simp [hg]

theorem Yard.car?_release (h : y.intact) (car bay n : Nat) : (y.release car bay).car? n =
    (y.car? n).map fun c => if n = car then { c with bay := none } else c :=
  Yard.car?_of_find (Yard.findCar_release h car bay n) fun e => by split <;> rfl

end field

end Sys2Proof.Machine
end

section
/-! PROOF. An admission, and an exit read (R97, R99, R101, R107, R118, R123, R124). -/

namespace Sys2Proof.Machine

/-! ## The admission of a car -/

section admission
variable {w : GateRun} {ticket choice i j : Nat} {cls : TicketClass} {sc : ScreenId}

theorem GateRun.admitCar_told : w.admitCar ticket cls sc i j =
    ({ w with yard := (w.yard.createCar i ticket cls sc w.id w.site.minute).2.addTicket j ticket w.id w.site.minute } :
      GateRun).told { w.lane with
        command := .up, travel := if w.lane.command = .up then w.lane.travel else some 10000,
        state := .opening, pending := .admission w.yard.nextCar ticket sc, exitRead := none,
        dwell := if w.lane.dwellSetting = 0 then none else some (w.lane.dwellSetting * 1000),
        answer := some (.admitted sc) } [.admitted w.id w.yard.nextCar ticket cls sc] := by
  unfold GateRun.admitCar
  dsimp only
  rw [GateRun.enterOpening_told, GateRun.answer_told, GateRun.told_told, GateRun.raise_told, GateRun.told_told]
  rfl

theorem GateRun.decideAdmission_admitted (hsc : w.chooseScreen choice = some sc)
    (hreads : w.yard.ticketReads ticket = ((false, false), w.yard))
    (hfail : w.admissionFailure (some sc) false false = none) (hi : lowestFree w.yard.store.cars 1024 = some i)
    (hj : lowestFree w.yard.store.tickets 4096 = some j) :
    w.decideAdmission ticket cls choice = w.admitCar ticket cls sc i j := by
  unfold GateRun.decideAdmission
  rw [hsc, hreads]
  dsimp only
  rw [hfail, show TableId.car.size = 1024 from rfl, show TableId.ticket.size = 4096 from rfl, hi, hj]

end admission

/-! ## An exit read -/

section exit
variable {y : Yard} {ticket i b : Nat} {car car' : Car} {br : Bay}

theorem Yard.exitRead_onField (h : y.intact) (hu : tableUndamaged y.store.cars = true)
    (hf : (inUse y.store.cars).find? (fun e => e.2.ticket == ticket) = some (i, car)) (hs : car.state = .onField) :
    y.exitRead ticket = (some car.number, y.makeLeaving car) := by
  unfold Yard.exitRead
  rw [Yard.searchCars_undamaged Yard.drain hu h.1 fun c => c.ticket == ticket, hf]
  dsimp only [Option.map]
  rw [hs]

theorem Yard.exitRead_parked (h : y.intact) (hu : tableUndamaged y.store.cars = true)
    (hf : (inUse y.store.cars).find? (fun e => e.2.ticket == ticket) = some (i, car)) (hs : car.state = .parked)
    (hb : car.bay = some b) : y.exitRead ticket =
      (some car.number, ((y.release car.number b).placeSpeakersOf Yard.drain [b]).makeLeaving car) := by
  unfold Yard.exitRead
  rw [Yard.searchCars_undamaged Yard.drain hu h.1 fun c => c.ticket == ticket, hf]
  dsimp only [Option.map]
  rw [hs, hb]
  dsimp only
  rw [Yard.readBay_intact h]
  cases y.bay? b <;> rfl

theorem GateRun.readExit_found {w : GateRun} {n : Nat} {z : Yard} (hd : w.lane.closeDeferred = false)
    (hr : w.yard.exitRead ticket = (some n, z)) : w.readExit ticket = ({ w with yard := z } : GateRun).told { w.lane with
      command := .up, travel := if w.lane.command = .up then w.lane.travel else some 10000,
      state := .opening, pending := .exit n, exitRead := none,
      dwell := if w.lane.dwellSetting = 0 then none else some (w.lane.dwellSetting * 1000), answer := some .go } [] := by
  unfold GateRun.readExit
  rw [if_neg (by rw [hd]; decide), hr]
  dsimp only
  rw [GateRun.enterOpening_told, GateRun.answer_told, GateRun.told_told]
  rfl

theorem Yard.car?_found {n : Nat} (hf : y.findCar n = some (i, car)) : y.car? n = some car := by
  rw [Yard.car?, hf]
  rfl

/-- What is left of a yard whose car is made LEAVING. -/
theorem Yard.makeLeaving_leaves (h : y.intact) (hl : Tab.wf none y.limits = true) (hc : y.car? car.number = some car') :
    (y.makeLeaving car).car? car.number = some { car' with state := .leaving } ∧
      (∀ b, (y.makeLeaving car).bay? b = y.bay? b) ∧ Tab.get none (y.makeLeaving car).limits car.number = none ∧
      y.fieldwork (y.makeLeaving car) ∧
      (y.makeLeaving car).raised = y.raised ++ [.carState car.number car.state .leaving .exitRead] := by
  obtain ⟨cars, hcars⟩ := y.modCar_cars car.number fun c => { c with state := .leaving }
  refine ⟨?_, fun b => Yard.modCar_bay? y car.number _ b, ?_, ?_, ?_⟩
  · have hcar := Yard.car?_modCar h (f := fun c => { c with state := .leaving }) (fun _ => rfl) car.number car.number
    rw [hc] at hcar
    exact hcar.trans (by simp)
  · refine Tab.get_put_self (n := 0) ?_ _ _
    rw [Yard.modCar_limits]
    exact hl
  · exact ((Yard.fieldwork.modCar _ _ _).trans (Yard.fieldwork.stopLimit _ _)).trans
      (Yard.signals.raise _ _).fieldwork
  · unfold Yard.makeLeaving
    rw [hcars]
    rfl

/-- A car that is made LEAVING from its bay. -/
theorem Yard.exitRead_unbinds (h : y.intact) (hl : Tab.wf none y.limits = true)
    (hf : y.findCar car.number = some (i, car)) (hb : y.bay? b = some br) : ∃ z rs,
      ((y.release car.number b).placeSpeakersOf Yard.drain [b]).makeLeaving car = z ∧
      z.car? car.number = some { car with bay := none, state := .leaving } ∧ z.bay? b = some Bay.empty ∧
      Tab.get none z.limits car.number = none ∧ y.fieldwork z ∧
      z.raised = y.raised ++ (rs ++ [.carState car.number car.state .leaving .exitRead]) := by
  have hrel := h.release car.number b
  have hsig := Yard.signals.placeSpeakersOf hrel Yard.drain [b]
  have hspk := hsig.intact hrel
  have hwork := (Yard.fieldwork.release y car.number b).trans hsig.fieldwork
  have hcar : ((y.release car.number b).placeSpeakersOf Yard.drain [b]).car? car.number =
      some { car with bay := none } := by
    rw [hsig.car?, Yard.car?_release h, Yard.car?_found hf]
    simp
  have hbay : ((y.release car.number b).placeSpeakersOf Yard.drain [b]).bay? b = some Bay.empty := by
    rw [hsig.bay?, Yard.bay?_release h, hb]
    simp
  have hlim : Tab.wf none ((y.release car.number b).placeSpeakersOf Yard.drain [b]).limits = true := by
    rw [hsig.limits, Yard.release_limits]
    exact hl
  generalize (y.release car.number b).placeSpeakersOf Yard.drain [b] = x at hspk hwork hcar hbay hlim
  obtain ⟨rs, hrs⟩ := hwork.raised
  obtain ⟨hzcar, hzbay, hzlim, hzwork, hzraised⟩ := Yard.makeLeaving_leaves hspk hlim hcar
  refine ⟨_, rs, rfl, hzcar, (hzbay b).trans hbay, hzlim, hwork.trans hzwork, ?_⟩
  rw [hzraised, hrs, List.append_assoc]

end exit

/-- An event of a lane, from the yard it leaves. -/
theorem event_lane_leaves {s : State} {ln : LaneId} {f : GateRun → GateRun} {l : Lane} {z : Yard} {rs : List Report}
    (hf : f (s.gateRun ln) = ({ s.gateRun ln with yard := z } : GateRun).told l rs) : event (fun s => s.onLane ln f) s =
      .next (({ s with lanes := s.lanes.set ln l, yard := z } : State).raiseAll rs).finish := by
  have hon : s.onLane ln f = ({ s with lanes := s.lanes.set ln l, yard := z } : State).raiseAll rs := by
    change (let w := f (s.gateRun ln); { s with lanes := s.lanes.set ln w.lane, yard := w.yard }) = _
    dsimp only
    rw [hf]
    rfl
  rw [event_next, hon]

theorem State.finish_lane_raise {s : State} {lanes : Vector Lane 6} {z : Yard} {r : Report} (hz : z.raised = []) :
    ({ s with lanes := lanes, yard := z.raise r } : State).finish =
      ({ s with lanes := lanes, yard := z } : State).reported [r] :=
  State.finish_raiseAll { s with lanes := lanes, yard := z } [r] hz

/-- Settles O42: the number of a new car, its admission, and the exit read of a car on the field and of one in a bay. -/
theorem admissionCreatesTheCar : Obligations.AdmissionCreatesTheCar := by
  unfold Obligations.AdmissionCreatesTheCar
  refine ⟨fun y used after d hl hd hused hafter hfree hbefore => Yard.nextCar_eq hl hd hused hafter hfree hbefore,
    fun s ln l c cls sc i j n hs hl hg hcls hst hd hid hchosen hu hknown hopen hroom hi hj hn => ?_,
    fun s ln l o c i car hs hl hg hst hd hid hu hw hticket hcar ho => ?_⟩
  · subst hl hn
    have hst : (s.gateRun ln).lane.state = .present := hst
    have hd : (s.gateRun ln).lane.closeDeferred = false := hd
    have hfail : (s.gateRun ln).admissionFailure (some sc) false false = none := by
      rw [GateRun.admissionFailure_roomy hopen hroom
        (by rw [show (s.gateRun ln).yard = s.yard from rfl, hi]; rfl)
        (by rw [show (s.gateRun ln).yard = s.yard from rfl, hj]; rfl)]
      rw [hd]
      rfl
    have hrun : (s.gateRun ln).credential c = (s.gateRun ln).admitCar c.ticket cls sc i j := by
      rw [GateRun.credential_entry hg hcls hst hid]
      exact GateRun.decideAdmission_admitted (State.chosen_screen hchosen ln)
        (Yard.ticketReads_unknown hu hknown) hfail hi hj
    rw [GateRun.admitCar_told] at hrun
    exact (event_lane_leaves (f := fun w => w.credential c) hrun).trans
      (congrArg Host.Outcome.next (State.finish_raiseAll _ _ hs))
  · subst hl
    have hst : (s.gateRun ln).lane.state = .present := hst
    have hd : (s.gateRun ln).lane.closeDeferred = false := hd
    obtain ⟨-, hstore, hlimits, -⟩ := ((State.canonical_iff s).1 hw).2
    have hint : s.yard.intact := Yard.intact_of_undamaged hstore hu
    have hcars := ((Store.undamaged_iff _).1 hu).1
    have hrun := GateRun.credential_exit hg hst hid
    refine ⟨fun hfield => ?_, fun b br hpark hbay hbr => ?_⟩
    · have hread := Yard.exitRead_onField hint hcars hticket hfield
      rw [GateRun.readExit_found hd hread] at hrun
      have hstep := event_lane_leaves (f := fun w => w.credential c) hrun
      rw [State.raiseAll_nil] at hstep
      refine hstep.trans ?_
      subst ho
      unfold Yard.makeLeaving
      rw [Yard.modCar_found hcar, hfield]
      exact congrArg Host.Outcome.next (State.finish_lane_raise hs)
    · have hread := Yard.exitRead_parked hint hcars hticket hpark hbay
      rw [GateRun.readExit_found hd hread] at hrun
      obtain ⟨z, rs, hz, hzcar, hzbay, hzlim, hzwork, hzraised⟩ := Yard.exitRead_unbinds hint hlimits hcar hbr
      rw [hz] at hrun
      have hraised : s.yard.raised = [] := hs
      rw [hraised, List.nil_append, hpark] at hzraised
      obtain ⟨_, _, _, _, _, _, _, _, _, rfl⟩ := hzwork
      refine ⟨_, rs, (event_lane_leaves (f := fun w => w.credential c) hrun).trans
        (congrArg Host.Outcome.next (congrArg State.finish (State.raiseAll_nil _))), ?_, hzcar, hzbay, hzlim, rfl, rfl,
        congrArg s.link.after hzraised, fun k hk => ?_, rfl, rfl⟩
      · subst ho
        exact Vector.getElem_set_self _
      · exact Vector.getElem_set_ne ln.isLt k.isLt fun h => hk (Fin.ext h.symm)

end Sys2Proof.Machine
end

section
/-! PROOF. A check-in (R119, R125, R126). -/

namespace Sys2Proof.Machine

/-! ## What a piece of field work does to the bays and the cars -/

/-- Whether one yard is another after a piece of field work that takes each bay and each car as the given functions do,
leaving every record in its slot and every entry of the ready list to its car. -/
structure Yard.worked (y z : Yard) (bay : Nat → Option Bay → Option Bay) (car : Nat → Car → Car) : Prop where
  work : y.fieldwork z
  intact : z.intact
  bays : ∀ k, z.bay? k = bay k (y.bay? k)
  cars : ∀ n, z.findCar n = (y.findCar n).map fun e => (e.1, car n e.2)
  entries : z.readyList.map ReadyEntry.car = y.readyList.map ReadyEntry.car
  limits : Tab.wf none y.limits = true → Tab.wf none z.limits = true

/-- The bays as they are. -/
def sameBays (_ : Nat) (r : Option Bay) : Option Bay := r

/-- The cars as they are. -/
def sameCars (_ : Nat) (c : Car) : Car := c

/-- One bay taken by a function. -/
def oneBay (bay : Nat) (f : Bay → Bay) (k : Nat) (r : Option Bay) : Option Bay :=
  r.map fun r => if k = bay then f r else r

/-- One car taken by a function. -/
def oneCar (car : Nat) (f : Car → Car) (n : Nat) (c : Car) : Car :=
  if n = car then f c else c

section worked
variable {x y z : Yard} {fb fb' : Nat → Option Bay → Option Bay} {fc fc' : Nat → Car → Car}

theorem Yard.worked.trans (h : x.worked y fb fc) (h' : y.worked z fb' fc') :
    x.worked z (fun k r => fb' k (fb k r)) fun n c => fc' n (fc n c) where
  work := h.work.trans h'.work
  intact := h'.intact
  bays k := by rw [h'.bays, h.bays]
  cars n := by
    rw [h'.cars, h.cars]
    cases x.findCar n <;> rfl
  entries := h'.entries.trans h.entries
  limits hw := h'.limits (h.limits hw)

theorem Yard.worked.car? (h : y.worked z fb fc) (n : Nat) : z.car? n = (y.car? n).map (fc n) :=
  Yard.car?_of_find (h.cars n) fun _ => rfl

theorem Yard.signals.worked (h : y.signals z) (hy : y.intact) : y.worked z sameBays sameCars where
  work := h.fieldwork
  intact := h.intact hy
  bays k := h.bay? k
  cars n := (h.findCar n).trans (by cases y.findCar n <;> rfl)
  entries := by
    obtain ⟨_, _, _, _, rfl⟩ := h
    rfl
  limits hw := by
    rw [h.limits]
    exact hw

theorem ReadyEntry.rebound_car (e : ReadyEntry) (car : Nat) (bay : Option Nat) : (e.rebound car bay).car = e.car := by
  unfold ReadyEntry.rebound
  split <;> rfl

section ops
variable (h : y.intact)
include h

theorem Yard.worked.modBay (b : Nat) (f : Bay → Bay) : y.worked (y.modBay b f) (oneBay b f) sameCars where
  work := Yard.fieldwork.modBay y b f
  intact := h.modBay b f
  bays k := Yard.bay?_modBay h b f k
  cars n := (Yard.modBay_findCar y b f n).trans (by cases y.findCar n <;> rfl)
  entries := by
    obtain ⟨t, ht⟩ := y.modBay_bays b f
    rw [ht]
  limits hw := by
    rw [Yard.modBay_limits]
    exact hw

theorem Yard.worked.modCar (n : Nat) {f : Car → Car} (hf : ∀ c, (f c).number = c.number) :
    y.worked (y.modCar n f) sameBays (oneCar n f) where
  work := Yard.fieldwork.modCar y n f
  intact := h.modCar n f
  bays k := Yard.modCar_bay? y n f k
  cars m := (Yard.findCar_modCar h hf n m).trans (by
    unfold oneCar
    cases y.findCar m with
    | none => rfl
    | some e => by_cases hm : m = n <;> simp [hm])
  entries := by
    obtain ⟨t, ht⟩ := y.modCar_cars n f
    rw [ht]
  limits hw := by
    rw [Yard.modCar_limits]
    exact hw

theorem Yard.worked.startLimit (n : Nat) : y.worked (y.startLimit n) sameBays sameCars where
  work := Yard.fieldwork.startLimit y n
  intact := h.congr rfl
  bays _ := rfl
  cars m := by
    change y.findCar m = _
    cases y.findCar m <;> rfl
  entries := rfl
  limits hw := Tab.wf_put hw _ _

theorem Yard.worked.stopLimit (n : Nat) : y.worked (y.stopLimit n) sameBays sameCars where
  work := Yard.fieldwork.stopLimit y n
  intact := h.congr rfl
  bays _ := rfl
  cars m := by
    change y.findCar m = _
    cases y.findCar m <;> rfl
  entries := rfl
  limits hw := Tab.wf_put hw _ _

theorem Yard.worked.bindChange (car : Nat) (bay : Option Nat) :
    y.worked (y.bindChange car bay).2 sameBays sameCars where
  work := Yard.fieldwork.bindChange y car bay
  intact := h.bindChange car bay
  bays k := by
    unfold Yard.bay? Yard.baySlot
    rw [Yard.bindChange_store]
    rfl
  cars n := by
    unfold Yard.findCar
    rw [Yard.bindChange_store]
    cases (inUse y.store.cars).find? fun e => e.2.number == n <;> rfl
  entries := by
    obtain ⟨rows, he⟩ := y.bindChange_rowed car bay
    rw [he]
    exact (List.map_map ..).trans (List.map_congr_left fun e _ => e.rebound_car car bay)
  limits hw := by
    rw [Yard.bindChange_limits]
    exact hw

theorem Yard.worked.setSpeaker (bay : Nat) (on : Bool) :
    y.worked (y.setSpeaker bay on) (oneBay bay fun r => { r with speaker := on }) sameCars where
  work := Yard.fieldwork.setSpeaker y bay on
  intact := h.setSpeaker bay on
  bays k := Yard.bay?_setSpeaker h bay on k
  cars n := (Yard.setSpeaker_findCar y bay on n).trans (by cases y.findCar n <;> rfl)
  entries := by
    obtain ⟨spk, he, -⟩ := y.setSpeaker_eq bay on
    obtain ⟨t, ht⟩ := y.modBay_bays bay fun b => { b with speaker := on }
    rw [he, ht]
  limits hw := by
    rw [Yard.setSpeaker_limits]
    exact hw

theorem Yard.worked.release (car bay : Nat) : y.worked (y.release car bay) (oneBay bay fun _ => Bay.empty)
    (oneCar car fun c => { c with bay := none }) where
  work := Yard.fieldwork.release y car bay
  intact := h.release car bay
  bays k := Yard.bay?_release h car bay k
  cars n := (Yard.findCar_release h car bay n).trans (by
    unfold oneCar
    cases y.findCar n with
    | none => rfl
    | some e => by_cases hm : n = car <;> simp [hm])
  entries := by
    rw [Yard.release_eq, (Yard.worked.bindChange (h.unbound car bay) car none).entries]
    exact ((((Yard.worked.modBay h bay fun b => { b with occupant := none }).trans
      (Yard.worked.setSpeaker (h.modBay bay _) bay false)).trans
      (Yard.worked.modCar ((h.modBay bay _).setSpeaker bay false) car (f := fun c => { c with bay := none })
        fun _ => rfl)).trans
      ((Yard.signals.placeLamp _ .ct bay lampNone).worked
        (((h.modBay bay _).setSpeaker bay false).modCar car fun c => { c with bay := none }))).entries
  limits hw := by
    rw [Yard.release_limits]
    exact hw

/-- A car sent back to the field from its bay. -/
theorem Yard.worked.unbindToField (car bay : Nat) (cause : CarCause) : y.worked (y.unbindToField car bay cause)
    (oneBay bay fun _ => Bay.empty) (oneCar car fun c => { c with bay := none, state := .onField }) := by
  have hrel := Yard.worked.release h car bay
  have hmod := Yard.worked.modCar hrel.intact car (f := fun c => { c with state := .onField }) fun _ => rfl
  have hlim := Yard.worked.startLimit hmod.intact car
  have hall := ((hrel.trans hmod).trans hlim).trans
    ((Yard.signals.raise _ (.carState car .parked .onField cause)).worked hlim.intact)
  refine ⟨hall.work, hall.intact, hall.bays, fun n => (hall.cars n).trans ?_, hall.entries, hall.limits⟩
  cases y.findCar n with
  | none => rfl
  | some e => by_cases hn : n = car <;> simp [oneCar, sameCars, hn]

end ops

end worked

/-! ## The reads and the checks of a check-in (R125) -/

section checkin
variable {y : Yard} {site : Site} {bay code n : Nat} {wish : Bool}

theorem Read.record?_of {ρ : Type} (o : Option ρ) : (Read.of o).record? = o := by cases o <;> rfl

theorem Read.faulty_of {ρ : Type} (o : Option ρ) : (Read.of o).faulty = false := by cases o <;> rfl

theorem Yard.checkinReads_intact (h : y.intact) (bay code : Nat) : y.checkinReads bay code = ({
    car := Read.of (if codeValid code then y.car? (codeCar code) else none), bay := Read.of (y.bay? bay),
    otherLost := false }, y) := by
  unfold Yard.checkinReads
  dsimp only
  have hcar : (if codeValid code then y.readCar Yard.drain (codeCar code) else (.absent, y)) =
      (Read.of (if codeValid code then y.car? (codeCar code) else none), y) := by
    split
    · exact Yard.readCar_intact h _ _
    · rfl
  rw [hcar]
  simp only [Yard.readBay_intact h, Yard.readCar_intact h, Read.faulty_of, Bool.or_false]
  cases (Read.of (if codeValid code then y.car? (codeCar code) else none)).record?.bind fun c => c.oldBay bay with
  | none => cases (Read.of (y.bay? bay)).record?.bind fun b => b.otherOccupant (codeCar code) <;> rfl
  | some old =>
    cases (Read.of (y.bay? bay)).record?.bind fun b => b.otherOccupant (codeCar code)
    all_goals
      dsimp only
      rw [Yard.readBay_intact h, Read.faulty_of]
      rfl

theorem codeValid_iff (code : Nat) :
    codeValid code = true ↔ 1 ≤ code / 100 ∧ code / 100 ≤ 9999 ∧ code % 97 = 1 := by
  simp [codeValid, and_assoc]

/-- The reads of a check-in where no read meets a parity fault. -/
def wholeReads (car : Option Car) (b : Option Bay) : CheckinReads :=
  { car := Read.of car, bay := Read.of b, otherLost := false }

theorem Car.present_iff (c : Car) : c.present = true ↔ c.state ∈ [CarState.onField, .parked] := by
  simp [Car.present]

section failure
variable {car : Option Car} {b : Option Bay} {c : Car}

theorem checkinFailure_setup (hrun : site.run = false) : checkinFailure site bay code (wholeReads car b) = some .state := by
  unfold checkinFailure
  rw [hrun]
  rfl

variable (hrun : site.run = true)
include hrun

theorem checkinFailure_badCode (hv : codeValid code = false) :
    checkinFailure site bay code (wholeReads car b) = some .badCode := by
  unfold checkinFailure
  rw [hrun, hv]
  rfl

variable (hv : codeValid code = true)
include hv

theorem checkinFailure_noSuch (hc : ∀ c, car = some c → c.state ∉ [CarState.onField, .parked]) :
    checkinFailure site bay code (wholeReads car b) = some .noSuch := by
  unfold checkinFailure wholeReads
  dsimp only
  rw [hrun, hv, Read.faulty_of, Read.record?_of]
  cases car with
  | none => rfl
  | some c =>
    have hp : c.present = false := Bool.eq_false_iff.2 fun h => hc c rfl ((Car.present_iff c).1 h)
    simp only [hp]
    rfl

variable (hc : c.state ∈ [CarState.onField, .parked])
include hc

/-- The checks past the car's own. -/
theorem checkinFailure_found : checkinFailure site bay code (wholeReads (some c) b) =
    if c.screen ≠ bayLoop bay then some .wrongField else if b = none then some .closed else none := by
  have hp : c.present = true := (Car.present_iff c).2 hc
  unfold checkinFailure wholeReads
  dsimp only
  rw [hrun, hv, Read.faulty_of, Read.faulty_of, Read.record?_of, Read.record?_of]
  simp only [hp]
  by_cases hs : c.screen = bayLoop bay
  · simp [hs]
  · simp [hs]

end failure

/-- A check-in refused: its bay's lamp, and the report. -/
theorem Yard.checkin_refused (h : y.intact) {why : Result}
    (hf : checkinFailure site bay code (wholeReads (if codeValid code then y.car? (codeCar code) else none) (y.bay? bay)) =
      some why) : y.checkin site bay code wish =
        ((y.placeLamp .ct bay why.lamp).2).raise (.checkinRefused bay code why) := by
  unfold Yard.checkin
  rw [Yard.checkinReads_intact h]
  dsimp only
  rw [show checkinFailure site bay code { car := Read.of _, bay := Read.of _, otherLost := false } = some why from hf]

theorem Yard.checkin_binds (h : y.intact) {c : Car} {b : Bay}
    (hcar : (if codeValid code then y.car? (codeCar code) else none) = some c) (hbay : y.bay? bay = some b)
    (hf : checkinFailure site bay code (wholeReads (some c) (some b)) = none) :
    y.checkin site bay code wish = y.bind site c bay (b.otherOccupant c.number) wish := by
  unfold Yard.checkin
  rw [Yard.checkinReads_intact h, hcar, hbay]
  dsimp only
  rw [show checkinFailure site bay code { car := Read.of (some c), bay := Read.of (some b), otherLost := false } = none
    from hf]
  rfl

end checkin

/-! ## The binding (R126) -/

section bind
variable {y : Yard} {site : Site} {bay : Nat} {wish : Bool} {c : Car} {displaced : Option Nat}

theorem Car.oldBay_eq (c : Car) (bay : Nat) :
    c.oldBay bay = if c.state = .parked ∧ c.bay ≠ some bay then c.bay else none := by
  unfold Car.oldBay Car.parkedBay
  by_cases hs : c.state = .parked
  · cases hb : c.bay with
    | none => simp [hs]
    | some b => by_cases h : b = bay <;> simp [hs, h]
  · simp [hs]

theorem Bay.otherOccupant_eq (b : Bay) (n : Nat) :
    b.otherOccupant n = if b.occupant = some n then none else b.occupant := by
  unfold Bay.otherOccupant
  cases b.occupant with
  | none => rfl
  | some o => by_cases h : o = n <;> simp [h]

/-- A yard whose bay is cleared of another car, and the car that checks in of its old bay. -/
def Yard.vacated (y : Yard) (c : Car) (bay : Nat) (displaced : Option Nat) : Yard :=
  let y := match displaced with
    | some d => y.unbindToField d bay .displaced
    | none => y
  match c.oldBay bay with
  | some b => y.release c.number b
  | none => y

/-- The records as a check-in writes them. -/
def Yard.bound (y : Yard) (site : Site) (c : Car) (bay : Nat) (wish : Bool) : Yard :=
  ((y.modBay bay fun b => { b with occupant := some c.number }).modCar c.number fun c => { c with
    bay := some bay, state := .parked, checkin := some site.minute, wired := wish }).stopLimit c.number

theorem Yard.bind_eq (y : Yard) (site : Site) (c : Car) (bay : Nat) (displaced : Option Nat) (wish : Bool) :
    y.bind site c bay displaced wish =
      let x := (y.vacated c bay displaced).bound site c bay wish
      let z := ((x.bindChange c.number (some bay)).2.setSpeaker bay wish).placeSpeakersOf Yard.drain
        (risingBays bay (c.oldBay bay))
      (z.placeLamp .ct bay (if 0 < (x.bindChange c.number (some bay)).1 then lampReady else lampAccepted)).2.raise
        (.checkin c.number bay (c.oldBay bay) displaced wish) := rfl

/-- What the cars and bays are once a check-in has cleared its way. -/
theorem Yard.worked.vacated (h : y.intact) (c : Car) (bay : Nat) (displaced : Option Nat) :
    y.worked (y.vacated c bay displaced)
      (fun k r => r.map fun r => if some k = c.oldBay bay ∨ displaced.isSome ∧ k = bay then Bay.empty else r)
      fun n r => if some n = displaced then { r with
        bay := none
        state := .onField }
      else if n = c.number ∧ (c.oldBay bay).isSome then { r with bay := none } else r := by
  have hfirst : y.worked (match displaced with
      | some d => y.unbindToField d bay .displaced
      | none => y) (fun k r => r.map fun r => if displaced.isSome ∧ k = bay then Bay.empty else r)
      fun n r => if some n = displaced then { r with bay := none, state := .onField } else r := by
    cases displaced with
    | none =>
      have hsame := (Yard.signals.refl y).worked h
      refine ⟨hsame.work, h, fun k => ?_, fun n => ?_, rfl, hsame.limits⟩
      · cases y.bay? k <;> rfl
      · cases y.findCar n <;> rfl
    | some d =>
      have hun := Yard.worked.unbindToField h d bay .displaced
      refine ⟨hun.work, hun.intact, fun k => (hun.bays k).trans ?_, fun n => (hun.cars n).trans ?_, hun.entries, hun.limits⟩
      · simp [oneBay]
      · simp [oneCar]
  unfold Yard.vacated
  generalize (match displaced with
      | some d => y.unbindToField d bay .displaced
      | none => y) = x at hfirst
  cases ho : c.oldBay bay with
  | none =>
    refine ⟨hfirst.work, hfirst.intact, fun k => (hfirst.bays k).trans ?_, fun n => (hfirst.cars n).trans ?_, hfirst.entries,
      hfirst.limits⟩
    · simp
    · simp
  | some old =>
    have hrel := hfirst.trans (Yard.worked.release hfirst.intact c.number old)
    refine ⟨hrel.work, hrel.intact, fun k => (hrel.bays k).trans ?_, fun n => (hrel.cars n).trans ?_, hrel.entries,
      hrel.limits⟩
    · cases y.bay? k with
      | none => rfl
      | some r => by_cases h1 : k = old <;> by_cases h2 : displaced.isSome = true ∧ k = bay <;> simp [oneBay, h1, h2]
    · cases y.findCar n with
      | none => rfl
      | some e =>
        by_cases h1 : n = c.number
        · subst h1
          by_cases h2 : some c.number = displaced <;> simp [oneCar, h2]
        · simp [oneCar, h1]

/-- The records as a check-in writes them. -/
theorem Yard.worked.bound (h : y.intact) (site : Site) (c : Car) (bay : Nat) (wish : Bool) :
    y.worked (y.bound site c bay wish) (oneBay bay fun b => { b with occupant := some c.number }) (oneCar c.number fun c =>
      { c with bay := some bay, state := .parked, checkin := some site.minute, wired := wish }) := by
  have hbay := Yard.worked.modBay h bay fun b => { b with occupant := some c.number }
  have hcar := Yard.worked.modCar hbay.intact c.number (f := fun c =>
    { c with bay := some bay, state := .parked, checkin := some site.minute, wired := wish }) fun _ => rfl
  exact (hbay.trans hcar).trans (Yard.worked.stopLimit hcar.intact c.number)

theorem ready_of_entries {l l' : List ReadyEntry} (h : l.map ReadyEntry.car = l'.map ReadyEntry.car) (n : Nat) :
    (0 < (l.filter fun e => e.car == n).length) ↔ (l'.any fun e => e.car == n) = true := by
  have hany : (l.any fun e => e.car == n) = l'.any fun e => e.car == n := by
    have := congrArg (List.any · (· == n)) h
    simpa [List.any_map, Function.comp_def] using this
  rw [← hany, List.length_pos_iff, ne_eq, List.filter_eq_nil_iff, List.any_eq_true]
  simp

/-- What is left of a yard once a check-in has been taken. -/
theorem Yard.bind_leaves (h : y.intact) (hl : Tab.wf none y.limits = true) (site : Site) (c : Car) (bay : Nat)
    (displaced : Option Nat) (wish : Bool) : ∃ z fb fc, y.bind site c bay displaced wish = z ∧ y.worked z fb fc ∧
      (∀ k r, fb k r = r.map fun r => if k = bay then
          { (if some bay = c.oldBay bay ∨ displaced.isSome then Bay.empty else r) with
            occupant := some c.number, speaker := wish }
        else if some k = c.oldBay bay then Bay.empty else r) ∧
      (∀ n r, fc n r = if n = c.number then
          { (if some n = displaced then { r with state := .onField } else r) with
            bay := some bay, state := .parked, checkin := some site.minute, wired := wish }
        else if some n = displaced then { r with bay := none, state := .onField } else r) ∧
      Tab.get none z.limits c.number = none ∧
      z.shows .lamps bay (if y.readyList.any fun e => e.car == c.number then lampReady else lampAccepted) ∧
      ∃ reports, z.raised = y.raised ++ reports ++ [.checkin c.number bay (c.oldBay bay) displaced wish] := by
  rw [Yard.bind_eq]
  have hvac := Yard.worked.vacated h c bay displaced
  have hbound := hvac.trans (Yard.worked.bound hvac.intact site c bay wish)
  have hnone : Tab.get none ((y.vacated c bay displaced).bound site c bay wish).limits c.number = none := by
    refine Tab.get_put_self (n := 0) ?_ _ _
    rw [Yard.modCar_limits, Yard.modBay_limits]
    exact hvac.limits hl
  generalize (y.vacated c bay displaced).bound site c bay wish = x at hbound hnone
  obtain ⟨rows, hrows⟩ := x.bindChange_rowed c.number (some bay)
  have hbind := Yard.worked.bindChange hbound.intact c.number (some bay)
  have hspk := Yard.worked.setSpeaker hbind.intact bay wish
  have hsig := Yard.signals.placeSpeakersOf hspk.intact Yard.drain (risingBays bay (c.oldBay bay))
  have hready : (if 0 < (x.bindChange c.number (some bay)).1 then lampReady else lampAccepted) =
      if y.readyList.any fun e => e.car == c.number then lampReady else lampAccepted := by
    rw [hrows]
    exact if_congr (ready_of_entries hbound.entries c.number) rfl rfl
  have hlim : ((x.bindChange c.number (some bay)).2.setSpeaker bay wish).limits = x.limits := by
    rw [Yard.setSpeaker_limits, Yard.bindChange_limits]
  have hall := (((hbound.trans hbind).trans hspk).trans (hsig.worked hspk.intact))
  dsimp only
  rw [hready]
  rw [← hsig.limits] at hlim
  generalize ((x.bindChange c.number (some bay)).2.setSpeaker bay wish).placeSpeakersOf Yard.drain
    (risingBays bay (c.oldBay bay)) = v at hall hlim
  have hlamp := Yard.signals.placeLamp v .ct bay
    (if y.readyList.any fun e => e.car == c.number then lampReady else lampAccepted)
  have hshow := Yard.placeLamp_shows v .ct bay
    (if y.readyList.any fun e => e.car == c.number then lampReady else lampAccepted)
  generalize (v.placeLamp .ct bay (if y.readyList.any fun e => e.car == c.number then lampReady else lampAccepted)).2 = u
    at hlamp hshow
  have hall := hall.trans (hlamp.worked hall.intact)
  have hraise := Yard.signals.raise u (.checkin c.number bay (c.oldBay bay) displaced wish)
  obtain ⟨rs, hrs⟩ := hall.work.raised
  refine ⟨_, _, _, rfl, hall.trans (hraise.worked hall.intact), fun k r => ?_, fun n r => ?_, ?_, hshow, rs, ?_⟩
  · cases r with
    | none => rfl
    | some r =>
      by_cases hk : k = bay
      · subst hk
        by_cases ho : some k = c.oldBay k <;> by_cases hd : displaced.isSome = true <;>
          simp [oneBay, sameBays, ho, hd]
      · by_cases ho : some k = c.oldBay bay <;> simp [oneBay, sameBays, hk, ho]
  · by_cases hn : n = c.number
    · subst hn
      by_cases hd : some c.number = displaced
      · simp [oneCar, sameCars, hd]
      · by_cases ho : (c.oldBay bay).isSome = true <;> simp [oneCar, sameCars, hd, ho]
    · simp [oneCar, sameCars, hn]
  · change Tab.get none u.limits c.number = none
    rw [hlamp.limits, hlim]
    exact hnone
  · change u.raised ++ _ = _
    rw [hrs]

end bind

end Sys2Proof.Machine
end

section
/-! PROOF. A check-in binds a car to the bay it keys at, or is refused (R119, R125, R126). -/

namespace Sys2Proof.Machine

section checkin
variable {y : Yard} {site : Site} {bay code n : Nat} {wish : Bool}

theorem code_of_number {n code : Nat} (h : 1 ≤ n) (hn : n ≤ 9999) (hc : code = 100 * n + (98 - 100 * n % 97)) :
    code / 100 = n ∧ code % 97 = 1 := by omega

theorem Yard.find_of_car? {c : Car} (hc : y.car? n = some c) : ∃ i, y.findCar n = some (i, c) := by
  unfold Yard.car? at hc
  cases hf : y.findCar n with
  | none => rw [hf] at hc; cases hc
  | some e =>
    rw [hf] at hc
    cases hc
    exact ⟨e.1, rfl⟩

theorem Yard.car?_number (h : y.intact) {c : Car} (hc : y.car? n = some c) : c.number = n := by
  obtain ⟨i, hf⟩ := Yard.find_of_car? hc
  exact (Yard.findCar_get h hf).2

/-- A check-in that is refused shows its refusal and changes no record. -/
theorem Yard.checkin_refused_leaves (h : y.intact) {why : Result}
    (hf : checkinFailure site bay code (wholeReads (if codeValid code then y.car? (codeCar code) else none) (y.bay? bay)) =
      some why) {z : Yard} (hz : z = y.checkin site bay code wish) : z.store = y.store ∧ z.limits = y.limits ∧
        z.spkMarks = y.spkMarks ∧ z.shows .lamps bay why.lamp ∧
        ∃ reports, z.raised = y.raised ++ reports ++ [.checkinRefused bay code why] := by
  rw [Yard.checkin_refused h hf] at hz
  subst hz
  have hsig := Yard.signals.placeLamp y .ct bay why.lamp
  obtain ⟨rs, hrs⟩ := hsig.raised
  refine ⟨hsig.store, hsig.limits, ?_, Yard.placeLamp_shows y .ct bay why.lamp, rs, ?_⟩
  · exact Yard.putItem_spkMarks _ _
  · exact congrArg (· ++ _) hrs

end checkin

/-- Settles O48, by the first failing check of a check-in, and where none fails by what the binding does to each bay and
each car. -/
theorem checkinBinds : Obligations.CheckinBinds := by
  unfold Obligations.CheckinBinds
  intro y site bay wish hw hl hu
  have h : y.intact := Yard.intact_of_undamaged hw hu
  refine ⟨fun n h1 h2 code hc => code_of_number h1 h2 hc,
    fun n code c b hn hcode h1 h2 hrun hc hst hsc hb z hz => ?_, fun code n refusedWith hn hrw => ?_⟩
  · have hv : codeValid code = true := (codeValid_iff code).2 ⟨by omega, by omega, hcode⟩
    have hnum := Yard.car?_number h hc
    have hcar : (if codeValid code then y.car? (codeCar code) else none) = some c := by
      rw [if_pos hv, codeCar, ← hn, hc]
    have hfail : checkinFailure site bay code (wholeReads (some c) (some b)) = none := by
      rw [checkinFailure_found hrun hv hst]
      simp [hsc]
    rw [Yard.checkin_binds h hcar hb hfail] at hz
    obtain ⟨z', fb, fc, hz', hwork, hfb, hfc, hlim, hshow, reports, hraised⟩ :=
      Yard.bind_leaves h hl site c bay (b.otherOccupant c.number) wish
    obtain rfl : z = z' := hz.trans hz'
    subst hnum
    rw [Bay.otherOccupant_eq, Car.oldBay_eq] at hraised
    have hold : (some bay = c.oldBay bay) = False := by
      rw [Car.oldBay_eq, eq_iff_iff, iff_false]
      intro hold
      split at hold
      · next hp => exact hp.2 hold.symm
      · cases hold
    refine ⟨⟨reports, hraised⟩, hshow, ?_, ?_, hlim, fun o co ho hne hco => ?_, fun old hp hb' hne hsome => ?_,
      fun k hk hold => ?_⟩
    · rw [hwork.bays, hfb, hb]
      simp
    · rw [hwork.car?, hc, Option.map_some, hfc, if_pos rfl, if_neg]
      rw [Bay.otherOccupant_eq]
      intro hd
      split at hd
      · cases hd
      · next hno => exact hno hd.symm
    · have hd : b.otherOccupant c.number = some o := by
        rw [Bay.otherOccupant_eq, ho, if_neg]
        exact fun he => hne (Option.some.inj he)
      rw [hwork.car?, hco, Option.map_some, hfc, if_neg hne, if_pos hd.symm]
    · have ho : c.oldBay bay = some old := by
        have hother : c.bay ≠ some bay := by
          rw [hb']
          exact fun he => hne (Option.some.inj he)
        rw [Car.oldBay_eq, if_pos ⟨hp, hother⟩, hb']
      obtain ⟨r, hr⟩ := Option.isSome_iff_exists.1 hsome
      rw [hwork.bays, hfb, hr, Option.map_some, if_neg hne, if_pos ho.symm]
      rfl
    · have ho : some k ≠ c.oldBay bay := by
        rw [Car.oldBay_eq]
        intro he
        split at he
        · next hp => exact hold hp.1 he.symm
        · cases he
      rw [hwork.bays, hfb]
      simp [hk, ho]
  · have hto {why : Result} (hf : checkinFailure site bay code
        (wholeReads (if codeValid code then y.car? (codeCar code) else none) (y.bay? bay)) = some why) : refusedWith why :=
      (hrw why).2 fun z hz => Yard.checkin_refused_leaves h hf hz
    refine ⟨fun hrun => hto (checkinFailure_setup hrun), fun hrun hbad => hto (checkinFailure_badCode hrun ?_),
      fun hrun h1 h2 hcode => ?_⟩
    · refine Bool.eq_false_iff.2 fun hv => ?_
      obtain ⟨hv1, hv2, hv3⟩ := (codeValid_iff code).1 hv
      omega
    · have hv : codeValid code = true := (codeValid_iff code).2 ⟨by omega, by omega, hcode⟩
      have hcar : (if codeValid code then y.car? (codeCar code) else none) = y.car? n := by
        rw [if_pos hv, codeCar, ← hn]
      refine ⟨fun hc => hto ?_, fun c hc hst => ⟨fun hsc => hto ?_, fun hsc hb => hto ?_⟩⟩
      · rw [hcar]
        exact checkinFailure_noSuch hrun hv hc
      · rw [hcar, hc, checkinFailure_found hrun hv hst, if_pos hsc]
      · rw [hcar, hc, checkinFailure_found hrun hv hst, if_neg (fun hne => hne hsc), if_pos hb]

end Sys2Proof.Machine
end

section
/-! PROOF. A site plan: the bays it opens and closes, and the cars it unbinds (R121, R122, R127). -/

namespace Sys2Proof.Machine

/-! ## One bay -/

theorem Yard.fieldwork.checkinSetting {y z : Yard} (h : y.fieldwork z) : z.checkinSetting = y.checkinSetting := by
  obtain ⟨_, _, _, _, _, _, _, _, _, rfl⟩ := h
  rfl

/-- A car that is sent back to the field. -/
def Car.afield (c : Car) : Car := { c with bay := none, state := .onField }

section bay
variable {y : Yard} {b : Nat}

theorem Yard.setBaySlot_other {k : Nat} (hk : k ≠ b) (sl : Slot Bay) : (y.setBaySlot b sl).baySlot k = y.baySlot k :=
  Yard.baySlot_set_other y b k sl hk

theorem Yard.baySlot_congr {z : Yard} (h : z.store.bays = y.store.bays) (k : Nat) : z.baySlot k = y.baySlot k := by
  unfold Yard.baySlot
  rw [h]

theorem Yard.modBay_other {k : Nat} (hk : k ≠ b) (f : Bay → Bay) : (y.modBay b f).baySlot k = y.baySlot k := by
  unfold Yard.modBay
  split
  · exact Yard.setBaySlot_other hk _
  · rfl

theorem Yard.signals.baySlot {z : Yard} (h : y.signals z) (k : Nat) : z.baySlot k = y.baySlot k := by
  unfold Yard.baySlot
  rw [h.store]

theorem Yard.modCar_baySlot (y : Yard) (n : Nat) (f : Car → Car) (k : Nat) : (y.modCar n f).baySlot k = y.baySlot k := by
  obtain ⟨t, ht⟩ := y.modCar_cars n f
  rw [ht]
  rfl

theorem Yard.setSpeaker_other {k : Nat} (hk : k ≠ b) (on : Bool) : (y.setSpeaker b on).baySlot k = y.baySlot k := by
  obtain ⟨spk, hs, -⟩ := y.setSpeaker_eq b on
  rw [hs]
  exact Yard.modBay_other hk _

theorem Yard.unbound_other {k : Nat} (hk : k ≠ b) (car : Nat) : (y.unbound car b).baySlot k = y.baySlot k := by
  unfold Yard.unbound
  rw [(Yard.signals.placeLamp _ .ct b lampNone).baySlot, Yard.modCar_baySlot, Yard.setSpeaker_other hk,
    Yard.modBay_other hk]

theorem Yard.release_other {k : Nat} (hk : k ≠ b) (car : Nat) : (y.release car b).baySlot k = y.baySlot k := by
  refine Eq.trans ?_ (Yard.unbound_other hk car)
  rw [Yard.release_eq]
  unfold Yard.baySlot
  rw [Yard.bindChange_store]

/-- A car, already out of its bay, sent back to the field with its check-in limit. -/
theorem Yard.sentBack_eq (y : Yard) (car : Nat) (cause : CarCause) : ∃ t,
    ((y.modCar car fun c => { c with state := .onField }).startLimit car).raise (.carState car .parked .onField cause) =
      { y with
        store := { y.store with cars := t }
        limits := Tab.put none y.limits car (loadMinutes y.checkinSetting)
        raised := y.raised ++ [.carState car .parked .onField cause] } := by
  obtain ⟨t, ht⟩ := y.modCar_cars car fun c => { c with state := .onField }
  exact ⟨t, by rw [ht]; rfl⟩

theorem Yard.unbindToField_eq (y : Yard) (car b : Nat) (cause : CarCause) : ∃ t, y.unbindToField car b cause =
    { y.release car b with
      store := { (y.release car b).store with cars := t }
      limits := Tab.put none (y.release car b).limits car (loadMinutes (y.release car b).checkinSetting)
      raised := (y.release car b).raised ++ [.carState car .parked .onField cause] } :=
  (y.release car b).sentBack_eq car cause

theorem Yard.unbindToField_other {k : Nat} (hk : k ≠ b) (car : Nat) (cause : CarCause) :
    (y.unbindToField car b cause).baySlot k = y.baySlot k := by
  obtain ⟨t, ht⟩ := y.unbindToField_eq car b cause
  have hbays : (y.unbindToField car b cause).store.bays = (y.release car b).store.bays := by rw [ht]
  exact (Yard.baySlot_congr hbays k).trans (Yard.release_other hk car)

theorem Yard.unbindToField_raised (y : Yard) (car b : Nat) (cause : CarCause) : ∃ rs,
    (y.unbindToField car b cause).raised = y.raised ++ (rs ++ [.carState car .parked .onField cause]) := by
  obtain ⟨rs, hrs⟩ := (Yard.fieldwork.release y car b).raised
  obtain ⟨t, ht⟩ := y.unbindToField_eq car b cause
  exact ⟨rs, by rw [ht, ← List.append_assoc, ← hrs]⟩

theorem Yard.unbindToField_limits (y : Yard) (car b : Nat) (cause : CarCause) :
    (y.unbindToField car b cause).limits = Tab.put none y.limits car (loadMinutes y.checkinSetting) := by
  have hset := (Yard.fieldwork.release y car b).checkinSetting
  obtain ⟨t, ht⟩ := y.unbindToField_eq car b cause
  rw [ht, ← hset, ← Yard.release_limits y car b]

section intact
variable (h : y.intact)
include h

theorem Yard.worked.setBaySlot (b : Nat) {sl : Slot Bay} (hsl : sl.good) :
    y.worked (y.setBaySlot b sl) (fun k r => if k = b then sl.record? else r) sameCars where
  work := Yard.fieldwork.setBaySlot y b sl
  intact := h.setBaySlot b hsl
  bays k := Yard.bay?_setBaySlot h b sl k
  cars n := by
    change y.findCar n = _
    cases y.findCar n <;> rfl
  entries := rfl
  limits hw := hw

/-- What is left of a yard whose bay is opened. -/
theorem Yard.openBay_leaves (b : Nat) : ∃ z, y.openBay b = ((y.baySlot b).isOut, z) ∧
    y.worked z (fun k r => if k = b ∧ (y.baySlot b).isOut = false then some (r.getD Bay.empty) else r) sameCars ∧
    (∀ k, k ≠ b → z.baySlot k = y.baySlot k) ∧ z.limits = y.limits ∧ z.raised = y.raised := by
  unfold Yard.openBay
  have hsame := (Yard.signals.refl y).worked h
  cases ho : (y.baySlot b).isOut with
  | true =>
    rw [if_pos rfl]
    refine ⟨y, rfl, ⟨hsame.work, h, fun k => ?_, hsame.cars, rfl, hsame.limits⟩, fun k _ => rfl, rfl, rfl⟩
    simp
  | false =>
    rw [if_neg (by decide)]
    by_cases hf : (y.baySlot b).isFree = true
    · rw [if_pos hf]
      have hset := Yard.worked.setBaySlot h b (Slot.good_write (y.baySlot b) { occupant := none, speaker := false })
      refine ⟨_, rfl, ⟨hset.work, hset.intact, fun k => (hset.bays k).trans ?_, hset.cars, rfl, hset.limits⟩,
        fun k hk => Yard.setBaySlot_other hk _, rfl, rfl⟩
      by_cases hk : k = b
      · subst hk
        have hnone : y.bay? k = none := by
          cases hr : y.bay? k with
          | none => rfl
          | some r =>
            rw [Slot.not_free_of_record hr] at hf
            cases hf
        simp [hnone, Bay.empty]
      · simp [hk]
    · rw [if_neg hf]
      refine ⟨y, rfl, ⟨hsame.work, h, fun k => ?_, hsame.cars, rfl, hsame.limits⟩, fun k _ => rfl, rfl, rfl⟩
      by_cases hk : k = b
      · subst hk
        have hsome : ∃ r, y.bay? k = some r := by
          unfold Yard.bay? Slot.record?
          unfold Slot.isOut at ho
          unfold Slot.isFree at hf
          cases hs : (y.baySlot k).state with
          | free => rw [hs] at hf; exact absurd rfl hf
          | inUse r => exact ⟨r, rfl⟩
          | quarantined => rw [hs] at ho; cases ho
          | underTest _ => rw [hs] at ho; cases ho
        obtain ⟨r, hr⟩ := hsome
        simp [hr]
      · simp [hk]

/-- The occupant of a bay. -/
def Yard.occupant (y : Yard) (b : Nat) : Option Nat := (y.bay? b).bind Bay.occupant

theorem Yard.closeBay_closed (hb : y.bay? b = none) : y.closeBay b = y := by
  unfold Yard.closeBay
  rw [Yard.readBay_intact h, hb]
  rfl

theorem Yard.closeBay_unbound {r : Bay} (hb : y.bay? b = some r) (hc : ∀ n, r.occupant = some n → y.car? n = none) :
    y.closeBay b = y.setBaySlot b (y.baySlot b).release := by
  have hopen : (y.bay? b).isSome = true := by rw [hb]; rfl
  unfold Yard.closeBay
  rw [Yard.readBay_intact h]
  rw [hb] at hopen ⊢
  dsimp only [Read.of]
  cases ho : r.occupant with
  | none =>
    dsimp only
    rw [hb, if_pos hopen]
  | some n =>
    have hread : y.readCar Yard.drain n = (.absent, y) := by
      rw [Yard.readCar_intact h, hc n ho]
      rfl
    simp only [hread, hb, hopen, if_true]

theorem Yard.closeBay_bound {r : Bay} {n : Nat} {c : Car} (hb : y.bay? b = some r) (ho : r.occupant = some n)
    (hc : y.car? n = some c) : y.closeBay b = (y.unbindToField n b .bayClosed).setBaySlot b
      ((y.unbindToField n b .bayClosed).baySlot b).release := by
  have hopen : ((y.unbindToField n b .bayClosed).bay? b).isSome = true := by
    rw [(Yard.worked.unbindToField h n b .bayClosed).bays, hb]
    rfl
  have hread : y.readCar Yard.drain n = (.whole c, y) := by
    rw [Yard.readCar_intact h, hc]
    rfl
  unfold Yard.closeBay
  rw [Yard.readBay_intact h, hb]
  dsimp only [Read.of]
  rw [ho]
  simp only [hread, hopen, if_true]

/-- What is left of a yard whose bay is closed. -/
theorem Yard.closeBay_leaves (hl : Tab.wf none y.limits = true) (b : Nat) : ∃ z rs, y.closeBay b = z ∧
    y.worked z (fun k r => if k = b then none else r) (fun n c => if y.occupant b = some n then c.afield else c) ∧
    (∀ k, k ≠ b → z.baySlot k = y.baySlot k) ∧
    (∀ n, Tab.get none z.limits n =
      if y.occupant b = some n ∧ (y.car? n).isSome then loadMinutes y.checkinSetting else Tab.get none y.limits n) ∧
    z.raised = y.raised ++ rs ∧
    ∀ n, y.occupant b = some n → (y.car? n).isSome = true → .carState n .parked .onField .bayClosed ∈ rs := by
  have hsame := (Yard.signals.refl y).worked h
  have hset := Yard.worked.setBaySlot h b (Slot.good_release (y.baySlot b))
  cases hb : y.bay? b with
  | none =>
    have hocc : y.occupant b = none := by rw [Yard.occupant, hb]; rfl
    refine ⟨y, [], Yard.closeBay_closed h hb, ⟨hsame.work, h, fun k => ?_, fun n => ?_, rfl, hsame.limits⟩,
      fun k _ => rfl, fun n => ?_, (List.append_nil _).symm, fun n hn => ?_⟩
    · by_cases hk : k = b
      · subst hk
        rw [hb, if_pos rfl]
      · rw [if_neg hk]
    · simp [hocc]
    · simp [hocc]
    · rw [hocc] at hn
      cases hn
  | some r =>
    have hocc : y.occupant b = r.occupant := by rw [Yard.occupant, hb]; rfl
    by_cases hc : ∀ n, r.occupant = some n → y.car? n = none
    · refine ⟨_, [], Yard.closeBay_unbound h hb hc, ⟨hset.work, hset.intact, hset.bays, fun n => ?_, rfl, hset.limits⟩,
        fun k hk => Yard.setBaySlot_other hk _, fun n => ?_, (List.append_nil _).symm, fun n hn hcn => ?_⟩
      · rw [hset.cars]
        by_cases hn : r.occupant = some n
        · have hnone : y.findCar n = none := Option.map_eq_none_iff.1 (hc n hn)
          rw [hnone]
          rfl
        · simp [hocc, hn, sameCars]
      · rw [if_neg]
        · rfl
        · rintro ⟨hn, hcn⟩
          rw [hc n (hocc ▸ hn)] at hcn
          cases hcn
      · rw [hc n (hocc ▸ hn)] at hcn
        cases hcn
    · simp only [not_forall] at hc
      obtain ⟨n, ho, hc⟩ := hc
      obtain ⟨c, hc⟩ := Option.ne_none_iff_exists'.1 hc
      have hun := Yard.worked.unbindToField h n b .bayClosed
      have hall := hun.trans (Yard.worked.setBaySlot hun.intact b
        (Slot.good_release ((y.unbindToField n b .bayClosed).baySlot b)))
      obtain ⟨rs, hrs⟩ := y.unbindToField_raised n b .bayClosed
      refine ⟨_, _, Yard.closeBay_bound h hb ho hc, ⟨hall.work, hall.intact, fun k => (hall.bays k).trans ?_,
        fun m => (hall.cars m).trans ?_, hall.entries, hall.limits⟩,
        fun k hk => (Yard.setBaySlot_other hk _).trans (Yard.unbindToField_other hk _ _), fun m => ?_,
        (Yard.setBaySlot_raised _ _ _).trans hrs, fun m hm _ => ?_⟩
      · by_cases hk : k = b
        · simp [hk]
        · cases y.bay? k <;> simp [hk, oneBay]
      · cases y.findCar m with
        | none => rfl
        | some e =>
          by_cases hm : n = m
          · subst hm
            simp [hocc, ho, oneCar, sameCars, Car.afield]
          · simp [hocc, ho, hm, Ne.symm hm, oneCar, sameCars]
      · rw [Yard.setBaySlot_limits, Yard.unbindToField_limits, Tab.get_put hl]
        by_cases hm : n = m
        · subst hm
          simp [hocc, ho, hc]
        · simp [hocc, ho, hm, Ne.symm hm]
      · rw [hocc, ho] at hm
        cases hm
        exact List.mem_append_right _ List.mem_cons_self

end intact

end bay

end Sys2Proof.Machine
end

section
/-! PROOF. The settings of the field (R121, R122, R127, R130). -/

namespace Sys2Proof.Machine

/-! ## The bays of a plan -/

/-- Whether a plan closes a bay that holds the given car. -/
def Yard.turnedOut (y : Yard) (plan : List (Nat × Bool)) (n : Nat) : Bool :=
  plan.any fun e => !e.2 && decide (y.occupant e.1 = some n)

/-- Whether a yard is another after a site plan has set its bays. -/
structure Yard.planned (y z : Yard) (plan : List (Nat × Bool)) : Prop where
  work : y.fieldwork z
  intact : z.intact
  limitsWf : Tab.wf none z.limits = true
  listed : ∀ e ∈ plan, z.bay? e.1 =
    if e.2 && !(y.baySlot e.1).isOut then some ((y.bay? e.1).getD Bay.empty) else none
  others : ∀ k, (∀ e ∈ plan, e.1 ≠ k) → z.baySlot k = y.baySlot k
  cars : ∀ n, z.findCar n = (y.findCar n).map fun e => (e.1, if y.turnedOut plan n then e.2.afield else e.2)
  limits : ∀ n, Tab.get none z.limits n =
    if y.turnedOut plan n && (y.car? n).isSome then loadMinutes y.checkinSetting else Tab.get none y.limits n
  reports : ∀ n, y.turnedOut plan n = true → (y.car? n).isSome = true →
    ∃ rs, z.raised = y.raised ++ rs ∧ .carState n .parked .onField .bayClosed ∈ rs

section plan
variable {y : Yard}

theorem Car.afield_afield (c : Car) : c.afield.afield = c.afield := rfl

theorem Yard.turnedOut_cons (e : Nat × Bool) (plan : List (Nat × Bool)) (n : Nat) :
    y.turnedOut (e :: plan) n = (y.turnedOut [e] n || y.turnedOut plan n) := by
  simp [Yard.turnedOut]

theorem Yard.turnedOut_congr {x : Yard} {plan : List (Nat × Bool)} (h : ∀ e ∈ plan, x.baySlot e.1 = y.baySlot e.1) (n : Nat) :
    x.turnedOut plan n = y.turnedOut plan n := by
  unfold Yard.turnedOut Yard.occupant Yard.bay?
  rw [Bool.eq_iff_iff, List.any_eq_true, List.any_eq_true]
  constructor
  · rintro ⟨e, he, ht⟩
    exact ⟨e, he, by rwa [h e he] at ht⟩
  · rintro ⟨e, he, ht⟩
    exact ⟨e, he, by rwa [h e he]⟩

theorem Yard.planned.trans {x z : Yard} {e : Nat × Bool} {plan : List (Nat × Bool)} (h : y.planned x [e])
    (h' : x.planned z plan) (hne : ∀ e' ∈ plan, e'.1 ≠ e.1) : y.planned z (e :: plan) := by
  have hother {k : Nat} (hk : k ≠ e.1) : x.baySlot k = y.baySlot k :=
    h.others k fun e' he' => by
      obtain rfl := List.mem_singleton.1 he'
      exact Ne.symm hk
  have hslots : ∀ e' ∈ plan, x.baySlot e'.1 = y.baySlot e'.1 := fun e' he' => hother (hne e' he')
  have hturned (n : Nat) : x.turnedOut plan n = y.turnedOut plan n := Yard.turnedOut_congr hslots n
  have hsome (n : Nat) : (x.car? n).isSome = (y.car? n).isSome := by
    unfold Yard.car?
    rw [h.cars]
    cases y.findCar n <;> rfl
  refine ⟨h.work.trans h'.work, h'.intact, h'.limitsWf, fun e' he' => ?_, fun k hk => ?_, fun n => ?_, fun n => ?_,
    fun n hn hc => ?_⟩
  · rcases List.mem_cons.1 he' with rfl | he'
    · have hkeep := h'.others e'.1 fun e'' he'' => hne e'' he''
      unfold Yard.bay? at hkeep ⊢
      rw [hkeep]
      exact h.listed e' List.mem_cons_self
    · rw [h'.listed e' he']
      unfold Yard.bay?
      rw [hslots e' he']
  · rw [h'.others k fun e' he' => hk e' (List.mem_cons_of_mem _ he'), hother (Ne.symm (hk e List.mem_cons_self))]
  · rw [h'.cars, h.cars, hturned, Yard.turnedOut_cons e plan n]
    cases y.findCar n with
    | none => rfl
    | some c => cases y.turnedOut [e] n <;> cases y.turnedOut plan n <;> rfl
  · rw [h'.limits, h.limits, hturned, hsome, h.work.checkinSetting, Yard.turnedOut_cons e plan n]
    cases y.turnedOut [e] n <;> cases y.turnedOut plan n <;> cases (y.car? n).isSome <;> rfl
  · obtain ⟨rs, hrs⟩ := h.work.raised
    obtain ⟨rs', hrs'⟩ := h'.work.raised
    refine ⟨rs ++ rs', by rw [hrs', hrs, List.append_assoc], ?_⟩
    rw [Yard.turnedOut_cons e plan n, Bool.or_eq_true] at hn
    rcases hn with hn | hn
    · obtain ⟨rs1, h1, hm⟩ := h.reports n hn hc
      obtain rfl := List.append_cancel_left (hrs.symm.trans h1)
      exact List.mem_append_left _ hm
    · obtain ⟨rs1, h1, hm⟩ := h'.reports n ((hturned n).trans hn) ((hsome n).trans hc)
      obtain rfl := List.append_cancel_left (hrs'.symm.trans h1)
      exact List.mem_append_right _ hm

theorem Yard.openBay_planned (h : y.intact) (hl : Tab.wf none y.limits = true) (b : Nat) :
    ∃ z, y.openBay b = ((y.baySlot b).isOut, z) ∧ y.planned z [(b, true)] := by
  obtain ⟨z, hz, hwork, hothers, hlimits, hraised⟩ := Yard.openBay_leaves h b
  have hturned (n : Nat) : y.turnedOut [(b, true)] n = false := by simp [Yard.turnedOut]
  refine ⟨z, hz, hwork.work, hwork.intact, hwork.limits hl, fun e he => ?_, fun k hk => ?_, fun n => ?_, fun n => ?_,
    fun n hn => ?_⟩
  · obtain rfl := List.mem_singleton.1 he
    rw [hwork.bays]
    cases ho : (y.baySlot b).isOut with
    | false => simp
    | true =>
      have hnone : y.bay? b = none := by
        unfold Slot.isOut at ho
        unfold Yard.bay? Slot.record?
        cases hs : (y.baySlot b).state with
        | free => rfl
        | inUse r => rw [hs] at ho; cases ho
        | quarantined => rfl
        | underTest _ => rfl
      simp [hnone]
  · exact hothers k fun hkb => hk (b, true) List.mem_cons_self hkb.symm
  · rw [hwork.cars, hturned]
    rfl
  · rw [hlimits, hturned]
    rfl
  · rw [hturned] at hn
    cases hn

theorem Yard.closeBay_planned (h : y.intact) (hl : Tab.wf none y.limits = true) (b : Nat) :
    y.planned (y.closeBay b) [(b, false)] := by
  obtain ⟨z, rs, hz, hwork, hothers, hlimits, hraised, hreports⟩ := Yard.closeBay_leaves h hl b
  have hturned (n : Nat) : y.turnedOut [(b, false)] n = decide (y.occupant b = some n) := by simp [Yard.turnedOut]
  rw [hz]
  refine ⟨hwork.work, hwork.intact, hwork.limits hl, fun e he => ?_, fun k hk => ?_, fun n => ?_, fun n => ?_,
    fun n hn hc => ?_⟩
  · obtain rfl := List.mem_singleton.1 he
    rw [hwork.bays, if_pos rfl]
    rfl
  · exact hothers k fun hkb => hk (b, false) List.mem_cons_self hkb.symm
  · rw [hwork.cars, hturned]
    simp only [decide_eq_true_eq]
  · rw [hlimits, hturned]
    simp only [Bool.and_eq_true, decide_eq_true_eq]
  · rw [hturned, decide_eq_true_eq] at hn
    exact ⟨rs, hraised, hreports n hn hc⟩

/-- Setting the bays of a plan, each of which names its bay once. -/
theorem Yard.setBays_planned (plan : List (Nat × Bool)) (h : y.intact) (hl : Tab.wf none y.limits = true)
    (hnd : (plan.map Prod.fst).Nodup) : ∃ z, y.setBays plan =
      ((plan.filter fun e => e.2 && (y.baySlot e.1).isOut).map Prod.fst, z) ∧ y.planned z plan := by
  induction plan generalizing y with
  | nil =>
    refine ⟨y, rfl, Yard.fieldwork.refl y, h, hl, fun e he => (by cases he), fun k _ => rfl, fun n => ?_, fun n => rfl,
      fun n hn => (by cases hn)⟩
    cases y.findCar n <;> rfl
  | cons e plan ih =>
    obtain ⟨b, o⟩ := e
    rw [List.map_cons, List.nodup_cons] at hnd
    obtain ⟨hb, hnd⟩ := hnd
    have hne : ∀ e ∈ plan, e.1 ≠ b := fun e he heq => hb (List.mem_map.2 ⟨e, he, heq⟩)
    have hleft {x : Yard} (hx : y.planned x [(b, o)]) : (plan.filter fun e => e.2 && (x.baySlot e.1).isOut) =
        plan.filter fun e => e.2 && (y.baySlot e.1).isOut := by
      refine List.filter_congr fun e he => ?_
      rw [hx.others e.1 fun e' he' => ?_]
      obtain rfl := List.mem_singleton.1 he'
      exact Ne.symm (hne e he)
    cases o with
    | true =>
      obtain ⟨x, hx, hopened⟩ := Yard.openBay_planned h hl b
      obtain ⟨z, hz, hplanned⟩ := ih hopened.intact hopened.limitsWf hnd
      refine ⟨z, ?_, hopened.trans hplanned hne⟩
      rw [Yard.setBays, hx]
      dsimp only
      rw [hz, hleft hopened, List.filter_cons]
      cases (y.baySlot b).isOut <;> rfl
    | false =>
      have hclosed := Yard.closeBay_planned h hl b
      obtain ⟨z, hz, hplanned⟩ := ih hclosed.intact hclosed.limitsWf hnd
      refine ⟨z, ?_, hclosed.trans hplanned hne⟩
      rw [Yard.setBays, hz, hleft hclosed, List.filter_cons]
      rfl

end plan

/-! ## The plan of a field -/

/-- The bays of a screen's field, each with what a plan says of it. -/
theorem zip_fieldBays (sc : ScreenId) {plan : List Bool} (h : plan.length = 256) :
    (fieldBays sc).zip plan = (List.range 256).map fun k => (sc.val * 256 + k, plan.getD k false) := by
  refine List.ext_getElem (by simp [fieldBays, h]) fun k h1 h2 => ?_
  have hk : k < 256 := by simpa using h2
  simp [fieldBays, List.getD_eq_getElem?_getD, h, hk]

theorem mem_zip_fieldBays {sc : ScreenId} {plan : List Bool} (h : plan.length = 256) (e : Nat × Bool) :
    e ∈ (fieldBays sc).zip plan ↔ ∃ k, k < 256 ∧ e = (sc.val * 256 + k, plan.getD k false) := by
  rw [zip_fieldBays sc h]
  simp [eq_comm]

theorem zip_fieldBays_nodup (sc : ScreenId) {plan : List Bool} (h : plan.length = 256) :
    (((fieldBays sc).zip plan).map Prod.fst).Nodup := by
  rw [zip_fieldBays sc h, List.map_map]
  refine List.Nodup.map (fun a b hab => ?_) List.nodup_range
  have hab : sc.val * 256 + a = sc.val * 256 + b := hab
  omega

theorem left_fieldBays (sc : ScreenId) {plan : List Bool} (h : plan.length = 256) (out : Nat → Bool) :
    (((fieldBays sc).zip plan).filter fun e => e.2 && out e.1).map Prod.fst =
      (fieldBays sc).filter fun b => plan.getD (b % 256) false && out b := by
  rw [zip_fieldBays sc h, fieldBays, List.filter_map, List.filter_map, List.map_map]
  congr 1
  refine List.filter_congr fun k hk => ?_
  have hk : k < 256 := List.mem_range.1 hk
  have hmod : (sc.val * 256 + k) % 256 = k := by omega
  simp only [Function.comp_apply, hmod]

theorem Yard.checkCapacity_eq (y : Yard) (sc : ScreenId) : y.checkCapacity sc = { y with
    capacity := y.capacity.set sc (min y.capacity[sc] (max (y.openBays sc) y.admittedCount[sc]))
    raised := y.raised ++ (if min y.capacity[sc] (max (y.openBays sc) y.admittedCount[sc]) < y.capacity[sc] then
      [.capacityChanged sc y.capacity[sc] (min y.capacity[sc] (max (y.openBays sc) y.admittedCount[sc]))] else []) } := by
  unfold Yard.checkCapacity
  dsimp only
  by_cases hlt : max (y.openBays sc) y.admittedCount[sc] < y.capacity[sc]
  · rw [if_pos hlt, Nat.min_eq_right (by omega), if_pos hlt]
    rfl
  · rw [if_neg hlt, Nat.min_eq_left (by omega), if_neg (Nat.lt_irrefl _), List.append_nil]
    simp

theorem planOf_plan (plan : List Bool) : planOf (plan.map fun b => if b then 0 else 1) = some plan := by
  induction plan with
  | nil => rfl
  | cons b plan ih =>
    rw [List.map_cons, planOf, ih]
    cases b <;> rfl

/-- What is left of a yard that takes a site plan. -/
theorem Yard.sitePlan_leaves {y : Yard} (h : y.intact) (hl : Tab.wf none y.limits = true) (sc : ScreenId) {plan : List Bool}
    (hp : plan.length = 256) : ∃ x z, y.planned x ((fieldBays sc).zip plan) ∧ (x.checkCapacity sc).signals z ∧
      y.sitePlan sc plan = ((fieldBays sc).filter fun b => plan.getD (b % 256) false && (y.baySlot b).isOut, z) := by
  obtain ⟨x, hx, hplanned⟩ := Yard.setBays_planned ((fieldBays sc).zip plan) h hl (zip_fieldBays_nodup sc hp)
  have hcap : (x.checkCapacity sc).intact := hplanned.intact.congr (by rw [Yard.checkCapacity_eq])
  refine ⟨x, _, hplanned, Yard.signals.placeSpeakersOf hcap Yard.drain (fieldBays sc), ?_⟩
  unfold Yard.sitePlan
  rw [hx, left_fieldBays sc hp fun b => (y.baySlot b).isOut]

section settings
variable {s : State} {tag : Nat} {sc : ScreenId}

theorem exec_capacitySet (hs : s.ready) (c n : Nat)
    (hn : n = max (min (min c 256) (s.yard.openBays sc)) s.yard.admittedCount[sc]) : exec (.capacitySet tag sc.val c) s =
      .next (({ s with yard := { s.yard with capacity := s.yard.capacity.set sc n } } : State).answered 0x1D tag
        (if 256 < c ∨ s.yard.openBays sc < min c 256 ∨ min (min c 256) (s.yard.openBays sc) < s.yard.admittedCount[sc] then
           { result := .clamped, indication := .none, fields := [.raw (u16 n)] }
         else Reply.ok) []) := by
  subst hn
  refine request_answers_quietly _ _ _ s _ _ hs.2 ?_ hs.1
  rw [withFin_val]
  refine Prod.ext ?_ rfl
  have hset (used : List Byte) : Reply.setting (s.yard.capacityFitted sc c) used =
      if 256 < c ∨ s.yard.openBays sc < min c 256 ∨ min (min c 256) (s.yard.openBays sc) < s.yard.admittedCount[sc] then
        { result := .clamped, indication := .none, fields := [.raw used] } else Reply.ok := by
    unfold Reply.setting Yard.capacityFitted
    simp only [Bool.or_eq_true, decide_eq_true_eq, or_assoc]
  exact hset _

theorem exec_ctSet (hs : s.ready) (c n : Nat) (hn : n = (if c = 0 then 0 else max 5 (min c 120))) :
    exec (.ctSet tag c) s = .next (({ s with yard := { s.yard with checkinSetting := n } } : State).answered 0x1E tag
      (if n = c then Reply.ok else { result := .clamped, indication := .none, fields := [.raw (u8 n)] }) []) := by
  subst hn
  refine request_answers_quietly _ _ _ s _ _ hs.2 ?_ hs.1
  exact Prod.ext (Reply.setting_iff (by rfl) _) rfl

theorem exec_sitePlan (hs : s.ready) {plan : List Bool} (hp : plan.length = 256) {left : List Nat} {y : Yard}
    (hy : s.yard.sitePlan sc plan = (left, y)) :
    exec (.sitePlan tag sc.val (plan.map fun b => if b then 0 else 1)) s =
      .next (({ s with yard := { y with raised := [] } } : State).answered 0x1C tag
        { result := .ok, indication := .none, fields :=
          [.raw (u16 (y.openBays sc) ++ u16 y.capacity[sc]), .list 2 (left.map fun b => u16 b)] } y.raised) := by
  refine request_yard hs ?_
  rw [withFin_val, planOf_plan]
  dsimp only
  rw [if_pos hp, sitePlanBody, hy]

end settings

/-- Settles O46: a site plan by what it does to one bay and what it keeps of the others, and the two other settings. -/
theorem fieldSettings : Obligations.FieldSettings := by
  unfold Obligations.FieldSettings
  intro s tag sc hs
  refine ⟨fun plan hp hw hu => ?_, fun c n hn => exec_capacitySet hs c n hn, fun c n hn => exec_ctSet hs c n hn⟩
  obtain ⟨-, hstore, hlimits, -⟩ := ((State.canonical_iff s).1 hw).2
  have h : s.yard.intact := Yard.intact_of_undamaged hstore hu
  obtain ⟨x, z, hx, hsig, hz⟩ := Yard.sitePlan_leaves h hlimits sc hp
  obtain ⟨pre, hpre⟩ := hx.work.raised
  have hset : s.yard.raised = [] := hs.1
  rw [hset, List.nil_append] at hpre
  obtain ⟨hcapacity, hadmitted⟩ : x.capacity = s.yard.capacity ∧ x.admittedCount = s.yard.admittedCount := by
    obtain ⟨_, _, _, _, _, _, _, _, _, hx'⟩ := hx.work
    rw [hx']
    exact ⟨rfl, rfl⟩
  have hslot (k : Nat) : z.baySlot k = x.baySlot k := by
    rw [hsig.baySlot, Yard.checkCapacity_eq]
    rfl
  have hopen : z.openBays sc = x.openBays sc := by
    unfold Yard.openBays
    rw [hsig.store, Yard.checkCapacity_eq]
  have hcar (n : Nat) : z.car? n = x.car? n := by
    rw [hsig.car?, Yard.checkCapacity_eq]
    rfl
  have hlim : z.limits = x.limits := by
    rw [hsig.limits, Yard.checkCapacity_eq]
  have hfields : z.capacity = s.yard.capacity.set sc
      (min s.yard.capacity[sc] (max (z.openBays sc) s.yard.admittedCount[sc])) ∧
      z.admittedCount = s.yard.admittedCount ∧ ∃ post, z.raised = pre ++ ((if z.capacity[sc] < s.yard.capacity[sc] then
        [.capacityChanged sc s.yard.capacity[sc] z.capacity[sc]] else []) ++ post) := by
    rw [Yard.checkCapacity_eq, ← hopen, hcapacity, hadmitted, hpre] at hsig
    obtain ⟨_, post, _, _, hz'⟩ := hsig
    have hzcap := congrArg Yard.capacity hz'
    have hzadm := congrArg Yard.admittedCount hz'
    have hzraised := congrArg Yard.raised hz'
    dsimp only at hzcap hzadm hzraised
    refine ⟨hzcap, hzadm, post, ?_⟩
    have hat : z.capacity[sc] = min s.yard.capacity[sc] (max (z.openBays sc) s.yard.admittedCount[sc]) := by
      rw [hzcap]
      exact Vector.getElem_set_self _
    rw [hat, hzraised, List.append_assoc]
  obtain ⟨hzcap, hzadm, post, hzraised⟩ := hfields
  have hexec := exec_sitePlan (tag := tag) hs hp hz
  refine ⟨_, hexec, fun k b hk hb => ?_, fun b hb => ?_, hzcap, hzadm, rfl, rfl, pre, post, ?_, ?_⟩
  · have hlisted := hx.listed (b, plan.getD k false) ((mem_zip_fieldBays hp _).2 ⟨k, hk, Prod.ext hb rfl⟩)
    refine Eq.trans ?_ hlisted
    change z.bay? b = x.bay? b
    unfold Yard.bay?
    rw [hslot]
  · refine (hslot b).trans (hx.others b fun e he heb => ?_)
    obtain ⟨k, hk, rfl⟩ := (mem_zip_fieldBays hp e).1 he
    dsimp only at heb
    omega
  · rw [List.append_assoc]
    exact congrArg (Link.after _) hzraised
  · intro k b br n car hk hb hclosed hbr hocc hcar'
    have hturned : s.yard.turnedOut ((fieldBays sc).zip plan) n = true := by
      refine List.any_eq_true.2 ⟨(b, plan.getD k false), (mem_zip_fieldBays hp _).2 ⟨k, hk, Prod.ext hb rfl⟩, ?_⟩
      have hocc' : s.yard.occupant b = some n := by rw [Yard.occupant, hbr]; exact hocc
      dsimp only
      rw [hclosed, hocc', decide_eq_true rfl]
      rfl
    have hsome : (s.yard.car? n).isSome = true := by rw [hcar']; rfl
    refine ⟨(hcar n).trans ?_, ?_, ?_⟩
    · rw [Yard.car?_of_find (f := fun c => if s.yard.turnedOut ((fieldBays sc).zip plan) n then c.afield else c)
        (hx.cars n) fun _ => rfl, hcar', Option.map_some, if_pos hturned]
      rfl
    · change Tab.get none z.limits n = _
      rw [hlim, hx.limits, hturned, hsome]
      rfl
    · obtain ⟨rs, hrs, hm⟩ := hx.reports n hturned hsome
      rw [hset, List.nil_append, hpre] at hrs
      rw [hrs]
      exact hm

end Sys2Proof.Machine
end

section
/-! PROOF. A night that has ended stays so: what the bays, the menu and the lamps still do at its end brings back no car
and no order (R116, R136, R159, R176, R189). -/

namespace Sys2Proof.Machine

/-- Whether no car, no used ticket and no check-in limit is left, and with the flag no order, nor any list that names
one. -/
def Yard.nightOver (orders : Bool) (y : Yard) : Prop :=
  (inUse y.store.cars = [] ∧ inUse y.store.tickets = [] ∧ y.limits = [] ∧ y.admittedCount = Vector.replicate 4 0 ∧
    y.lastCar = 0) ∧
  (orders = true → inUse y.store.orders = [] ∧ y.held = Vector.replicate 4 [] ∧ y.queues = Vector.replicate 6 [] ∧
    y.readyList = [] ∧ y.rowCounts = [] ∧ y.runners = Vector.replicate 32 Runner.reset ∧ y.lastOrder = 0)

section night
variable {o : Bool} {y z : Yard}

/-- What a night's end has left is told by these parts of the yard alone. -/
theorem Yard.nightOver.congr (h : y.nightOver o) (hg : z.store.cars = y.store.cars ∧ z.store.tickets = y.store.tickets ∧
      z.limits = y.limits ∧ z.admittedCount = y.admittedCount ∧ z.lastCar = y.lastCar)
    (hk : o = true → z.store.orders = y.store.orders ∧ z.held = y.held ∧ z.queues = y.queues ∧
      z.readyList = y.readyList ∧ z.rowCounts = y.rowCounts ∧ z.runners = y.runners ∧ z.lastOrder = y.lastOrder) :
    z.nightOver o := by
  obtain ⟨h1, h2, h3, h4, h5⟩ := hg
  refine ⟨?_, fun ho => ?_⟩
  · rw [h1, h2, h3, h4, h5]
    exact h.1
  · obtain ⟨k1, k2, k3, k4, k5, k6, k7⟩ := hk ho
    rw [k1, k2, k3, k4, k5, k6, k7]
    exact h.2 ho

section ops
variable (h : y.nightOver o)
include h

theorem Yard.nightOver.findCar (n : Nat) : y.findCar n = none := by
  unfold Yard.findCar
  rw [h.1.1]
  rfl

theorem Yard.nightOver.signals (hs : y.signals z) : z.nightOver o := by
  obtain ⟨_, _, _, _, rfl⟩ := hs
  exact h.congr ⟨rfl, rfl, rfl, rfl, rfl⟩ fun _ => ⟨rfl, rfl, rfl, rfl, rfl, rfl, rfl⟩

theorem Yard.nightOver.setBaySlot (b : Nat) (sl : Slot Bay) : (y.setBaySlot b sl).nightOver o :=
  h.congr ⟨rfl, rfl, rfl, rfl, rfl⟩ fun _ => ⟨rfl, rfl, rfl, rfl, rfl, rfl, rfl⟩

theorem Yard.nightOver.setMenuSlot (b : Nat) (sl : Slot MenuItem) : (y.setMenuSlot b sl).nightOver o :=
  h.congr ⟨rfl, rfl, rfl, rfl, rfl⟩ fun _ => ⟨rfl, rfl, rfl, rfl, rfl, rfl, rfl⟩

theorem Yard.nightOver.parityFault (t : TableId) (i : Nat) (k : Key) (hv : Halves) : (y.parityFault t i k hv).nightOver o :=
  h.congr ⟨rfl, rfl, rfl, rfl, rfl⟩ fun _ => ⟨rfl, rfl, rfl, rfl, rfl, rfl, rfl⟩

theorem Yard.nightOver.modBay (b : Nat) (f : Bay → Bay) : (y.modBay b f).nightOver o := by
  unfold Yard.modBay
  split
  · exact h.setBaySlot _ _
  · exact h

theorem Yard.nightOver.modItem (i : Nat) (f : MenuItem → MenuItem) : (y.modItem i f).nightOver o := by
  unfold Yard.modItem
  split
  · exact h.setMenuSlot _ _
  · exact h

theorem Yard.nightOver.setSpeaker (b : Nat) (on : Bool) : (y.setSpeaker b on).nightOver o := by
  obtain ⟨spk, hs, -⟩ := y.setSpeaker_eq b on
  rw [hs]
  exact (h.modBay b _).signals ⟨_, [], spk, _, by rw [List.append_nil]⟩

/-- A bind change is of no entry where the ready list is empty. -/
theorem Yard.nightOver.bindChange (car : Nat) (bay : Option Nat) : (y.bindChange car bay).2.nightOver o := by
  obtain ⟨rows, hb⟩ := y.bindChange_rowed car bay
  refine h.congr (by rw [hb]; exact ⟨rfl, rfl, rfl, rfl, rfl⟩) fun ho => ?_
  obtain ⟨-, -, -, hready, -⟩ := h.2 ho
  have hsame : (y.bindChange car bay).2 = y := by
    unfold Yard.bindChange
    simp only [hready, List.filter_nil, List.foldl_nil, List.map_nil]
    rw [← hready]
  rw [hsame]
  exact ⟨rfl, rfl, rfl, rfl, rfl, rfl, rfl⟩

theorem Yard.nightOver.emptyLostBay (car b : Nat) : (y.emptyLostBay car b).nightOver o :=
  (((h.modBay b _).setSpeaker b false).signals (Yard.signals.placeLamp _ .ct b lampNone)).bindChange car none

/-! ## With reads, and what a lost record brings -/

section settle
variable {settle : Yard → Yard} (hset : ∀ y : Yard, y.nightOver o → (settle y).nightOver o)
include hset

theorem Yard.nightOver.readBay (b : Nat) : (y.readBay settle b).2.nightOver o := by
  unfold Yard.readBay
  split
  · exact h
  · exact h
  · exact hset _ ((h.setBaySlot _ _).parityFault _ _ _ _)

theorem Yard.nightOver.readItem (i : Nat) : (y.readItem settle i).2.nightOver o := by
  unfold Yard.readItem
  split
  · exact h
  · exact h
  · exact hset _ ((h.setMenuSlot _ _).parityFault _ _ _ _)

theorem Yard.nightOver.readMarked (marked : Yard → Nat → Bool) (b : Nat) : (y.readMarked marked settle b).2.nightOver o := by
  unfold Yard.readMarked
  split
  · exact h.readBay hset b
  · exact h

theorem Yard.nightOver.placeSpeakersAt (lp : ScreenId) (p : Nat) : (y.placeSpeakersAt settle lp p).nightOver o := by
  have hread := (h.readMarked hset Yard.spkMarked (postBay lp p 0)).readMarked hset Yard.spkMarked (postBay lp p 1)
  unfold Yard.placeSpeakersAt
  dsimp only
  split
  · have hmark (z : Yard) (hz : z.nightOver o) (b : Nat) (c : Bool) : (if c then z.setSpkMark b false else z).nightOver o := by
      split
      · exact hz.signals (Yard.signals.setSpkMark _ _ _)
      · exact hz
    exact hmark _ (hmark _ (hread.signals (Yard.signals.putItem _ lp _)) _ _) _ _
  · exact hread

theorem Yard.nightOver.placeLampsAt (lp : ScreenId) (p : Nat) : (y.placeLampsAt settle lp p).nightOver o := by
  have hread := (h.readMarked hset Yard.lampMarked (postBay lp p 0)).readMarked hset Yard.lampMarked (postBay lp p 1)
  unfold Yard.placeLampsAt
  dsimp only
  split
  · have hmark (z : Yard) (hz : z.nightOver o) (b : Nat) (c : Bool) : (if c then z.setLampMark b false else z).nightOver o := by
      split
      · exact hz.signals (Yard.signals.setLampMark _ _ _)
      · exact hz
    exact hmark _ (hmark _ (hread.signals (Yard.signals.putItem _ lp _)) _ _) _ _
  · exact hread

theorem Yard.nightOver.placeSpeakersOf (bays : List Nat) : (y.placeSpeakersOf settle bays).nightOver o :=
  List.foldlRecOn (motive := fun z : Yard => z.nightOver o) _ _ h fun _ hz _ _ => hz.placeSpeakersAt hset _ _

end settle

theorem Yard.nightOver.emptyBaysOf (car : Nat) (bays : List Nat) : (Yard.emptyBaysOf car bays y).2.nightOver o := by
  induction bays generalizing y with
  | nil => exact h
  | cons b bays ih =>
    have hread := h.readBay (settle := id) (fun _ h => h) b
    unfold Yard.emptyBaysOf
    split
    · next hr =>
      rw [hr] at hread
      split
      · exact ih (hread.emptyLostBay car b)
      · exact ih hread
    · next hr =>
      rw [hr] at hread
      exact ih hread

theorem Yard.nightOver.stopLimit (car : Nat) : (y.stopLimit car).nightOver o := by
  have hlim : y.limits = [] := h.1.2.2.1
  exact h.congr ⟨rfl, rfl, by unfold Yard.stopLimit; rw [hlim]; rfl, rfl, rfl⟩
    fun _ => ⟨rfl, rfl, rfl, rfl, rfl, rfl, rfl⟩

theorem Yard.nightOver.carLost (car : Nat) : (y.carLost car).nightOver o := by
  have hempty := h.emptyBaysOf car ((inUse y.store.bays).map Prod.fst)
  unfold Yard.carLost
  exact ((hempty.stopLimit car).signals (Yard.signals.raise _ _)).placeSpeakersOf (fun _ h => h) _

theorem Yard.nightOver.checkCapacity (sc : ScreenId) : (y.checkCapacity sc).nightOver o := by
  rw [Yard.checkCapacity_eq]
  exact h.congr ⟨rfl, rfl, rfl, rfl, rfl⟩ fun _ => ⟨rfl, rfl, rfl, rfl, rfl, rfl, rfl⟩

theorem Yard.nightOver.bayLost (b : Nat) : (y.bayLost b).nightOver o := by
  have hnone : y.carSlotsInUse = [] := by
    unfold Yard.carSlotsInUse
    rw [h.1.1]
    rfl
  unfold Yard.bayLost
  rw [hnone]
  exact ((h.signals (Yard.signals.setSpkMark y b true)).placeSpeakersOf (fun _ h => h) [b]).checkCapacity _

theorem Yard.nightOver.unhold (order : Nat) : (y.unhold order).nightOver o := by
  refine h.congr ⟨rfl, rfl, rfl, rfl, rfl⟩ fun ho => ⟨rfl, ?_, rfl, rfl, rfl, rfl, rfl⟩
  obtain ⟨-, hheld, -⟩ := h.2 ho
  unfold Yard.unhold
  simp [hheld]

theorem Yard.nightOver.dequeueOrder (order : Nat) : (y.dequeueOrder order).nightOver o := by
  refine h.congr ⟨rfl, rfl, rfl, rfl, rfl⟩ fun ho => ⟨rfl, rfl, ?_, rfl, rfl, rfl, rfl⟩
  obtain ⟨-, -, hqueues, -⟩ := h.2 ho
  unfold Yard.dequeueOrder
  simp [hqueues]

/-- An order that leaves the ready list, with its rows counted afresh. -/
theorem Yard.nightOver.leaveReady (order : Nat) :
    (if (y.readyEntry? order).isSome then (y.leaveReady order).recount else y).nightOver o := by
  split
  · next he =>
    have hgate : (y.leaveReady order).recount.store = y.store ∧ (y.leaveReady order).recount.limits = y.limits ∧
        (y.leaveReady order).recount.admittedCount = y.admittedCount ∧
        (y.leaveReady order).recount.lastCar = y.lastCar := by
      unfold Yard.leaveReady
      split
      · next e _ => cases hrow : e.row <;> exact ⟨rfl, rfl, rfl, rfl⟩
      · exact ⟨rfl, rfl, rfl, rfl⟩
    obtain ⟨h1, h2, h3, h4⟩ := hgate
    refine h.congr ⟨by rw [h1], by rw [h1], h2, h3, h4⟩ fun ho => ?_
    obtain ⟨-, -, -, hready, -⟩ := h.2 ho
    unfold Yard.readyEntry? at he
    rw [hready] at he
    cases he
  · exact h

theorem Yard.nightOver.takeLost (order : Nat) : (y.takeLost order).nightOver o := by
  unfold Yard.takeLost
  split
  · next r hr =>
    refine h.congr ⟨rfl, rfl, rfl, rfl, rfl⟩ fun ho => ?_
    obtain ⟨-, -, -, -, -, hrunners, -⟩ := h.2 ho
    have hheld := List.find?_some hr
    rw [hrunners] at hheld
    simp [Runner.reset] at hheld
  · exact h

theorem Yard.nightOver.orderLost (order car : Nat) : (y.orderLost order car).nightOver o := by
  have hlost := (((h.unhold order).dequeueOrder order).leaveReady order).takeLost order
  unfold Yard.orderLost
  dsimp only
  rw [Yard.readCar_absent id (hlost.findCar car)]
  exact hlost

theorem Yard.nightOver.handleLost (t : TableId) (k : Key) : (y.handleLost t k).nightOver o := by
  cases t with
  | car => exact h.carLost _
  | bay => exact h.bayLost _
  | order => exact h.orderLost _ _
  | menu => exact h
  | ticket => exact h

theorem Yard.nightOver.drainWithin (n : Nat) : (Yard.drainWithin n y).nightOver o := by
  induction n generalizing y with
  | zero => exact h
  | succ n ih =>
    unfold Yard.drainWithin
    split
    · exact h
    · next t _ k rest _ =>
      have hrest : ({ y with store := { y.store with waiting := rest } } : Yard).nightOver o :=
        h.congr ⟨rfl, rfl, rfl, rfl, rfl⟩ fun _ => ⟨rfl, rfl, rfl, rfl, rfl, rfl, rfl⟩
      exact ih (hrest.handleLost t k)

theorem Yard.nightOver.drain : y.drain.nightOver o := h.drainWithin 6464

/-! ## The night's end -/

theorem Yard.nightOver.closeNightBay (b : Nat) : (y.closeNightBay b).nightOver o := by
  have hread := h.readBay (settle := Yard.drain) (fun _ h => h.drain) b
  unfold Yard.closeNightBay
  split
  · next hr =>
    rw [hr] at hread
    exact (hread.modBay b _).setSpeaker b false
  · next hr =>
    rw [hr] at hread
    exact hread

theorem Yard.nightOver.closeNightItem (i : Nat) : (y.closeNightItem i).nightOver o := by
  have hread := h.readItem (settle := Yard.drain) (fun _ h => h.drain) i
  unfold Yard.closeNightItem Yard.moveTally
  split
  · next hr =>
    rw [hr] at hread
    exact hread.modItem i _
  · next hr =>
    rw [hr] at hread
    exact hread

theorem Yard.nightOver.placeAllSpeakers (lp : ScreenId) : (y.placeAllSpeakers Yard.drain lp).nightOver o :=
  List.foldlRecOn (motive := fun z : Yard => z.nightOver o) _ _ h
    fun _ hz _ _ => hz.placeSpeakersAt (fun _ h => h.drain) _ _

theorem Yard.nightOver.placeAllLamps (lp : ScreenId) : (y.placeAllLamps Yard.drain lp).nightOver o :=
  List.foldlRecOn (motive := fun z : Yard => z.nightOver o) _ _ h
    fun _ hz _ _ => hz.placeLampsAt (fun _ h => h.drain) _ _

end ops

/-- A yard whose cars and used tickets are gone. -/
def Yard.carsCleared (y : Yard) : Yard := { y with
  store := { y.store with
    tickets := Tab.mapEntries Slot.blank (fun _ => Slot.emptied) y.store.tickets
    cars := Tab.mapEntries Slot.blank (fun _ => Slot.emptied) y.store.cars }
  limits := []
  admittedCount := Vector.replicate 4 0
  lastCar := 0 }

/-- A yard whose orders are gone, with every resting lamp to be placed. -/
def Yard.ordersCleared (y : Yard) : Yard := { y with
  store := { y.store with orders := Tab.mapEntries Slot.blank (fun _ => Slot.emptied) y.store.orders }
  held := Vector.replicate 4 []
  queues := Vector.replicate 6 []
  readyList := []
  rowCounts := []
  runners := Vector.replicate 32 Runner.reset
  lastOrder := 0
  lampMarks := (List.range 1024).map fun b => (b, true) }

theorem Yard.closeNightCars_eq (y : Yard) : y.closeNightCars = (List.finRange 4).foldl
    (fun y lp => y.placeAllSpeakers Yard.drain lp)
    (((inUse y.store.bays).map Prod.fst).foldl Yard.closeNightBay y.carsCleared) := rfl

theorem Yard.closeNightOrders_eq (y : Yard) : y.closeNightOrders = (List.finRange 4).foldl
    (fun y lp => y.placeAllLamps Yard.drain lp)
    (((inUse y.store.menu).map Prod.fst).foldl Yard.closeNightItem y.ordersCleared) := rfl

theorem Yard.closeNightCars_over (y : Yard) : y.closeNightCars.nightOver false := by
  have hstart : y.carsCleared.nightOver false :=
    ⟨⟨inUse_mapEntries Slot.record_emptied _, inUse_mapEntries Slot.record_emptied _, rfl, rfl, rfl⟩,
      fun ho => by cases ho⟩
  rw [Yard.closeNightCars_eq]
  exact List.foldlRecOn (motive := fun z : Yard => z.nightOver false) _ _
    (List.foldlRecOn (motive := fun z : Yard => z.nightOver false) _ _ hstart fun _ hz b _ => hz.closeNightBay b)
    fun _ hz lp _ => hz.placeAllSpeakers lp

theorem Yard.nightOver.ordersCleared (h : y.nightOver false) : y.ordersCleared.nightOver true :=
  ⟨h.1, fun _ => ⟨inUse_mapEntries Slot.record_emptied _, rfl, rfl, rfl, rfl, rfl, rfl⟩⟩

/-- Whatever is damaged, the night's end leaves no car and no order. -/
theorem Yard.closeNight_over (y : Yard) : y.closeNightCars.closeNightOrders.nightOver true := by
  have hstart := y.closeNightCars_over.ordersCleared
  rw [Yard.closeNightOrders_eq]
  exact List.foldlRecOn (motive := fun z : Yard => z.nightOver true) _ _
    (List.foldlRecOn (motive := fun z : Yard => z.nightOver true) _ _ hstart fun _ hz i _ => hz.closeNightItem i)
    fun _ hz lp _ => hz.placeAllLamps lp

end night

end Sys2Proof.Machine
end

section
/-! PROOF. The night opens and closes (R208, R209). -/

namespace Sys2Proof.Machine

/-! ## The night's end where nothing is damaged -/

section undamaged
variable {y : Yard}

theorem recordsSound_emptied {ρ : Type} [DecidableEq ρ] (t : Tab (Slot ρ)) :
    recordsSound (Tab.mapEntries Slot.blank (fun _ => Slot.emptied) t) = true :=
  recordsSound_iff.2 fun e he => by
    obtain ⟨a, -, rfl⟩ := Tab.mem_mapEntries he
    exact .inl (Slot.record_emptied a.2)

theorem Yard.intact.carsCleared (h : y.intact) : y.carsCleared.intact := by
  obtain ⟨hc, hb, ho, hm, ht⟩ := (Store.canonical_iff _).1 h.1
  obtain ⟨-, sb, so, sm, -⟩ := (Store.sound_iff _).1 h.2
  exact ⟨(Store.canonical_iff _).2 ⟨Tab.wf_mapEntries (fun _ => Slot.emptied) hc, hb, ho, hm, Tab.wf_mapEntries (fun _ => Slot.emptied) ht⟩,
    (Store.sound_iff _).2 ⟨recordsSound_emptied _, sb, so, sm, recordsSound_emptied _⟩⟩

theorem Yard.intact.ordersCleared (h : y.intact) : y.ordersCleared.intact := by
  obtain ⟨hc, hb, ho, hm, ht⟩ := (Store.canonical_iff _).1 h.1
  obtain ⟨sc, sb, -, sm, st⟩ := (Store.sound_iff _).1 h.2
  exact ⟨(Store.canonical_iff _).2 ⟨hc, hb, Tab.wf_mapEntries (fun _ => Slot.emptied) ho, hm, ht⟩,
    (Store.sound_iff _).2 ⟨sc, sb, recordsSound_emptied _, sm, st⟩⟩

theorem Yard.closeNightBay_eq (h : y.intact) (b : Nat) :
    y.closeNightBay b = (y.modBay b fun b => { b with occupant := none }).setSpeaker b false := by
  unfold Yard.closeNightBay
  rw [Yard.readBay_intact h]
  cases hb : y.bay? b with
  | some r => rfl
  | none =>
    have hmod : (y.modBay b fun b => { b with occupant := none }) = y := by
      unfold Yard.modBay
      rw [hb]
    rw [hmod, Yard.setSpeaker, hb]
    rfl

/-- The bays of a list, closed for the night. -/
theorem Yard.foldl_closeNightBay (h : y.intact) (list : List Nat) :
    y.fieldwork (list.foldl Yard.closeNightBay y) ∧ (list.foldl Yard.closeNightBay y).intact ∧
      ∀ k, (list.foldl Yard.closeNightBay y).bay? k = (y.bay? k).map fun r => if k ∈ list then Bay.empty else r := by
  induction list generalizing y with
  | nil => exact ⟨Yard.fieldwork.refl y, h, fun k => by simp⟩
  | cons b list ih =>
    have hmod := Yard.worked.modBay h b fun b => { b with occupant := none }
    have hstep := hmod.trans (Yard.worked.setSpeaker hmod.intact b false)
    rw [List.foldl_cons, Yard.closeNightBay_eq h]
    obtain ⟨hwork, hint, hbays⟩ := ih hstep.intact
    refine ⟨hstep.work.trans hwork, hint, fun k => ?_⟩
    rw [hbays, hstep.bays]
    cases y.bay? k with
    | none => rfl
    | some r =>
      by_cases hk : k = b
      · subst hk
        by_cases hm : k ∈ list <;> simp [oneBay, hm, Bay.empty]
      · simp [oneBay, hk]

theorem Yard.closeNightItem_eq (h : y.intact) (i : Nat) : y.closeNightItem i = y.modItem i MenuItem.closeNight := by
  unfold Yard.closeNightItem Yard.moveTally Yard.modItem
  rw [Yard.readItem_intact h]
  cases hi : y.item? i with
  | none => rfl
  | some m =>
    simp only [Read.of, Yard.modItem, hi]

/-- The items of a list, their stock on hand loaded for the next night. -/
theorem Yard.foldl_closeNightItem (h : y.intact) (list : List Nat) :
    (list.foldl Yard.closeNightItem y).intact ∧
      (∃ t, list.foldl Yard.closeNightItem y = { y with store := { y.store with menu := t } }) ∧
      ∀ k, (list.foldl Yard.closeNightItem y).item? k = (y.item? k).map fun m => if k ∈ list then m.closeNight else m := by
  induction list generalizing y with
  | nil => exact ⟨h, ⟨y.store.menu, rfl⟩, fun k => by simp⟩
  | cons i list ih =>
    rw [List.foldl_cons, Yard.closeNightItem_eq h]
    obtain ⟨hint, ⟨t, ht⟩, hitems⟩ := ih (h.modItem i MenuItem.closeNight)
    obtain ⟨u, hu⟩ := y.modItem_menu i MenuItem.closeNight
    refine ⟨hint, ⟨t, ?_⟩, fun k => ?_⟩
    · rw [ht, hu]
    · rw [hitems, Yard.item_modItem _ _ h.menu]
      cases y.item? k with
      | none => rfl
      | some m =>
        by_cases hk : k = i
        · subst hk
          by_cases hm : k ∈ list <;> simp [hm, MenuItem.closeNight]
        · simp [hk]

theorem Yard.signals.foldl_loops {op : Yard → ScreenId → Yard}
    (hop : ∀ (y : Yard) (lp : ScreenId), y.intact → y.signals (op y lp)) (list : List ScreenId) (h : y.intact) :
    y.signals (list.foldl op y) := by
  induction list generalizing y with
  | nil => exact Yard.signals.refl y
  | cons lp list ih => exact (hop y lp h).trans (ih ((hop y lp h).intact h))

/-- The cars' and the bays' part of the night's end. -/
theorem Yard.closeNightCars_leaves (h : y.intact) : y.closeNightCars.intact ∧
    y.closeNightCars.capacity = y.capacity ∧ y.closeNightCars.store.menu = y.store.menu ∧
    ∀ b r, y.bay? b = some r → y.closeNightCars.bay? b = some Bay.empty := by
  rw [Yard.closeNightCars_eq]
  obtain ⟨hwork, hint, hbays⟩ := Yard.foldl_closeNightBay h.carsCleared ((inUse y.store.bays).map Prod.fst)
  have hsig := Yard.signals.foldl_loops (op := fun y lp => y.placeAllSpeakers Yard.drain lp)
    (fun y lp hy => Yard.signals.foldl_placeSpeakersAt hy Yard.drain lp allPosts) (List.finRange 4) hint
  have hkeep : (((inUse y.store.bays).map Prod.fst).foldl Yard.closeNightBay y.carsCleared).capacity = y.capacity ∧
      (((inUse y.store.bays).map Prod.fst).foldl Yard.closeNightBay y.carsCleared).store.menu = y.store.menu := by
    obtain ⟨_, _, _, _, _, _, _, _, _, hw⟩ := hwork
    rw [hw]
    exact ⟨rfl, rfl⟩
  have hbay (b : Nat) (r : Bay) (hb : y.bay? b = some r) :
      (((inUse y.store.bays).map Prod.fst).foldl Yard.closeNightBay y.carsCleared).bay? b = some Bay.empty := by
    have hold : y.carsCleared.bay? b = some r := hb
    rw [hbays, hold, Option.map_some, if_pos]
    exact List.mem_map.2 ⟨_, mem_inUse_of_get hb, rfl⟩
  generalize ((inUse y.store.bays).map Prod.fst).foldl Yard.closeNightBay y.carsCleared = x at hint hsig hkeep hbay
  refine ⟨hsig.intact hint, ?_, ?_, fun b r hb => (hsig.bay? b).trans (hbay b r hb)⟩
  · obtain ⟨_, _, _, _, hz⟩ := hsig
    rw [hz]
    exact hkeep.1
  · rw [hsig.store]
    exact hkeep.2

/-- The orders' and the menu's part of the night's end. -/
theorem Yard.closeNightOrders_leaves (h : y.intact) : y.closeNightOrders.capacity = y.capacity ∧
    y.closeNightOrders.store.bays = y.store.bays ∧
    ∀ i m, y.item? i = some m → y.closeNightOrders.item? i = some m.closeNight := by
  rw [Yard.closeNightOrders_eq]
  obtain ⟨hint, ⟨t, ht⟩, hitems⟩ := Yard.foldl_closeNightItem h.ordersCleared ((inUse y.store.menu).map Prod.fst)
  have hsig := Yard.signals.foldl_loops (op := fun y lp => y.placeAllLamps Yard.drain lp)
    (fun y lp hy => Yard.signals.foldl_placeLampsAt hy Yard.drain lp allPosts) (List.finRange 4) hint
  have hitem (i : Nat) (m : MenuItem) (hi : y.item? i = some m) :
      (((inUse y.store.menu).map Prod.fst).foldl Yard.closeNightItem y.ordersCleared).item? i = some m.closeNight := by
    have hold : y.ordersCleared.item? i = some m := hi
    rw [hitems, hold, Option.map_some, if_pos]
    exact List.mem_map.2 ⟨_, mem_inUse_of_get hi, rfl⟩
  have hkeep : (((inUse y.store.menu).map Prod.fst).foldl Yard.closeNightItem y.ordersCleared).capacity = y.capacity ∧
      (((inUse y.store.menu).map Prod.fst).foldl Yard.closeNightItem y.ordersCleared).store.bays = y.store.bays := by
    rw [ht]
    exact ⟨rfl, rfl⟩
  generalize ((inUse y.store.menu).map Prod.fst).foldl Yard.closeNightItem y.ordersCleared = x at hsig hitem hkeep
  refine ⟨?_, ?_, fun i m hi => ?_⟩
  · obtain ⟨_, _, _, _, hz⟩ := hsig
    rw [hz]
    exact hkeep.1
  · rw [hsig.store]
    exact hkeep.2
  · unfold Yard.item? Yard.menuSlot
    rw [hsig.store]
    exact hitem i m hi

end undamaged

theorem Yard.closeNight_leaves {y : Yard} (h : y.intact) : y.closeNightCars.closeNightOrders.capacity = y.capacity ∧
    (∀ i m, y.item? i = some m → y.closeNightCars.closeNightOrders.item? i = some m.closeNight) ∧
    ∀ b r, y.bay? b = some r → y.closeNightCars.closeNightOrders.bay? b = some Bay.empty := by
  obtain ⟨hint, hcap, hmenu, hbays⟩ := Yard.closeNightCars_leaves h
  obtain ⟨hcap', hbays', hitems⟩ := Yard.closeNightOrders_leaves hint
  refine ⟨hcap'.trans hcap, fun i m hi => hitems i m ?_, fun b r hb => ?_⟩
  · unfold Yard.item? Yard.menuSlot
    rw [hmenu]
    exact hi
  · unfold Yard.bay?
    rw [Yard.baySlot_congr hbays']
    exact hbays b r hb

/-! ## The screens and lanes in the way -/

theorem find?_finRange_none {n : Nat} {q : Fin n → Bool} (h : ∀ k, q k = false) : (List.finRange n).find? q = none :=
  List.find?_eq_none.2 fun k _ => by rw [h k]; decide

theorem find?_finRange_first {n : Nat} {q : Fin n → Bool} {k : Fin n} (hk : q k = true) (hlow : ∀ j, j < k → q j = false) :
    (List.finRange n).find? q = some k := by
  rw [List.find?_eq_some_iff_getElem]
  refine ⟨hk, k.val, by simp, by simp, fun j hj => ?_⟩
  have hmiss := hlow ⟨j, by omega⟩ (Fin.lt_def.2 hj)
  rw [List.getElem_finRange]
  exact congrArg Bool.not hmiss

section night
variable {s : State} {tag : Nat}

theorem exec_openNight_refused (hs : s.ready) {why : Result} (h : openNightBody s = refused why s) :
    exec (.openNight tag) s = .next (s.answered 0x39 tag (Reply.refuse why) []) :=
  request_answers_quietly _ _ _ s s _ hs.2 h hs.1

theorem exec_closeNight_refused (hs : s.ready) {r : Reply} (h : closeNightBody s = (r, s)) :
    exec (.closeNight tag) s = .next (s.answered 0x3A tag r []) :=
  request_answers_quietly _ _ _ s s _ hs.2 h hs.1

theorem closeNightBody_open (hrun : s.link.part = .run) {sc : Option ScreenId} {ln : Option LaneId}
    (hsome : sc.isSome ∨ ln.isSome) (hsc : s.openShow = sc) (hln : s.openLane = ln) : closeNightBody s =
      ({ result := .state, indication := .none, fields :=
        [.raw (opt (fun k : ScreenId => u8 k) sc ++ opt (fun k : LaneId => u8 k) ln)] }, s) := by
  unfold closeNightBody
  rw [if_neg (by rw [hrun]; decide), hsc, hln]
  cases sc with
  | some k => rfl
  | none =>
    cases ln with
    | some k => rfl
    | none => simp at hsome

theorem closeNightBody_quiet (hrun : s.link.part = .run) (hsc : s.openShow = none) (hln : s.openLane = none) :
    closeNightBody s = (Reply.ok, s.nightEnded s.yard.closeNightCars.closeNightOrders) := by
  unfold closeNightBody
  rw [if_neg (by rw [hrun]; decide), hsc, hln]
  rfl

end night

/-- A night that ends, from what its end leaves of the yard. -/
theorem closeNight_ends {s : State} {tag : Nat} (hs : s.ready) {z : Yard}
    (hbody : closeNightBody s = (Reply.ok, s.nightEnded z)) : ∃ t, exec (.closeNight tag) s = .next t ∧
      t.link.part = .setup ∧ t.link.clock = 0 ∧ t.link.replies = s.link.replies ++ [.request 0x3A tag Reply.ok] ∧
      t.screens = s.screens ∧ t.sound = s.sound ∧
      (∀ ln : LaneId, t.lanes[ln] = { s.lanes[ln] with counts := LaneCounts.zero }) ∧ t.yard = { z with raised := [] } := by
  have hexec : exec (.closeNight tag) s = .next ({ s.nightEnded z with
      link := (s.nightEnded z).link.addPlace (.request 0x3A tag Reply.ok) } : State).finish := by
    refine (request_next 0x3A tag closeNightBody s).trans ?_
    rw [request_roomy _ _ _ _ hs.2, hbody]
  refine ⟨_, hexec, ?_, ?_, ?_, rfl, rfl, fun ln => ?_, rfl⟩
  · rw [State.finish_link, Link.after_part]
    rfl
  · rw [State.finish_link, Link.after_clock]
    rfl
  · rw [State.finish_link, Link.after_replies]
    exact congrArg (· ++ _) (State.nightEnded_link z).1
  · change (s.lanes.map Lane.closeNight)[ln] = _
    simp [Lane.closeNight]

/-- What a yard reads as once its night is over. -/
theorem Yard.nightOver.reads {z : Yard} (h : z.nightOver true) : inUse z.store.cars = [] ∧ inUse z.store.tickets = [] ∧
    inUse z.store.orders = [] ∧ z.limits = [] ∧ z.lastCar = 0 ∧ z.lastOrder = 0 ∧ z.readyList = [] ∧ z.rowCounts = [] ∧
    (∀ sc : ScreenId, z.admittedCount[sc] = 0 ∧ z.held[sc] = []) ∧ (∀ st : StationId, z.queues[st] = []) ∧
    ∀ r : RunnerId, z.runners[r] = Runner.reset := by
  obtain ⟨⟨hcars, htickets, hlimits, hadmitted, hlastCar⟩, horders⟩ := h
  obtain ⟨horders, hheld, hqueues, hready, hrows, hrunners, hlastOrder⟩ := horders rfl
  refine ⟨hcars, htickets, horders, hlimits, hlastCar, hlastOrder, hready, hrows, fun sc => ?_, fun st => ?_, fun r => ?_⟩
  · rw [hadmitted, hheld]
    simp
  · rw [hqueues]
    simp
  · rw [hrunners]
    simp

/-- A yard of which the night has left what it keeps of `y`: the capacity, the items' stock and the open bays. -/
def Yard.nightKept (y z : Yard) : Prop :=
  z.capacity = y.capacity ∧
    (∀ i m, y.item? i = some m →
      z.item? i = some { m with loaded := m.remaining, pending := 0, sold := 0, waste := 0 }) ∧
    ∀ b br, y.bay? b = some br → z.bay? b = some { occupant := none, speaker := false }

theorem Yard.nightKept.cleared {y z : Yard} (h : y.nightKept z) : y.nightKept { z with raised := [] } := h

/-- What is left of a part whose night ends. -/
theorem closeNight_leaves {s : State} {tag : Nat} (hs : s.ready) {z : Yard}
    (hbody : closeNightBody s = (Reply.ok, s.nightEnded z)) (hover : z.nightOver true) {kept : Prop}
    (hkept : kept → s.yard.nightKept z) : ∃ t, exec (.closeNight tag) s = .next t ∧ t.link.part = .setup ∧
      t.link.clock = 0 ∧ t.link.replies = s.link.replies ++ [.request 0x3A tag Reply.ok] ∧ t.screens = s.screens ∧
      t.sound = s.sound ∧ (∀ ln : LaneId, t.lanes[ln] = { s.lanes[ln] with counts := LaneCounts.zero }) ∧
      inUse t.yard.store.cars = [] ∧ inUse t.yard.store.tickets = [] ∧ inUse t.yard.store.orders = [] ∧
      t.yard.limits = [] ∧ t.yard.lastCar = 0 ∧ t.yard.lastOrder = 0 ∧ t.yard.readyList = [] ∧
      t.yard.rowCounts = [] ∧ (∀ sc : ScreenId, t.yard.admittedCount[sc] = 0 ∧ t.yard.held[sc] = []) ∧
      (∀ st : StationId, t.yard.queues[st] = []) ∧ (∀ r : RunnerId, t.yard.runners[r] = Runner.reset) ∧
      (kept → s.yard.nightKept t.yard) := by
  obtain ⟨t, hexec, hpart, hclock, hreplies, hscreens, hsound, hlanes, hyard⟩ := closeNight_ends (tag := tag) hs hbody
  obtain ⟨hcars, htickets, horders, hlimits, hlastCar, hlastOrder, hready, hrows, hfield, hqueues, hrunners⟩ := hover.reads
  refine ⟨t, hexec, hpart, hclock, hreplies, hscreens, hsound, hlanes, ?_⟩
  rw [hyard]
  exact ⟨hcars, htickets, horders, hlimits, hlastCar, hlastOrder, hready, hrows, hfield, hqueues, hrunners,
    fun h => (hkept h).cleared⟩

/-- Settles O57: the openings and refusals case by case, and the night's end by what it leaves of the yard. -/
theorem nightOpensAndCloses : Obligations.NightOpensAndCloses := by
  unfold Obligations.NightOpensAndCloses
  intro s tag quiet hs hquiet
  have hopen (sc : ScreenId) : (decide (s.screens[sc].phase ≠ .dark) && decide (s.screens[sc].phase ≠ .ended) &&
      decide (s.screens[sc].phase ≠ .halted)) = true ↔ ¬quiet sc := by
    rw [hquiet]
    simp only [Bool.and_eq_true, decide_eq_true_eq, List.mem_cons, List.not_mem_nil, or_false, not_or, and_assoc]
  have hshut (ln : LaneId) : decide (s.lanes[ln].state ≠ .closed) = true ↔ s.lanes[ln].state ≠ .closed := decide_eq_true_iff
  refine ⟨fun hrun => exec_openNight_refused hs ?_, fun hset tr htr htab => exec_openNight_refused hs ?_,
    fun hset htr => ?_, fun hset => exec_closeNight_refused hs ?_, fun hrun sc ln hsome hsc hln => ?_, fun hrun hq hl => ?_⟩
  · unfold openNightBody
    rw [if_pos hrun]
  · unfold openNightBody Yard.menuTest
    rw [if_neg (by rw [hset]; decide), htr]
    simp [htab]
  · refine request_answers_quietly _ _ _ s _ _ hs.2 ?_ hs.1
    have htest : s.yard.menuTest = false := by
      unfold Yard.menuTest
      cases ht : s.yard.store.test with
      | none => rfl
      | some t => exact decide_eq_false (htr t ht)
    unfold openNightBody
    rw [if_neg (by rw [hset]; decide), if_neg (by rw [htest]; decide)]
    rfl
  · unfold closeNightBody
    rw [if_pos hset]
    rfl
  · refine exec_closeNight_refused hs (closeNightBody_open hrun hsome ?_ ?_)
    · cases sc with
      | none => exact find?_finRange_none fun k => Bool.eq_false_iff.2 fun h => (hopen k).1 h (hsc k)
      | some k =>
        exact find?_finRange_first ((hopen k).2 hsc.1) fun j hj => Bool.eq_false_iff.2 fun h => (hopen j).1 h (hsc.2 j hj)
    · cases ln with
      | none => exact find?_finRange_none fun k => Bool.eq_false_iff.2 fun h => (hshut k).1 h (hln k)
      | some k =>
        exact find?_finRange_first ((hshut k).2 hln.1) fun j hj => Bool.eq_false_iff.2 fun h => (hshut j).1 h (hln.2 j hj)
  · have hbody := closeNightBody_quiet hrun
      (find?_finRange_none fun k => Bool.eq_false_iff.2 fun h => (hopen k).1 h (hq k))
      (find?_finRange_none fun k => Bool.eq_false_iff.2 fun h => (hshut k).1 h (hl k))
    obtain ⟨t, hexec, hpart, hclock, hreplies, hscreens, hsound, hlanes, hcars, htickets, horders, hlimits, hlastCar,
      hlastOrder, hready, hrows, hfield, hqueues, hrunners, hkept⟩ :=
        closeNight_leaves (kept := s.canonical = true ∧ s.yard.store.undamaged = true) hs hbody s.yard.closeNight_over
          fun h => Yard.closeNight_leaves (Yard.intact_of_undamaged ((State.canonical_iff s).1 h.1).2.2.1 h.2)
    exact ⟨t, hexec, hpart, hclock, hreplies, hscreens, hsound, hlanes, hcars, htickets, horders, hlimits, hlastCar,
      hlastOrder, hready, hrows, hfield, hqueues, hrunners, fun hw hu => hkept ⟨hw, hu⟩⟩

end Sys2Proof.Machine
end

section
/-! PROOF. What the settlement of an order leaves of a yard whose records are all readable: the lists without the order, the
tallies of its lines' units, and its free slot (R150, R152, R154, R168, R172). -/

namespace Sys2Proof.Machine

/-- The records and the row counts of a state that is canonical and undamaged. -/
theorem State.intact_rows {s : State} (hw : s.canonical = true) (hu : s.yard.store.undamaged = true) :
    s.yard.intact ∧ Tab.wf 0 s.yard.rowCounts = true := by
  obtain ⟨-, hstore, -, -, hrows, -⟩ := ((State.canonical_iff s).1 hw).2
  exact ⟨Yard.intact_of_undamaged hstore hu, hrows⟩

/-! ## The tallies of an order's lines -/

theorem MenuItem.returnMove_zero (m : MenuItem) : m.returnMove 0 = m := by
  unfold MenuItem.returnMove
  split <;> simp

theorem MenuItem.returnMove_add (m : MenuItem) (a b : Nat) : (m.returnMove a).returnMove b = m.returnMove (a + b) := by
  unfold MenuItem.returnMove
  cases hm : m.mode <;> simp [hm] <;> omega

theorem foldl_returnMove (ls : List Line) (m : MenuItem) :
    ls.foldl (fun m l => m.returnMove l.qty) m = m.returnMove (ls.map Line.qty).sum := by
  induction ls generalizing m with
  | nil => exact (m.returnMove_zero).symm
  | cons l ls ih => rw [List.foldl_cons, ih, MenuItem.returnMove_add]; rfl

/-- A waste tally within its two bytes. -/
def MenuItem.wasteFits (m : MenuItem) : Prop :=
  m.mode = .unlimited → m.waste ≤ 65535

theorem MenuItem.spoilMove_zero {m : MenuItem} (h : m.wasteFits) : m.spoilMove 0 = m := by
  unfold MenuItem.spoilMove raiseTally
  split
  case h_1 => simp
  case h_2 hmode => rw [Nat.sub_zero, Nat.add_zero, min_eq_left (h hmode)]

theorem MenuItem.spoilMove_wasteFits (m : MenuItem) (k : Nat) : (m.spoilMove k).wasteFits := by
  unfold MenuItem.spoilMove MenuItem.wasteFits raiseTally
  cases hm : m.mode <;> simp [hm]

theorem MenuItem.spoilMove_add (m : MenuItem) (a b : Nat) : (m.spoilMove a).spoilMove b = m.spoilMove (a + b) := by
  unfold MenuItem.spoilMove raiseTally
  cases hm : m.mode <;> simp [hm] <;> omega

theorem foldl_spoilMove (ls : List Line) {m : MenuItem} (h : m.wasteFits) :
    ls.foldl (fun m l => m.spoilMove l.qty) m = m.spoilMove (ls.map Line.qty).sum := by
  induction ls generalizing m with
  | nil => exact (MenuItem.spoilMove_zero h).symm
  | cons l ls ih => rw [List.foldl_cons, ih (m.spoilMove_wasteFits _), MenuItem.spoilMove_add]; rfl

theorem MenuItem.gaveBack_eq (m : MenuItem) (pending started : Nat) :
    m.gaveBack pending started = (m.returnMove pending).spoilMove started := by
  unfold MenuItem.gaveBack MenuItem.returnMove MenuItem.spoilMove raiseTally
  cases hm : m.mode <;> simp [hm]

theorem MenuItem.balanced.wasteFits {m : MenuItem} (h : m.balanced) (k : Nat) : (m.returnMove k).wasteFits := by
  unfold MenuItem.balanced at h
  unfold MenuItem.wasteFits MenuItem.returnMove
  cases hm : m.mode <;> simp_all

/-! ## Moving the lines of an order -/

/-- A yard with another menu table. -/
def Yard.withMenu (y : Yard) (t : Tab (Slot MenuItem)) : Yard :=
  { y with store := { y.store with menu := t } }

theorem Yard.moveTally_intact {y : Yard} (h : y.intact) (f : MenuItem → MenuItem) (i : Nat) :
    y.moveTally f i = ((y.item? i).isSome, y.modItem i f) := by
  unfold Yard.moveTally
  rw [Yard.readItem_intact h]
  cases hi : y.item? i with
  | none => simp [Read.of, Yard.modItem, hi]
  | some m => rfl

theorem Yard.item?_modItem {y : Yard} (h : y.intact) (f : MenuItem → MenuItem) (i k : Nat) :
    (y.modItem i f).item? k = (y.item? k).map fun m => if k = i then f m else m :=
  Yard.item_modItem f y h.menu i k

theorem Yard.moveLines_leaves (move : Nat → MenuItem → MenuItem) (ls : List Line) {y : Yard} (h : y.intact) :
    (∃ t, (Yard.moveLines move y ls).2 = y.withMenu t) ∧ (Yard.moveLines move y ls).2.intact ∧
    (Yard.moveLines move y ls).1 = ((ls.filter fun l => (y.item? l.item).isSome).map Line.qty).sum ∧
    ∀ k, (Yard.moveLines move y ls).2.item? k = (y.item? k).map fun m =>
      (ls.filter fun l => l.item == k).foldl (fun m l => move l.qty m) m := by
  induction ls generalizing y with
  | nil => exact ⟨⟨y.store.menu, rfl⟩, h, rfl, fun k => Option.map_id'.symm⟩
  | cons l ls ih =>
    have hmoved : Yard.moveLines move y (l :: ls) =
        (if (y.item? l.item).isSome then (Yard.moveLines move (y.modItem l.item (move l.qty)) ls).1 + l.qty
          else (Yard.moveLines move (y.modItem l.item (move l.qty)) ls).1,
        (Yard.moveLines move (y.modItem l.item (move l.qty)) ls).2) := by
      rw [Yard.moveLines, Yard.moveTally_intact h]
    obtain ⟨⟨t, ht⟩, hint, hunits, hitems⟩ := ih (h.modItem l.item (move l.qty))
    have hsame (k : Nat) : ((y.modItem l.item (move l.qty)).item? k).isSome = (y.item? k).isSome := by
      rw [Yard.item?_modItem h, Option.isSome_map]
    rw [hmoved]
    refine ⟨?_, hint, ?_, fun k => ?_⟩
    · obtain ⟨t', ht'⟩ := y.modItem_menu l.item (move l.qty)
      exact ⟨t, by rw [ht, ht']; rfl⟩
    · simp only [hunits, hsame]
      cases hi : (y.item? l.item).isSome <;> simp [hi, Nat.add_comm]
    · rw [hitems, Yard.item?_modItem h]
      cases y.item? k with
      | none => rfl
      | some m =>
        by_cases hk : l.item = k
        · simp [hk]
        · simp [hk, Ne.symm hk]

/-- What the settlement of an order makes of an item: its PENDING lines return their units, then the others spoil theirs. -/
def Order.settles (o : Order) (k : Nat) (m : MenuItem) : MenuItem :=
  ((o.lines.filter fun l => !decide (l.state = .pending)).filter fun l => l.item == k).foldl
    (fun m l => m.spoilMove l.qty)
    (((o.lines.filter fun l => decide (l.state = .pending)).filter fun l => l.item == k).foldl
      (fun m l => m.returnMove l.qty) m)

theorem Order.settles_balanced (o : Order) (k : Nat) {m : MenuItem} (h : m.balanced) :
    o.settles k m = m.gaveBack (o.unitsOn k true) (o.unitsOn k false) := by
  unfold Order.settles
  rw [MenuItem.gaveBack_eq, foldl_returnMove, foldl_spoilMove _ (h.wasteFits _), List.filter_filter, List.filter_filter]
  unfold Order.unitsOn
  simp

theorem Order.settles_unnamed {o : Order} {k : Nat} (h : ∀ l ∈ o.lines, l.item ≠ k) (m : MenuItem) :
    o.settles k m = m := by
  have hnil (p : Line → Bool) : (o.lines.filter p).filter (fun l => l.item == k) = [] :=
    List.filter_eq_nil_iff.2 fun l hl => by simpa using h l (List.mem_filter.1 hl).1
  unfold Order.settles
  rw [hnil, hnil]
  rfl

/-- A menu in which the units of an order's lines are settled. -/
def Yard.unitsSettled (y : Yard) (o : Order) (z : Yard) : Prop :=
  ∀ k, z.item? k = (y.item? k).map (o.settles k)

theorem Yard.unitsSettled.law {y z : Yard} {o : Order} (h : y.unitsSettled o z) (k : Nat) :
    (y.item? k = none → z.item? k = none) ∧
    ∀ m, y.item? k = some m → m.balanced → z.item? k = some (m.gaveBack (o.unitsOn k true) (o.unitsOn k false)) := by
  refine ⟨fun hk => ?_, fun m hk hm => ?_⟩
  · rw [h, hk]
    rfl
  · rw [h, hk, ← o.settles_balanced k hm]
    rfl

theorem Yard.settleLines_leaves {y : Yard} (h : y.intact) (o : Order) :
    (∃ t, (y.settleLines o.lines).2 = y.withMenu t) ∧ (y.settleLines o.lines).2.intact ∧
    (y.settleLines o.lines).1 = (y.unitsOf o true, y.unitsOf o false) ∧
    y.unitsSettled o (y.settleLines o.lines).2 := by
  obtain ⟨⟨t, ht⟩, hint, hback, hitems⟩ := Yard.moveLines_leaves (fun n m => m.returnMove n)
    (o.lines.filter fun l => decide (l.state = .pending)) h
  obtain ⟨⟨t', ht'⟩, hint', hlost, hitems'⟩ := Yard.moveLines_leaves (fun n m => m.spoilMove n)
    (o.lines.filter fun l => !decide (l.state = .pending)) hint
  have hboth : y.settleLines o.lines = ((_, _), _) := rfl
  rw [hboth]
  refine ⟨⟨t', by rw [ht', ht]; rfl⟩, hint', ?_, fun k => ?_⟩
  · rw [hback, hlost]
    simp only [hitems, Option.isSome_map, List.filter_filter]
    unfold Yard.unitsOf
    simp
  · rw [hitems', hitems, Option.map_map]
    rfl

/-! ## The lists -/

/-- The yard with an order out of every list of the Order Engine. -/
theorem Yard.leaveLists_eq (y : Yard) (n : Nat) : y.leaveLists n = { y with
    held := y.held.map fun l => l.filter fun e => e.order != n
    queues := y.queues.map fun q => q.filter fun e => e.order != n
    readyList := y.readyList.filter fun e => e.order != n
    rowCounts := (y.leaveReady n).rowCounts } := by
  have hentry : ((y.unhold n).dequeueOrder n).readyEntry? n = y.readyEntry? n := rfl
  unfold Yard.leaveLists Yard.leaveReady
  rw [hentry]
  cases he : y.readyEntry? n with
  | some e => cases hr : e.row <;> simp only [Yard.rowDown, hr] <;> rfl
  | none =>
    have hsame : y.readyList.filter (fun e => e.order != n) = y.readyList :=
      List.filter_eq_self.2 fun e hmem => by simpa using List.find?_eq_none.1 he e hmem
    simp only [hsame]
    rfl

theorem Yard.leaveReady_rows_wf {y : Yard} (h : Tab.wf 0 y.rowCounts = true) (n : Nat) :
    Tab.wf 0 (y.leaveReady n).rowCounts = true := by
  unfold Yard.leaveReady
  cases y.readyEntry? n with
  | none => exact h
  | some e => cases hr : e.row <;> simp only [Yard.rowDown, hr, h, Tab.wf_put]

theorem Yard.rowCount_rowDown {y : Yard} (h : Tab.wf 0 y.rowCounts = true) (row : Option Nat) (w : Nat) :
    (y.rowDown row).rowCount w = y.rowCount w - (if row = some w then 1 else 0) := by
  cases row with
  | none => rfl
  | some r =>
    have hget : (y.rowDown (some r)).rowCount w = if w = r then y.rowCount r - 1 else y.rowCount w :=
      Tab.get_put h r _ w
    rw [hget]
    by_cases hw : w = r
    · rw [if_pos hw, if_pos (by rw [hw]), hw]
    · rw [if_neg hw, if_neg fun he => hw (Option.some.inj he).symm, Nat.sub_zero]

theorem Yard.rowCount_rowUp {y : Yard} (h : Tab.wf 0 y.rowCounts = true) (row : Option Nat) (w : Nat) :
    (y.rowUp row).rowCount w = y.rowCount w + (if row = some w then 1 else 0) := by
  cases row with
  | none => rfl
  | some r =>
    have hget : (y.rowUp (some r)).rowCount w = if w = r then y.rowCount r + 1 else y.rowCount w :=
      Tab.get_put h r _ w
    rw [hget]
    by_cases hw : w = r
    · rw [if_pos hw, if_pos (by rw [hw]), hw]
    · rw [if_neg hw, if_neg fun he => hw (Option.some.inj he).symm, Nat.add_zero]

theorem Yard.rowCount_leaveReady {y : Yard} (h : Tab.wf 0 y.rowCounts = true) {n : Nat} {e : ReadyEntry}
    (he : y.readyEntry? n = some e) (w : Nat) :
    (y.leaveReady n).rowCount w = y.rowCount w - (if e.row = some w then 1 else 0) := by
  unfold Yard.leaveReady
  rw [he]
  exact Yard.rowCount_rowDown (y := { y with readyList := y.readyList.filter fun e => e.order != n }) h e.row w

theorem Yard.leaveReady_absent {y : Yard} {n : Nat} (h : ∀ e ∈ y.readyList, e.order ≠ n) : y.leaveReady n = y := by
  have hnone : y.readyEntry? n = none := List.find?_eq_none.2 fun e he => by simpa using h e he
  unfold Yard.leaveReady
  rw [hnone]

end Sys2Proof.Machine
end

section
/-! PROOF. The yard after a cancel and after a void of an order, field by field (R152, R154, R155, R164, R172). -/

namespace Sys2Proof.Machine

/-! ## The settled order's yard -/

/-- What a settlement writes, tables and reports still to be said. -/
def Yard.without (y : Yard) (i : Nat) (o : Order) (menu : Tab (Slot MenuItem)) (cars : Tab (Slot Car)) (r : Report) :
    Yard :=
  { y with
    held := y.held.map fun l => l.filter fun e => e.order != o.number
    queues := y.queues.map fun q => q.filter fun e => e.order != o.number
    readyList := y.readyList.filter fun e => e.order != o.number
    rowCounts := (y.leaveReady o.number).rowCounts
    store := { y.store with menu := menu, cars := cars,
                            orders := Tab.put Slot.blank y.store.orders i (y.orderSlot i).release }
    raised := y.raised ++ [r] }

/-- The law of a settled order says nothing of the tables of cars and bays, the runners, the loops and the reports. -/
theorem Yard.orderGone.congr {y z w : Yard} {i : Nat} {o : Order} (h : y.orderGone i o z)
    (horders : w.store.orders = z.store.orders) (hmenu : w.store.menu = z.store.menu) (hheld : w.held = z.held)
    (hqueues : w.queues = z.queues) (hready : w.readyList = z.readyList) (hrows : w.rowCounts = z.rowCounts) :
    y.orderGone i o w := by
  unfold Yard.orderGone Yard.orderSlot Yard.rowCount Yard.item? Yard.menuSlot at *
  rw [horders, hmenu, hheld, hqueues, hready, hrows]
  exact h

theorem Yard.without_gone {y : Yard} (h : y.intact) (hrows : Tab.wf 0 y.rowCounts = true) {i : Nat} {o : Order}
    {menu : Tab (Slot MenuItem)} (hmenu : y.unitsSettled o (y.withMenu menu)) (cars : Tab (Slot Car)) (r : Report) :
    y.orderGone i o (y.without i o menu cars r) := by
  refine ⟨Yard.orderSlot_set y h.orders i _, fun j hj => Yard.orderSlot_set_other y i j _ hj,
    fun sc => Vector.getElem_map .., fun st => Vector.getElem_map .., rfl,
    fun e he w => Yard.rowCount_leaveReady hrows he w, fun hno => ?_, hmenu.law⟩
  change (y.leaveReady o.number).rowCounts = _
  rw [Yard.leaveReady_absent hno]

theorem Yard.without_intact {y : Yard} (i : Nat) (o : Order) {menu : Tab (Slot MenuItem)} {cars : Tab (Slot Car)}
    (hmenu : (y.withMenu menu).intact) (hcars : ({ y with store := { y.store with cars := cars } } : Yard).intact)
    (r : Report) : (y.without i o menu cars r).intact := by
  have horders : ({ y.withMenu menu with store := { (y.withMenu menu).store with cars := cars } } : Yard).intact := by
    obtain ⟨hwf, hsound⟩ := hmenu
    obtain ⟨hwf', hsound'⟩ := hcars
    unfold Yard.withMenu at hwf hsound
    rw [Store.canonical_iff] at hwf hwf'
    rw [Store.sound_iff] at hsound hsound'
    refine ⟨(Store.canonical_iff _).2 ?_, (Store.sound_iff _).2 ?_⟩
    · exact ⟨hwf'.1, hwf.2⟩
    · exact ⟨hsound'.1, hsound.2⟩
  exact (horders.setOrderSlot i (sl := (y.orderSlot i).release) (Slot.good_release _)).congr rfl

/-- The orders of a settled order's yard, by their numbers. -/
theorem Yard.order?_without {y : Yard} (h : y.intact) {i : Nat} {o : Order} (hf : y.findOrder o.number = some (i, o))
    (menu : Tab (Slot MenuItem)) (cars : Tab (Slot Car)) (r : Report) {k : Nat} (hk : k ≠ o.number) :
    (y.without i o menu cars r).findOrder k = y.findOrder k :=
  find_inUse_drop (key := Order.number) h.orders (Yard.findOrder_get h hf).1 (Slot.record?_release _) hk

/-! ## Cancels and voids -/

theorem Yard.withMenu_cars (y : Yard) (t : Tab (Slot MenuItem)) (n : Nat) : (y.withMenu t).car? n = y.car? n := rfl

/-- The slot of an order freed in a yard with the order table of `y`. -/
theorem Yard.freeOrder_found {y w : Yard} {n i : Nat} {o : Order} (hf : y.findOrder n = some (i, o))
    (hw : w.store.orders = y.store.orders) : w.freeOrder n = { w with store := { w.store with
      orders := Tab.put Slot.blank y.store.orders i (y.orderSlot i).release } } := by
  have hfw : w.findOrder n = some (i, o) := by
    unfold Yard.findOrder at *
    rw [hw]
    exact hf
  have hslot : w.orderSlot i = y.orderSlot i := by
    unfold Yard.orderSlot
    rw [hw]
  unfold Yard.freeOrder
  rw [hfw]
  dsimp only
  rw [hslot]
  unfold Yard.setOrderSlot
  rw [hw]

/-- A menu with an order's units settled, all its slots readable. -/
def Yard.menuWithout (y : Yard) (o : Order) (menu : Tab (Slot MenuItem)) : Prop :=
  (y.withMenu menu).intact ∧ y.unitsSettled o (y.withMenu menu)

theorem Yard.leaveLists_settle {y : Yard} (h : y.intact) (o : Order) : ∃ menu, y.menuWithout o menu ∧
    (y.leaveLists o.number).settleLines o.lines =
      ((y.unitsOf o true, y.unitsOf o false), (y.leaveLists o.number).withMenu menu) := by
  have hstore : (y.leaveLists o.number).store = y.store := by rw [Yard.leaveLists_eq]
  have hitem (k : Nat) : (y.leaveLists o.number).item? k = y.item? k := by
    unfold Yard.item? Yard.menuSlot
    rw [hstore]
  obtain ⟨⟨menu, ht⟩, hint, hunits, hitems⟩ := Yard.settleLines_leaves (h.congr hstore) o
  rw [ht] at hint hitems
  have hmenu (k : Nat) : ((y.leaveLists o.number).withMenu menu).item? k = (y.withMenu menu).item? k := rfl
  refine ⟨menu, ⟨hint.congr ?_, fun k => ?_⟩, Prod.ext ?_ ht⟩
  · unfold Yard.withMenu
    rw [hstore]
  · have hk := hitems k
    rw [hitem, hmenu] at hk
    exact hk
  · rw [hunits]
    unfold Yard.unitsOf
    simp only [hitem]

theorem Yard.voidOrder_eq {y : Yard} (h : y.intact) {i : Nat} {o : Order} (hf : y.findOrder o.number = some (i, o))
    (cause : VoidCause) : ∃ menu, y.menuWithout o menu ∧ y.voidOrder o cause = y.without i o menu y.store.cars
      (.orderVoided o.number o.car o.state cause (y.unitsOf o true) (y.unitsOf o false)) := by
  obtain ⟨menu, hmenu, hsettle⟩ := Yard.leaveLists_settle h o
  refine ⟨menu, hmenu, ?_⟩
  have hvoid : y.voidOrder o cause = (((y.leaveLists o.number).withMenu menu).freeOrder o.number).raise
      (.orderVoided o.number o.car o.state cause (y.unitsOf o true) (y.unitsOf o false)) := by
    unfold Yard.voidOrder
    rw [hsettle]
  rw [hvoid, Yard.leaveLists_eq, Yard.freeOrder_found hf (by rfl)]
  rfl

theorem Yard.cancelOrder_departed_eq {y : Yard} (h : y.intact) {i : Nat} {o : Order}
    (hf : y.findOrder o.number = some (i, o)) : ∃ menu, y.menuWithout o menu ∧
      y.cancelOrder o .departed = y.without i o menu y.store.cars (.orderCancelled o.number o.car o.state .departed) := by
  obtain ⟨menu, hmenu, hsettle⟩ := Yard.leaveLists_settle h o
  refine ⟨menu, hmenu, ?_⟩
  have hcancel : y.cancelOrder o .departed = (((y.leaveLists o.number).withMenu menu).freeOrder o.number).raise
      (.orderCancelled o.number o.car o.state .departed) := by
    unfold Yard.cancelOrder
    rw [hsettle]
    rfl
  rw [hcancel, Yard.leaveLists_eq, Yard.freeOrder_found hf (by rfl)]
  rfl

/-- A settlement of an order whose car has left the table leaves the cars, and reports what it did. -/
theorem Yard.settleGone_eq {y : Yard} (h : y.intact) {i : Nat} {o : Order} (hf : y.findOrder o.number = some (i, o))
    (cause : VoidCause) : ∃ menu, y.menuWithout o menu ∧ y.settleGone o cause = y.without i o menu y.store.cars
      (if o.cancellable then .orderCancelled o.number o.car o.state .departed
        else .orderVoided o.number o.car o.state cause (y.unitsOf o true) (y.unitsOf o false)) := by
  unfold Yard.settleGone
  split
  · exact Yard.cancelOrder_departed_eq h hf
  · exact Yard.voidOrder_eq h hf cause

theorem Yard.modCar_none {y : Yard} {n : Nat} (h : y.car? n = none) (f : Car → Car) : y.modCar n f = y := by
  unfold Yard.modCar
  rw [Option.map_eq_none_iff.1 h]

/-- A car found is taken out of in the list of a yard with other lists and another menu as in this one. -/
theorem Yard.dropOpenOrder_eq (y : Yard) (car order : Nat) : ∃ cars, y.dropOpenOrder car order =
    { y with store := { y.store with cars := cars } } ∧ ∀ w : Yard, w.store.cars = y.store.cars →
      w.dropOpenOrder car order = { w with store := { w.store with cars := cars } } := by
  have hfind (w : Yard) (hw : w.store.cars = y.store.cars) : w.findCar car = y.findCar car := by
    unfold Yard.findCar
    rw [hw]
  have hslot (w : Yard) (hw : w.store.cars = y.store.cars) (i : Nat) : w.carSlot i = y.carSlot i := by
    unfold Yard.carSlot
    rw [hw]
  unfold Yard.dropOpenOrder Yard.modCar
  cases hf : y.findCar car with
  | none =>
    refine ⟨y.store.cars, rfl, fun w hw => ?_⟩
    rw [hfind w hw, hf, ← hw]
  | some e =>
    refine ⟨_, rfl, fun w hw => ?_⟩
    rw [hfind w hw, hf]
    dsimp only
    unfold Yard.setCarSlot
    rw [hw, hslot w hw]

/-- Every other cancel takes the order out of its car's list as well. -/
theorem Yard.cancelOrder_eq {y : Yard} (h : y.intact) {i : Nat} {o : Order} (hf : y.findOrder o.number = some (i, o))
    {cause : CancelCause} (hcause : cause ≠ .departed) : ∃ menu, y.menuWithout o menu ∧
      y.cancelOrder o cause = y.without i o menu (y.dropOpenOrder o.car o.number).store.cars
        (.orderCancelled o.number o.car o.state cause) := by
  obtain ⟨menu, hmenu, hsettle⟩ := Yard.leaveLists_settle h o
  refine ⟨menu, hmenu, ?_⟩
  have hlisted : ((y.leaveLists o.number).withMenu menu).intact := by
    rw [Yard.leaveLists_eq]
    exact hmenu.1.congr rfl
  have hdrop : (match ((y.leaveLists o.number).withMenu menu).readCar Yard.drain o.car with
      | (.whole _, y) => y.dropOpenOrder o.car o.number
      | (_, y) => y) = ((y.leaveLists o.number).withMenu menu).dropOpenOrder o.car o.number := by
    rw [Yard.readCar_intact hlisted]
    cases hc : ((y.leaveLists o.number).withMenu menu).car? o.car with
    | none => exact (Yard.modCar_none hc _).symm
    | some c => rfl
  have hcancel : y.cancelOrder o cause = ((((y.leaveLists o.number).withMenu menu).dropOpenOrder o.car
      o.number).freeOrder o.number).raise (.orderCancelled o.number o.car o.state cause) := by
    unfold Yard.cancelOrder
    rw [hsettle]
    dsimp only
    rw [if_neg hcause]
    exact congrArg (fun w : Yard => (w.freeOrder o.number).raise _) hdrop
  obtain ⟨cars, hcars, hother⟩ := y.dropOpenOrder_eq o.car o.number
  rw [hcancel, Yard.leaveLists_eq, hother _ (by rfl), Yard.freeOrder_found hf (by rfl), hcars]
  rfl

end Sys2Proof.Machine
end

section
/-! PROOF. Reports that stand ahead of a yard's own change nothing of what the yard does; and what a walk along a list does
where every record is readable (R164, R180). -/

namespace Sys2Proof.Machine

/-- A yard with reports ahead of its own. -/
def Yard.behind (rs : List Report) (y : Yard) : Yard :=
  { y with raised := rs ++ y.raised }

section behind
variable (rs : List Report) (y : Yard)

theorem Yard.behind_raise (r : Report) : (y.behind rs).raise r = (y.raise r).behind rs := by
  simp [Yard.behind, Yard.raise]

theorem Yard.behind_modItem (i : Nat) (f : MenuItem → MenuItem) :
    (y.behind rs).modItem i f = (y.modItem i f).behind rs := by
  have hitem : (y.behind rs).item? i = y.item? i := rfl
  unfold Yard.modItem
  rw [hitem]
  cases y.item? i <;> rfl

theorem Yard.behind_modOrder (n : Nat) (f : Order → Order) : (y.behind rs).modOrder n f = (y.modOrder n f).behind rs := by
  have hfind : (y.behind rs).findOrder n = y.findOrder n := rfl
  unfold Yard.modOrder
  rw [hfind]
  cases y.findOrder n <;> rfl

theorem Yard.behind_freeOrder (n : Nat) : (y.behind rs).freeOrder n = (y.freeOrder n).behind rs := by
  have hfind : (y.behind rs).findOrder n = y.findOrder n := rfl
  unfold Yard.freeOrder
  rw [hfind]
  cases y.findOrder n <;> rfl

theorem Yard.behind_leaveReady (n : Nat) : (y.behind rs).leaveReady n = (y.leaveReady n).behind rs := by
  have hentry : (y.behind rs).readyEntry? n = y.readyEntry? n := rfl
  unfold Yard.leaveReady
  rw [hentry]
  cases y.readyEntry? n with
  | none => rfl
  | some e => cases he : e.row <;> simp only [he, Yard.rowDown] <;> rfl

theorem Yard.behind_leaveLists (n : Nat) : (y.behind rs).leaveLists n = (y.leaveLists n).behind rs :=
  Yard.behind_leaveReady rs ((y.unhold n).dequeueOrder n) n

theorem Yard.behind_dropOpenOrder (car n : Nat) :
    (y.behind rs).dropOpenOrder car n = (y.dropOpenOrder car n).behind rs := by
  have hfind : (y.behind rs).findCar car = y.findCar car := rfl
  unfold Yard.dropOpenOrder Yard.modCar
  rw [hfind]
  cases y.findCar car <;> rfl

variable {y}

theorem Yard.behind_moveLines (h : y.intact) (move : Nat → MenuItem → MenuItem) (ls : List Line) :
    Yard.moveLines move (y.behind rs) ls =
      ((Yard.moveLines move y ls).1, (Yard.moveLines move y ls).2.behind rs) := by
  induction ls generalizing y with
  | nil => rfl
  | cons l ls ih =>
    have hitem : (y.behind rs).item? l.item = y.item? l.item := rfl
    rw [Yard.moveLines, Yard.moveTally_intact (y := y.behind rs) (h.congr rfl), Yard.behind_modItem, hitem]
    dsimp only
    rw [ih (h.modItem _ _), Yard.moveLines, Yard.moveTally_intact h]

theorem Yard.behind_settleLines (h : y.intact) (ls : List Line) :
    (y.behind rs).settleLines ls = ((y.settleLines ls).1, (y.settleLines ls).2.behind rs) := by
  unfold Yard.settleLines
  rw [Yard.behind_moveLines rs h]
  dsimp only
  rw [Yard.behind_moveLines rs (Yard.moveLines_leaves _ _ h).2.1]

theorem Yard.behind_voidOrder (h : y.intact) (o : Order) (cause : VoidCause) :
    (y.behind rs).voidOrder o cause = (y.voidOrder o cause).behind rs := by
  have hlists : (y.leaveLists o.number).intact := h.congr (by rw [Yard.leaveLists_eq])
  unfold Yard.voidOrder
  rw [Yard.behind_leaveLists, Yard.behind_settleLines rs hlists]
  dsimp only
  rw [Yard.behind_freeOrder, Yard.behind_raise]

theorem Yard.behind_cancelOrder (h : y.intact) (o : Order) :
    (y.behind rs).cancelOrder o .departed = (y.cancelOrder o .departed).behind rs := by
  have hlists : (y.leaveLists o.number).intact := h.congr (by rw [Yard.leaveLists_eq])
  have hcancel (w : Yard) : w.cancelOrder o .departed = (((w.leaveLists o.number).settleLines o.lines).2.freeOrder
      o.number).raise (.orderCancelled o.number o.car o.state .departed) := rfl
  rw [hcancel, hcancel, Yard.behind_leaveLists, Yard.behind_settleLines rs hlists, Yard.behind_freeOrder,
    Yard.behind_raise]

theorem Yard.behind_settleGone (h : y.intact) (o : Order) (cause : VoidCause) :
    (y.behind rs).settleGone o cause = (y.settleGone o cause).behind rs := by
  unfold Yard.settleGone
  split
  · exact Yard.behind_cancelOrder rs h o
  · exact Yard.behind_voidOrder rs h o cause

end behind

/-! ## A settled order, read by number -/

/-- The slot an order is found in, by its number. -/
theorem Yard.find_of_order? {y : Yard} (h : y.intact) {n : Nat} {o : Order} (ho : y.order? n = some o) :
    ∃ i, y.findOrder n = some (i, o) ∧ o.number = n := by
  obtain ⟨⟨i, o'⟩, hf, rfl⟩ := Option.map_eq_some_iff.1 ho
  exact ⟨i, hf, (Yard.findOrder_get h hf).2⟩

section settled
variable {y : Yard} (h : y.intact) {i : Nat} {o : Order} (hf : y.findOrder o.number = some (i, o))
include h hf

theorem Yard.voidOrder_intact (cause : VoidCause) : (y.voidOrder o cause).intact := by
  obtain ⟨menu, hmenu, hz⟩ := Yard.voidOrder_eq h hf cause
  rw [hz]
  exact Yard.without_intact i o hmenu.1 (h.congr rfl) _

theorem Yard.voidOrder_readyList (cause : VoidCause) :
    (y.voidOrder o cause).readyList = y.readyList.filter fun e => e.order != o.number := by
  obtain ⟨menu, hmenu, hz⟩ := Yard.voidOrder_eq h hf cause
  rw [hz]
  rfl

theorem Yard.settleGone_intact (cause : VoidCause) : (y.settleGone o cause).intact := by
  obtain ⟨menu, hmenu, hz⟩ := Yard.settleGone_eq h hf cause
  rw [hz]
  exact Yard.without_intact i o hmenu.1 (h.congr rfl) _

theorem Yard.settleGone_queues (cause : VoidCause) (st : StationId) :
    (y.settleGone o cause).queues[st] = (y.queues[st]).filter fun q => q.order != o.number := by
  obtain ⟨menu, hmenu, hz⟩ := Yard.settleGone_eq h hf cause
  rw [hz]
  exact Vector.getElem_map ..

end settled

end Sys2Proof.Machine
end

section
/-! PROOF. A TAKE: an order given to a runner, the walk along the ready list, and an order met whose car has gone (R178 to
R181). -/

namespace Sys2Proof.Machine

/-! ## Giving an order -/

theorem Yard.leaveReady_eq (y : Yard) (n : Nat) : y.leaveReady n = { y with
    readyList := y.readyList.filter fun e => e.order != n, rowCounts := (y.leaveReady n).rowCounts } := by
  unfold Yard.leaveReady
  cases he : y.readyEntry? n with
  | some e => cases hr : e.row <;> simp only [Yard.rowDown, hr]
  | none =>
    have hsame : y.readyList.filter (fun e => e.order != n) = y.readyList :=
      List.filter_eq_self.2 fun e hmem => by simpa using List.find?_eq_none.1 he e hmem
    rw [hsame]

/-- The yard with an order in a runner's hands. -/
theorem Yard.giveOrder_eq (y : Yard) (r : RunnerId) (o : Order) (c : Car) : ∃ orders, y.giveOrder r o c = { y with
    readyList := y.readyList.filter fun e => e.order != o.number
    rowCounts := (y.leaveReady o.number).rowCounts
    store := { y.store with orders := orders }
    runners := y.runners.set r { held := some o.number, timer := loadMinutes y.takeLimit, last := none }
    raised := y.raised ++ [.orderTaken r o.number o.car c.parkedBay] } ∧
    orders = (y.modOrder o.number fun o => { o with state := .taken, taker := some r }).store.orders := by
  obtain ⟨orders, horders⟩ := (y.leaveReady o.number).modOrder_orders o.number
    fun o => { o with state := .taken, taker := some r }
  have hstore : (y.leaveReady o.number).store = y.store := by rw [Yard.leaveReady_eq]
  have hsame (w : Yard) (hw : w.store = y.store) (f : Order → Order) :
      (w.modOrder o.number f).store.orders = (y.modOrder o.number f).store.orders := by
    unfold Yard.modOrder Yard.findOrder Yard.setOrderSlot Yard.orderSlot
    rw [hw]
    cases (inUse y.store.orders).find? fun e => e.2.number == o.number with
    | none => exact congrArg Store.orders hw
    | some e => rfl
  refine ⟨orders, ?_, ?_⟩
  · unfold Yard.giveOrder
    rw [horders, Yard.leaveReady_eq]
    rfl
  · rw [← hsame _ hstore, horders]

theorem Yard.behind_giveOrder (rs : List Report) (y : Yard) (r : RunnerId) (o : Order) (c : Car) :
    (y.behind rs).giveOrder r o c = (y.giveOrder r o c).behind rs := by
  unfold Yard.giveOrder
  rw [Yard.behind_leaveReady, Yard.behind_modOrder]
  generalize (y.leaveReady o.number).modOrder o.number _ = z
  exact Yard.behind_raise rs (z.setRunner r _) _

/-! ## The walk along the ready list -/

section walk
variable {y : Yard} (h : y.intact) (r : RunnerId) (f : TakeFilter)
include h

omit h in
/-- An entry that the walk passes: it has left the list, or its order is not in the table or not for this take. -/
def Yard.passes (y : Yard) (f : TakeFilter) (e : ReadyEntry) : Prop :=
  y.readyEntry? e.order = none ∨ ∀ o, y.order? e.order = some o → f.fits o = false

theorem Yard.walkReady_passed {e : ReadyEntry} (es : List ReadyEntry) (he : y.passes f e) :
    Yard.walkReady r f (e :: es) y = Yard.walkReady r f es y := by
  rw [Yard.walkReady, Yard.readOrder_intact h]
  rcases he with hnone | hunfit
  · rw [hnone]
    rfl
  · cases ho : y.order? e.order with
    | none => split <;> rfl
    | some o =>
      dsimp only [Read.of]
      rw [hunfit o ho]
      split <;> rfl

theorem Yard.walkReady_gone {e : ReadyEntry} (es : List ReadyEntry) {o : Order}
    (hlist : (y.readyEntry? e.order).isSome = true) (ho : y.order? e.order = some o) (hfit : f.fits o = true)
    (hc : y.car? o.car = none) :
    Yard.walkReady r f (e :: es) y = Yard.walkReady r f es (y.voidOrder o .carLost) := by
  rw [Yard.walkReady, if_pos hlist, Yard.readOrder_intact h, ho]
  dsimp only [Read.of]
  rw [if_pos hfit, Yard.readCar_intact h, hc]
  rfl

theorem Yard.walkReady_whole {e : ReadyEntry} (es : List ReadyEntry) {o : Order} {c : Car}
    (hlist : (y.readyEntry? e.order).isSome = true) (ho : y.order? e.order = some o) (hfit : f.fits o = true)
    (hc : y.car? o.car = some c) :
    Yard.walkReady r f (e :: es) y = (takeReply o c, y.giveOrder r o c) := by
  rw [Yard.walkReady, if_pos hlist, Yard.readOrder_intact h, ho]
  dsimp only [Read.of]
  rw [if_pos hfit, Yard.readCar_intact h, hc]
  rfl

omit h in
/-- An entry that is not passed is that of an order for this take. -/
theorem Yard.met_of_not_passes {e : ReadyEntry} (he : ¬y.passes f e) : (y.readyEntry? e.order).isSome = true ∧
    ∃ o, y.order? e.order = some o ∧ f.fits o = true := by
  unfold Yard.passes at he
  push Not at he
  obtain ⟨hlist, o, ho, hfit⟩ := he
  exact ⟨Option.isSome_iff_ne_none.2 hlist, o, ho, Bool.not_eq_false _ ▸ hfit⟩

/-- Entries passed are as good as not on the list. -/
theorem Yard.walkReady_skip (pre es : List ReadyEntry) (hpre : ∀ p ∈ pre, y.passes f p) :
    Yard.walkReady r f (pre ++ es) y = Yard.walkReady r f es y := by
  induction pre with
  | nil => rfl
  | cons p ps ih =>
    obtain ⟨hp, hps⟩ := List.forall_mem_cons.1 hpre
    rw [List.cons_append, Yard.walkReady_passed h r f _ hp, ih hps]

omit h in
/-- Reports ahead of a yard's own change nothing of the walk. -/
theorem Yard.walkReady_behind (rs : List Report) (es : List ReadyEntry) {y : Yard} (h : y.intact) :
    Yard.walkReady r f es (y.behind rs) = ((Yard.walkReady r f es y).1, (Yard.walkReady r f es y).2.behind rs) := by
  induction es generalizing y with
  | nil => rfl
  | cons e es ih =>
    have hb : (y.behind rs).intact := h.congr rfl
    by_cases he : y.passes f e
    · rw [Yard.walkReady_passed hb r f es he, Yard.walkReady_passed h r f es he, ih h]
    · obtain ⟨hlist, o, ho, hfit⟩ := Yard.met_of_not_passes f he
      cases hc : y.car? o.car with
      | none =>
        obtain ⟨i, hf, hn⟩ := Yard.find_of_order? h ho
        rw [← hn] at hf
        rw [Yard.walkReady_gone hb r f es hlist ho hfit hc, Yard.walkReady_gone h r f es hlist ho hfit hc,
          Yard.behind_voidOrder rs h, ih (Yard.voidOrder_intact h hf _)]
      | some c =>
        rw [Yard.walkReady_whole hb r f es hlist ho hfit hc, Yard.walkReady_whole h r f es hlist ho hfit hc,
          Yard.behind_giveOrder]

omit h in
/-- Entries of an order that is not on the list are passed. -/
theorem Yard.walkReady_filter {n : Nat} (es : List ReadyEntry) {y : Yard} (h : y.intact)
    (hn : ∀ e ∈ y.readyList, e.order ≠ n) :
    Yard.walkReady r f (es.filter fun e => e.order != n) y = Yard.walkReady r f es y := by
  induction es generalizing y with
  | nil => rfl
  | cons e es ih =>
    by_cases he : y.passes f e
    · rw [Yard.walkReady_passed h r f es he]
      by_cases hen : e.order = n
      · rw [List.filter_cons_of_neg (by simp [hen]), ih h hn]
      · rw [List.filter_cons_of_pos (by simp [hen]), Yard.walkReady_passed h r f _ he, ih h hn]
    · obtain ⟨hlist, o, ho, hfit⟩ := Yard.met_of_not_passes f he
      have hen : e.order ≠ n := by
        intro hen
        obtain ⟨x, hx, hxe⟩ := List.find?_isSome.1 hlist
        exact hn x hx ((beq_iff_eq.1 hxe).trans hen)
      rw [List.filter_cons_of_pos (by simp [hen])]
      cases hc : y.car? o.car with
      | none =>
        obtain ⟨i, hf, hno⟩ := Yard.find_of_order? h ho
        rw [← hno] at hf
        rw [Yard.walkReady_gone h r f _ hlist ho hfit hc, Yard.walkReady_gone h r f es hlist ho hfit hc,
          ih (Yard.voidOrder_intact h hf _)]
        intro x hx
        rw [Yard.voidOrder_readyList h hf] at hx
        exact hn x (List.mem_of_mem_filter hx)
      | some c => rw [Yard.walkReady_whole h r f _ hlist ho hfit hc, Yard.walkReady_whole h r f es hlist ho hfit hc]

end walk

end Sys2Proof.Machine
end

section
/-! PROOF. The end of a take: DELIVERED, RETURN and the take timer's expiry (R182 to R186). -/

namespace Sys2Proof.Machine

/-! ## Requests and events on the yard -/

theorem event_yard {f : Yard → Yard} {s : State} {z : Yard} (hf : f s.yard = z) :
    event (fun s => s.onYard f) s = .next (({ s with yard := { z with raised := [] } } : State).reported z.raised) := by
  rw [event_next]
  unfold State.onYard
  rw [hf]
  rfl

section take
variable {s : State} {tag kind arg : Nat} {r : RunnerId} {rep : Reply} {y : Yard}

theorem exec_take {f : TakeFilter} (hs : s.ready) (hrun : s.link.part = .run) (hf : filterOf kind arg = .ok f)
    (hb : takeBody r f s = (rep, { s with yard := y })) : exec (.take tag r.val kind arg) s =
      .next (({ s with yard := { y with raised := [] } } : State).answered 0x30 tag rep y.raised) := by
  refine request_yard hs (body := fun s => match filterOf kind arg with
    | .malformed => malformed s
    | .range => refused .range s
    | .ok f => withRunner r.val (fun r => inRun (takeBody r f)) s) ?_
  rw [hf]
  dsimp only
  rw [withRunner_val, inRun_run _ _ hrun, hb]

theorem exec_settle (hs : s.ready) (hrun : s.link.part = .run) (h1 : 1 ≤ arg) (h2 : arg ≤ 9999)
    {held : RunnerId → Nat → State → Reply × State} (hb : settleBody held r arg s = (rep, { s with yard := y })) :
    request kind tag (withRunner r.val fun r => inRange (orderNumberOk arg) (inRun (settleBody held r arg))) s =
      .next (({ s with yard := { y with raised := [] } } : State).answered kind tag rep y.raised) := by
  refine request_yard hs ?_
  rw [withRunner_val, inRange_ok (orderNumberOk_ok h1 h2), inRun_run _ _ hrun, hb]

/-- A runner that does not hold the order named is answered by its record. -/
theorem exec_settle_late (hs : s.ready) (hrun : s.link.part = .run) (h1 : 1 ≤ arg) (h2 : arg ≤ 9999)
    {held : RunnerId → Nat → State → Reply × State} (hheld : (s.yard.runners[r]).held ≠ some arg) :
    request kind tag (withRunner r.val fun r => inRange (orderNumberOk arg) (inRun (settleBody held r arg))) s =
      .next (s.answered kind tag (lateReply s.yard.runners[r] arg) []) := by
  refine request_answers_quietly _ _ _ s s _ hs.2 ?_ hs.1
  rw [withRunner_val, inRange_ok (orderNumberOk_ok h1 h2), inRun_run _ _ hrun]
  exact if_neg hheld

theorem settleBody_held {held : RunnerId → Nat → State → Reply × State} (hheld : (s.yard.runners[r]).held = some arg) :
    settleBody held r arg s = held r arg s := if_pos hheld

end take

/-! ## The order of a car in the table -/

section whole
variable {y : Yard} (h : y.intact) (hrows : Tab.wf 0 y.rowCounts = true) {n i : Nat} {o : Order} {c : Car}
variable (hf : y.findOrder n = some (i, o)) (hc : y.car? o.car = some c)

include h hf hc in
theorem Yard.readHeld_whole (hgone : o.carGone = false) : y.readHeld n = (.whole o c, y) := by
  have ho : y.order? n = some o := congrArg (Option.map Prod.snd) hf
  unfold Yard.readHeld
  rw [Yard.readOrder_intact h, ho]
  dsimp only [Read.of]
  rw [Yard.readCar_intact h, hc]
  dsimp only [Read.of]
  rw [hgone]
  rfl

include h hf in
theorem Yard.readHeld_lost (hc : y.car? o.car = none) : y.readHeld n = (.carGone o, y) := by
  have ho : y.order? n = some o := congrArg (Option.map Prod.snd) hf
  unfold Yard.readHeld
  rw [Yard.readOrder_intact h, ho]
  dsimp only [Read.of]
  rw [Yard.readCar_intact h, hc]
  rfl

include h hf hc in
/-- What a delivery leaves. -/
theorem Yard.settleDelivery_leaves (r : RunnerId) {z : Yard} (hz : y.settleDelivery r o c = z) :
    (z.orderSlot i).record? = none ∧
    z.car? o.car = some { c with orders := c.orders.filter fun j => j != o.number } ∧
    z.runners = y.runners.set r { y.runners[r] with held := none, timer := none } ∧ z.readyList = y.readyList ∧
    ∃ rs, z.raised = y.raised ++ (rs ++ [.delivered r o.number o.car c.parkedBay o.total false]) := by
  have hn := (Yard.findOrder_get h hf).2
  obtain ⟨cars, hcars, -⟩ := (y.freeOrder o.number).dropOpenOrder_eq o.car o.number
  have hcar : ((y.freeOrder o.number).dropOpenOrder o.car o.number).car? o.car =
      some { c with orders := c.orders.filter fun j => j != o.number } := by
    have hfree : (y.freeOrder o.number).car? o.car = some c := by
      obtain ⟨t, ht⟩ := y.freeOrder_orders o.number
      rw [ht]
      exact hc
    unfold Yard.dropOpenOrder
    rw [Yard.car?_modCar (h.freeOrder _) (f := fun c => { c with orders := c.orders.filter fun k => k != o.number })
      (fun _ => rfl), hfree]
    simp
  have hint := ((h.freeOrder o.number).modCar o.car fun c => { c with orders := c.orders.filter fun k => k != o.number })
  have hslot : (((y.freeOrder o.number).dropOpenOrder o.car o.number).orderSlot i).record? = none := by
    rw [hcars, Yard.freeOrder_found (hn.symm ▸ hf) rfl]
    exact congrArg Slot.record? (Tab.get_put_self h.orders i _)
  have hruns : ((y.freeOrder o.number).dropOpenOrder o.car o.number).runners = y.runners ∧
      ((y.freeOrder o.number).dropOpenOrder o.car o.number).readyList = y.readyList ∧
      ((y.freeOrder o.number).dropOpenOrder o.car o.number).raised = y.raised := by
    obtain ⟨t, ht⟩ := y.freeOrder_orders o.number
    rw [hcars, ht]
    exact ⟨rfl, rfl, rfl⟩
  obtain ⟨hrunners, hready, hraised⟩ := hruns
  unfold Yard.settleDelivery at hz
  change ((y.freeOrder o.number).dropOpenOrder o.car o.number).intact at hint
  generalize (y.freeOrder o.number).dropOpenOrder o.car o.number = w at *
  have hsig : ∃ x, (w.freeRunner r).signals x ∧ x.raise (.delivered r o.number o.car c.parkedBay o.total false) = z := by
    refine ⟨_, ?_, hz⟩
    cases c.parkedBay with
    | none => exact Yard.signals.refl _
    | some bay => exact Yard.signals.markLamp (y := w.freeRunner r) (hint.congr rfl) _ bay
  obtain ⟨x, ⟨loops, rs, spk, lamp, rfl⟩, hz⟩ := hsig
  rw [← hz]
  refine ⟨hslot, hcar, ?_, hready, rs, ?_⟩
  · change w.runners.set r { w.runners[r] with held := none, timer := none } = _
    rw [hrunners]
  · change (w.raised ++ rs) ++ _ = _
    rw [hraised, List.append_assoc]

theorem Car.row_eq (c : Car) : c.row = c.parkedBay.map bayRow := by
  unfold Car.row Car.parkedBay
  split <;> rfl

include h hrows hf in
/-- What a return to the head of the ready list leaves. -/
theorem Yard.backToPass_leaves (c : Car) {z : Yard} (hz : y.backToPass o c = z) :
    z.order? n = some { o with state := .ready, taker := none } ∧
    z.readyList = { order := n, car := o.car, row := c.row } :: y.readyList ∧
    (∀ w, c.row = some w → z.rowCount w = y.rowCount w + 1) ∧ z.runners = y.runners ∧ z.raised = y.raised := by
  have hn := (Yard.findOrder_get h hf).2
  obtain ⟨t, ht⟩ := y.modOrder_orders o.number fun o => { o with state := .ready, taker := none }
  have ho : (y.modOrder o.number fun o => { o with state := .ready, taker := none }).order? n =
      some { o with state := .ready, taker := none } := by
    rw [Yard.order?_modOrder h (f := fun o => { o with state := .ready, taker := none }) (fun _ => rfl)]
    unfold Yard.order?
    rw [hf]
    simp [hn]
  have hsame : ∀ w : Yard, w.readyList = y.readyList → w.rowCounts = y.rowCounts → ∀ e : ReadyEntry,
      (w.joinHead e).readyList = e :: y.readyList ∧
      (∀ k, e.row = some k → (w.joinHead e).rowCount k = y.rowCount k + 1) ∧
      (w.joinHead e).store = w.store ∧ (w.joinHead e).runners = w.runners ∧ (w.joinHead e).raised = w.raised := by
    intro w hready hcounts e
    have hup (x : Yard) : (x.rowUp e.row).readyList = x.readyList ∧ (x.rowUp e.row).store = x.store ∧
        (x.rowUp e.row).runners = x.runners ∧ (x.rowUp e.row).raised = x.raised := by
      cases e.row <;> exact ⟨rfl, rfl, rfl, rfl⟩
    obtain ⟨hl, hst, hr, hra⟩ := hup { w with readyList := e :: w.readyList }
    refine ⟨hl.trans (by rw [hready]), fun k hk => ?_, hst, hr, hra⟩
    have hcount := Yard.rowCount_rowUp (y := { w with readyList := e :: w.readyList }) (hcounts ▸ hrows) e.row k
    rw [if_pos hk] at hcount
    exact hcount.trans (by unfold Yard.rowCount; rw [hcounts])
  unfold Yard.backToPass at hz
  obtain ⟨hl, hcount, hst, hr, hra⟩ := hsame (y.modOrder o.number fun o => { o with state := .ready, taker := none })
    (by rw [ht]) (by rw [ht]) { order := o.number, car := o.car, row := c.row }
  rw [hz] at hl hcount hst hr hra
  refine ⟨?_, hn ▸ hl, hcount, hr.trans (by rw [ht]), hra.trans (by rw [ht])⟩
  unfold Yard.order? Yard.findOrder at *
  rw [hst]
  exact ho

end whole

end Sys2Proof.Machine
end

section
/-! PROOF. Runner takes (R178 to R188): the clauses of RunnersTakeOrders, and their sum. -/

namespace Sys2Proof.Machine

/-! ## What a take leaves of the yard -/

section leaves
variable {y z : Yard} (h : y.intact) (hrows : Tab.wf 0 y.rowCounts = true) {n i : Nat} {o : Order}
variable (hf : y.findOrder n = some (i, o))

include h hrows hf in
/-- What a void leaves, its tallies in the law of a settled order. -/
theorem Yard.voidOrder_leaves {cause : VoidCause} (hz : y.voidOrder o cause = z) : y.orderGone i o z ∧
    z.store.cars = y.store.cars ∧ z.runners = y.runners ∧ z.loops = y.loops ∧ z.intact ∧
    (∀ k, k ≠ n → z.findOrder k = y.findOrder k) ∧ z.raised = y.raised ++ [.orderVoided n o.car o.state cause (y.unitsOf o true) (y.unitsOf o false)] := by
  have hn := (Yard.findOrder_get h hf).2
  subst hn
  obtain ⟨menu, hmenu, he⟩ := Yard.voidOrder_eq h hf cause
  rw [← hz, he]
  exact ⟨Yard.without_gone h hrows hmenu.2 _ _, rfl, rfl, rfl, Yard.without_intact i o hmenu.1 (h.congr rfl) _,
    fun k hk => Yard.order?_without h hf _ _ _ hk, rfl⟩

include h hrows hf in
/-- What giving an order leaves. -/
theorem Yard.giveOrder_leaves (r : RunnerId) (c : Car) (hz : y.giveOrder r o c = z) :
    z.readyList = (y.readyList.filter fun e => e.order != n) ∧
    (∀ e, y.readyEntry? n = some e → ∀ w, z.rowCount w = y.rowCount w - (if e.row = some w then 1 else 0)) ∧
    z.order? n = some { o with state := .taken, taker := some r } ∧
    z.runners = y.runners.set r { held := some n, timer := loadMinutes y.takeLimit, last := none } ∧
    z.raised = y.raised ++ [.orderTaken r n o.car c.parkedBay] := by
  have hn := (Yard.findOrder_get h hf).2
  subst hn
  obtain ⟨orders, he, ho⟩ := y.giveOrder_eq r o c
  have horder : (y.modOrder o.number fun o => { o with state := .taken, taker := some r }).order? o.number =
      some { o with state := .taken, taker := some r } := by
    rw [Yard.order?_modOrder h (f := fun o => { o with state := .taken, taker := some r }) (fun _ => rfl)]
    unfold Yard.order?
    rw [hf]
    simp
  rw [← hz, he]
  refine ⟨rfl, fun e he w => Yard.rowCount_leaveReady hrows he w, ?_, rfl, rfl⟩
  unfold Yard.order? Yard.findOrder at *
  rw [← ho] at horder
  exact horder

end leaves

theorem Yard.freeRunner_runners {y z : Yard} (r : RunnerId) (hz : y.runners = z.runners) :
    (y.freeRunner r).runners = z.runners.set r { z.runners[r] with held := none, timer := none } := by
  unfold Yard.freeRunner Yard.setRunner
  rw [hz]

theorem Yard.setLast_runners {y z : Yard} (r : RunnerId) (n : Nat) (hz : y.runners = z.runners) :
    ((y.freeRunner r).setLast r n).runners =
      z.runners.set r { held := none, timer := none, last := some (n, .expired) } := by
  unfold Yard.setLast Yard.freeRunner Yard.setRunner
  rw [hz]
  simp

/-! ## The entry of an order on the ready list -/

theorem Yard.readyEntry?_first {y : Yard} {n : Nat} {pre post : List ReadyEntry} {e : ReadyEntry}
    (hl : y.readyList = pre ++ e :: post) (he : e.order = n) (hpre : ∀ p ∈ pre, p.order ≠ n) :
    y.readyEntry? n = some e := by
  have hnone : pre.find? (fun e => e.order == n) = none := List.find?_eq_none.2 fun p hp => by simpa using hpre p hp
  unfold Yard.readyEntry?
  rw [hl, List.find?_append, hnone, List.find?_cons_of_pos (by simpa using he)]
  rfl

theorem Yard.readyEntry?_listed {y : Yard} {n : Nat} (h : ∃ e ∈ y.readyList, e.order = n) :
    (y.readyEntry? n).isSome = true := by
  obtain ⟨e, he, hn⟩ := h
  exact List.find?_isSome.2 ⟨e, he, by simpa using hn⟩

theorem Yard.behind_cleared {z : Yard} {rs : List Report} (hz : z.raised = rs) :
    z = ({ z with raised := [] } : Yard).behind rs := by
  subst hz
  unfold Yard.behind
  rw [List.append_nil]

/-! ## TAKE -/

section take
variable {s : State} {tag kind arg n i : Nat} {r : RunnerId} {o : Order} {c : Car} {pre post : List ReadyEntry}
  {e : ReadyEntry}

theorem takeBody_walk {f : TakeFilter} (hk : (s.yard.runners[r]).held = none) (hf : ∀ n, f ≠ .order n) :
    takeBody r f s = ((Yard.walkReady r f s.yard.readyList s.yard).1,
      { s with yard := (Yard.walkReady r f s.yard.readyList s.yard).2 }) := by
  unfold takeBody
  rw [hk]
  cases f with
  | all => rfl
  | screen sc => rfl
  | order n => exact absurd rfl (hf n)

theorem takeBody_named (hk : (s.yard.runners[r]).held = none) (n : Nat) : takeBody r (.order n) s =
    ((Yard.takeNamed r n s.yard).1, { s with yard := (Yard.takeNamed r n s.yard).2 }) := by
  unfold takeBody
  rw [hk]
  rfl

/-- The filter of a take that walks the list, and the entries it passes before the one it meets. -/
def takesWalking (y : Yard) (o : Order) (kind arg : Nat) (pre : List ReadyEntry) : Prop :=
  kind = 0 ∧ pre = [] ∨
    kind = 2 ∧ arg = o.screen.val ∧ ∀ p ∈ pre, ∃ op, y.order? p.order = some op ∧ op.screen ≠ o.screen

theorem takesWalking.filter {y : Yard} (hw : takesWalking y o kind arg pre) : ∃ f, filterOf kind arg = .ok f ∧
    (∀ n, f ≠ .order n) ∧ f.fits o = true ∧ ∀ p ∈ pre, ∃ op, y.order? p.order = some op ∧ f.fits op = false := by
  rcases hw with ⟨rfl, rfl⟩ | ⟨rfl, rfl, hpre⟩
  · exact ⟨.all, rfl, fun n h => (by cases h), rfl, fun p hp => absurd hp (List.not_mem_nil)⟩
  · refine ⟨.screen o.screen, ?_, fun n h => (by cases h), decide_eq_true rfl, fun p hp => ?_⟩
    · unfold filterOf
      rw [finOf_val]
      rfl
    · obtain ⟨op, hop, hne⟩ := hpre p hp
      exact ⟨op, hop, decide_eq_false hne⟩

/-- A take of an order of a car in the table, by any filter. -/
theorem exec_take_gives (hs : s.ready) (hrun : s.link.part = .run) (hk : (s.yard.runners[r]).held = none)
    (h : s.yard.intact) (hf : s.yard.findOrder n = some (i, o)) (hc : s.yard.car? o.car = some c)
    (hl : s.yard.readyList = pre ++ e :: post) (he : e.order = n)
    (hkind : kind = 0 ∧ pre = [] ∨ kind = 1 ∧ arg = n ∧ 1 ≤ n ∧ n ≤ 9999 ∨ kind = 2 ∧ arg = o.screen.val ∧
      ∀ p ∈ pre, ∃ op, s.yard.order? p.order = some op ∧ op.screen ≠ o.screen) :
    exec (.take tag r.val kind arg) s = .next (({ s with yard := { s.yard.giveOrder r o c with raised := [] } } : State)
      |>.answered 0x30 tag (takeReply o c) (s.yard.giveOrder r o c).raised) := by
  have ho : s.yard.order? n = some o := congrArg (Option.map Prod.snd) hf
  have hlist : (s.yard.readyEntry? n).isSome = true := Yard.readyEntry?_listed ⟨e, by rw [hl]; simp, he⟩
  have hwalk : takesWalking s.yard o kind arg pre → exec (.take tag r.val kind arg) s = .next
      (({ s with yard := { s.yard.giveOrder r o c with raised := [] } } : State).answered 0x30 tag (takeReply o c)
        (s.yard.giveOrder r o c).raised) := by
    intro hw
    obtain ⟨f, hfilter, hnot, hfit, hpre⟩ := hw.filter
    refine exec_take hs hrun hfilter ?_
    rw [takeBody_walk hk hnot, hl, Yard.walkReady_skip h r f pre _ fun p hp => ?_,
      Yard.walkReady_whole h r f post (he.symm ▸ hlist) (he.symm ▸ ho) hfit hc]
    obtain ⟨op, hop, hunfit⟩ := hpre p hp
    exact .inr fun x hx => Option.some.inj (hop.symm.trans hx) ▸ hunfit
  rcases hkind with hnone | ⟨rfl, rfl, h1, h2⟩ | hscreen
  · exact hwalk (.inl hnone)
  · refine exec_take (f := .order arg) hs hrun ?_ ?_
    · unfold filterOf
      rw [if_pos (orderNumberOk_ok h1 h2)]
      rfl
    · rw [takeBody_named hk]
      unfold Yard.takeNamed
      dsimp only
      rw [Yard.readOrder_intact h, ho]
      dsimp only [Read.of]
      rw [if_pos hlist, Yard.readCar_intact h, hc]
      rfl
  · exact hwalk (.inr hscreen)

/-- A take by the list's order that meets an order whose car has gone: it goes on as a take of the yard without it. -/
theorem exec_take_meets_gone (hs : s.ready) (hrun : s.link.part = .run) (hk : (s.yard.runners[r]).held = none)
    (h : s.yard.intact) (hrows : Tab.wf 0 s.yard.rowCounts = true) (hf : s.yard.findOrder n = some (i, o))
    (hc : s.yard.car? o.car = none)
    (hl : s.yard.readyList = pre ++ e :: post) (he : e.order = n) (hw : takesWalking s.yard o kind arg pre)
    {voided : Report}
    (hv : voided = .orderVoided n o.car o.state .carLost (s.yard.unitsOf o true) (s.yard.unitsOf o false)) :
    ∃ (y : Yard) (w : State) (place : Place) (reports : List Report), s.yard.orderGone i o y ∧
      y.store.cars = s.yard.store.cars ∧ y.runners = s.yard.runners ∧ y.loops = s.yard.loops ∧ y.raised = [] ∧
      exec (.take tag r.val kind arg) { s with yard := y } = .next w ∧
      w.link = (s.link.addPlace place).after reports ∧ exec (.take tag r.val kind arg) s =
        .next { w with link := (s.link.addPlace place).after (voided :: reports) } := by
  have ho : s.yard.order? n = some o := congrArg (Option.map Prod.snd) hf
  have hn := (Yard.findOrder_get h hf).2
  have hlist : (s.yard.readyEntry? n).isSome = true := Yard.readyEntry?_listed ⟨e, by rw [hl]; simp, he⟩
  obtain ⟨f, hfilter, hnot, hfit, hpre⟩ := hw.filter
  obtain ⟨hgone, hcars, hrunners, hloops, hint, hfind, hraised⟩ := Yard.voidOrder_leaves h hrows hf (cause := .carLost) rfl
  have hstart := Yard.walkReady_gone h r f post (he.symm ▸ hlist) (he.symm ▸ ho) hfit hc
  have hready := Yard.voidOrder_readyList h (hn.symm ▸ hf) .carLost
  generalize s.yard.voidOrder o .carLost = z at *
  have hz : z = ({ z with raised := [] } : Yard).behind [voided] :=
    Yard.behind_cleared (hraised.trans (by rw [hs.1, hv]; rfl))
  have hwalk : Yard.walkReady r f s.yard.readyList s.yard =
      ((Yard.walkReady r f post { z with raised := [] }).1,
        (Yard.walkReady r f post { z with raised := [] }).2.behind [voided]) := by
    rw [hl, Yard.walkReady_skip h r f pre _ fun p hp => ?_, hstart, hz, Yard.walkReady_behind (y := { z with raised := [] }) r f _ _ (hint.congr rfl)]
    · rfl
    · obtain ⟨op, hop, hunfit⟩ := hpre p hp
      exact .inr fun x hx => Option.some.inj (hop.symm.trans hx) ▸ hunfit
  have hleft : Yard.walkReady r f z.readyList { z with raised := [] } =
      Yard.walkReady r f post { z with raised := [] } := by
    have hno : ∀ e ∈ z.readyList, e.order ≠ n := by
      rw [hready, hn]
      exact fun e he => by simpa using (List.mem_filter.1 he).2
    have hafter : z.readyList = (pre ++ e :: post).filter fun e => e.order != n := by rw [hready, hn, hl]
    refine (congrArg (fun l => Yard.walkReady r f l { z with raised := [] }) hafter).trans ?_
    rw [Yard.walkReady_filter (n := n) r f _ (y := { z with raised := [] }) (hint.congr rfl) hno]
    rw [Yard.walkReady_skip (y := { z with raised := [] }) (hint.congr rfl) r f pre _ fun p hp => ?_,
      Yard.walkReady_passed (y := { z with raised := [] }) (hint.congr rfl) r f post
        (.inl (List.find?_eq_none.2 fun x hx => by simpa [he] using hno x hx))]
    by_cases hpn : p.order = n
    · exact .inl (List.find?_eq_none.2 fun x hx => by simpa [hpn] using hno x hx)
    · obtain ⟨op, hop, hunfit⟩ := hpre p hp
      refine .inr fun x hx => ?_
      have hsame : z.order? p.order = s.yard.order? p.order := congrArg (Option.map Prod.snd) (hfind p.order hpn)
      exact Option.some.inj ((hop.symm.trans hsame.symm).trans hx) ▸ hunfit
  have hheld : ((z.runners)[r]).held = none := by rw [hrunners]; exact hk
  have hs' : ({ s with yard := { z with raised := [] } } : State).ready := ⟨rfl, hs.2⟩
  refine ⟨{ z with raised := [] }, _, .request 0x30 tag (Yard.walkReady r f post { z with raised := [] }).1,
    (Yard.walkReady r f post { z with raised := [] }).2.raised, hgone.congr rfl rfl rfl rfl rfl rfl, hcars, hrunners,
    hloops, rfl, exec_take hs' hrun hfilter ((takeBody_walk hheld hnot).trans ?_), rfl, ?_⟩
  · exact congrArg (fun a : Reply × Yard => (a.1, ({ s with yard := a.2 } : State))) hleft
  · exact exec_take hs hrun hfilter ((takeBody_walk hk hnot).trans (by rw [hwalk]))

/-- A take of a named order. -/
theorem exec_take_named (hs : s.ready) (hrun : s.link.part = .run) (hk : (s.yard.runners[r]).held = none) (h1 : 1 ≤ n)
    (h2 : n ≤ 9999) {rep : Reply} {y : Yard} (hb : Yard.takeNamed r n s.yard = (rep, y)) :
    exec (.take tag r.val 1 n) s =
      .next (({ s with yard := { y with raised := [] } } : State).answered 0x30 tag rep y.raised) := by
  refine exec_take (f := .order n) hs hrun ?_ ?_
  · unfold filterOf
    rw [if_pos (orderNumberOk_ok h1 h2)]
    rfl
  · rw [takeBody_named hk, hb]

/-- A take of a named order that leaves the yard as it is. -/
theorem exec_take_named_quiet (hs : s.ready) (hrun : s.link.part = .run) (hk : (s.yard.runners[r]).held = none)
    (h1 : 1 ≤ n) (h2 : n ≤ 9999) {rep : Reply} (hb : Yard.takeNamed r n s.yard = (rep, s.yard)) :
    exec (.take tag r.val 1 n) s = .next (s.answered 0x30 tag rep []) := by
  refine request_answers_quietly _ _ _ s s _ hs.2 ?_ hs.1
  unfold filterOf
  rw [if_pos (orderNumberOk_ok h1 h2)]
  exact (congrFun (withRunner_val r _) s).trans ((inRun_run _ _ hrun).trans (by rw [takeBody_named hk, hb]))

end take

/-! ## DELIVERED, RETURN and the take timer -/

section held
variable {s : State} {tag n i : Nat} {r : RunnerId} {o : Order} {c : Car}

theorem lateReply_eq {k : Runner} {late : Reply} (h : k.held = none ∧ (∀ cause, k.last ≠ some (n, cause)) ∧
      late = Reply.refuse .state ∨ k.held = none ∧ k.last = some (n, .expired) ∧ late = Reply.refuse .tooLate ∨
    k.held = none ∧ k.last = some (n, .lost) ∧ late = Reply.refuse .storeError ∨
    ∃ m, k.held = some m ∧ late = { result := .state, indication := .none, fields := [.raw (u16 m)] }) :
    lateReply k n = late := by
  unfold lateReply
  rcases h with ⟨hheld, hlast, rfl⟩ | ⟨hheld, hlast, rfl⟩ | ⟨hheld, hlast, rfl⟩ | ⟨m, hheld, rfl⟩
  · rw [hheld]
    rcases hk : k.last with _ | ⟨m, _ | _⟩
    · rfl
    · exact congrArg Reply.refuse (if_neg fun (h : m = n) => hlast .expired (h ▸ hk))
    · exact congrArg Reply.refuse (if_neg fun (h : m = n) => hlast .lost (h ▸ hk))
  · rw [hheld, hlast]
    exact congrArg Reply.refuse (if_pos rfl)
  · rw [hheld, hlast]
    exact congrArg Reply.refuse (if_pos rfl)
  · rw [hheld]

/-- What a runner's action leaves of the yard, and what it answers, where the runner holds the order. -/
theorem exec_delivered_held (hs : s.ready) (hrun : s.link.part = .run) (h1 : 1 ≤ n) (h2 : n ≤ 9999)
    (hheld : (s.yard.runners[r]).held = some n) {rep : Reply} {y : Yard}
    (hb : deliverHeld r n s = (rep, { s with yard := y })) : exec (.delivered tag r.val n) s =
      .next (({ s with yard := { y with raised := [] } } : State).answered 0x31 tag rep y.raised) :=
  exec_settle hs hrun h1 h2 ((settleBody_held hheld).trans hb)

theorem exec_return_held (hs : s.ready) (hrun : s.link.part = .run) (h1 : 1 ≤ n) (h2 : n ≤ 9999)
    (hheld : (s.yard.runners[r]).held = some n) {rep : Reply} {y : Yard}
    (hb : returnHeld r n s = (rep, { s with yard := y })) : exec (.returnOrder tag r.val n) s =
      .next (({ s with yard := { y with raised := [] } } : State).answered 0x32 tag rep y.raised) :=
  exec_settle hs hrun h1 h2 ((settleBody_held hheld).trans hb)

theorem takeExpired_held {y z : Yard} {k : HeldRead} (hheld : (y.runners[r]).held = some n)
    (ht : (y.runners[r]).timer.isSome = true) (hk : y.readHeld n = (k, y))
    (hwhole : ∀ o c, k = .whole o c →
      (((y.backToPass o c).freeRunner r).setLast r n).raise (.takeExpired r n o.car c.parkedBay false) = z)
    (hgone : ∀ o, k = .carGone o → ((y.voidHeld r o).setLast r n).raise (.takeExpired r n o.car none true) = z)
    (hread : k ≠ .orderFault ∧ ∀ o, k ≠ .carFault o) : y.takeExpired r = z := by
  obtain ⟨t, ht⟩ := Option.isSome_iff_exists.1 ht
  unfold Yard.takeExpired
  split
  case h_1 m _ hm _ =>
    cases hheld.symm.trans hm
    rw [hk]
    cases k with
    | whole o c => exact hwhole o c rfl
    | carGone o => exact hgone o rfl
    | carFault o => exact absurd rfl (hread.2 o)
    | orderFault => exact absurd rfl hread.1
  case h_2 hnone => exact absurd ht (hnone n t hheld)

theorem takeExpired_whole {y : Yard} (hheld : (y.runners[r]).held = some n) (ht : (y.runners[r]).timer.isSome = true)
    (hk : y.readHeld n = (.whole o c, y)) : y.takeExpired r =
      (((y.backToPass o c).freeRunner r).setLast r n).raise (.takeExpired r n o.car c.parkedBay false) :=
  takeExpired_held hheld ht hk (fun _ _ h => by cases h; rfl) (fun _ h => (by cases h))
    ⟨fun h => (by cases h), fun _ h => (by cases h)⟩

theorem takeExpired_gone {y : Yard} (hheld : (y.runners[r]).held = some n) (ht : (y.runners[r]).timer.isSome = true)
    (hk : y.readHeld n = (.carGone o, y)) : y.takeExpired r =
      ((y.voidHeld r o).setLast r n).raise (.takeExpired r n o.car none true) :=
  takeExpired_held hheld ht hk (fun _ _ h => (by cases h)) (fun _ h => by cases h; rfl)
    ⟨fun h => (by cases h), fun _ h => (by cases h)⟩

theorem takeExpired_idle {y : Yard} (ht : (y.runners[r]).timer = none) : y.takeExpired r = y := by
  unfold Yard.takeExpired
  split
  case h_1 _ _ _ hsome => cases ht.symm.trans hsome
  case h_2 => rfl

/-- The order of a car in the table goes back to the pass at a RETURN and at the timer's expiry, and is settled by a
DELIVERED. -/
theorem held_settles (hs : s.settled) (h : s.yard.intact) (hrows : Tab.wf 0 s.yard.rowCounts = true)
    (hf : s.yard.findOrder n = some (i, o)) (hc : s.yard.car? o.car = some c)
    (hheld : (s.yard.runners[r]).held = some n) (hgone : o.carGone = false) :
    (s.link.roomy → s.link.part = .run → 1 ≤ n → n ≤ 9999 →
      (∃ (t : State) (reports : List Report), exec (.delivered tag r.val n) s = .next t ∧
        (t.yard.orderSlot i).record? = none ∧
        t.yard.car? o.car = some { c with orders := c.orders.filter fun j => j != n } ∧
        t.yard.runners = s.yard.runners.set r { s.yard.runners[r] with held := none, timer := none } ∧
        t.yard.readyList = s.yard.readyList ∧
        t.link = (s.link.addPlace (.request 0x31 tag Reply.ok)).after
          (reports ++ [.delivered r n o.car c.parkedBay o.total false])) ∧
      (∃ t, exec (.returnOrder tag r.val n) s = .next t ∧
        t.yard.order? n = some { o with state := .ready, taker := none } ∧
        t.yard.readyList = { order := n, car := o.car, row := c.row } :: s.yard.readyList ∧
        (∀ w, c.row = some w → t.yard.rowCount w = s.yard.rowCount w + 1) ∧
        t.yard.runners = s.yard.runners.set r { s.yard.runners[r] with held := none, timer := none } ∧
        t.link = (s.link.addPlace (.request 0x32 tag Reply.ok)).after [.orderReturned r n])) ∧
    ((s.yard.runners[r]).timer.isSome = true → ∃ t, exec (.takeTimerExpiry r) s = .next t ∧
      t.yard.order? n = some { o with state := .ready, taker := none } ∧
      t.yard.readyList = { order := n, car := o.car, row := c.row } :: s.yard.readyList ∧
      t.yard.runners = s.yard.runners.set r { held := none, timer := none, last := some (n, .expired) } ∧
      t.link = s.link.after [.takeExpired r n o.car c.parkedBay false]) := by
  have hn := (Yard.findOrder_get h hf).2
  have hread := Yard.readHeld_whole h hf hc hgone
  refine ⟨fun hroom hrun h1 h2 => ⟨?_, ?_⟩, fun ht => ?_⟩
  · obtain ⟨hslot, hcar, hruns, hlist, rs, hsaid⟩ := Yard.settleDelivery_leaves h hf hc r rfl
    have hb : deliverHeld r n s = (Reply.ok, { s with yard := s.yard.settleDelivery r o c }) := by
      unfold deliverHeld
      rw [hread]
      rfl
    rw [hs, hn, List.nil_append] at hsaid
    rw [hn] at hcar
    generalize s.yard.settleDelivery r o c = z at *
    refine ⟨_, rs, exec_delivered_held ⟨hs, hroom⟩ hrun h1 h2 hheld hb, hslot, hcar, hruns, hlist, ?_⟩
    exact congrArg (Link.after (s.link.addPlace (.request 0x31 tag Reply.ok))) hsaid
  · have hb : returnHeld r n s = (Reply.ok, { s with
        yard := ((s.yard.backToPass o c).freeRunner r).raise (.orderReturned r o.number) }) := by
      unfold returnHeld
      rw [hread]
      rfl
    obtain ⟨ho, hready, hcount, hrunners, hraised⟩ := Yard.backToPass_leaves h hrows hf c rfl
    generalize s.yard.backToPass o c = z at *
    rw [hn] at hb
    refine ⟨_, exec_return_held ⟨hs, hroom⟩ hrun h1 h2 hheld hb, ho, hready, hcount,
      Yard.freeRunner_runners r hrunners, ?_⟩
    exact congrArg (fun l => (s.link.addPlace (.request 0x32 tag Reply.ok)).after (l ++ [.orderReturned r n]))
      (hraised.trans hs)
  · have hb := takeExpired_whole hheld ht hread
    obtain ⟨ho, hready, hcount, hrunners, hraised⟩ := Yard.backToPass_leaves h hrows hf c rfl
    obtain ⟨w, hw, ho, hready, hruns, hsaid⟩ : ∃ w, s.yard.takeExpired r = w ∧
        w.order? n = some { o with state := .ready, taker := none } ∧
        w.readyList = { order := n, car := o.car, row := c.row } :: s.yard.readyList ∧
        w.runners = s.yard.runners.set r { held := none, timer := none, last := some (n, .expired) } ∧
        w.raised = [.takeExpired r n o.car c.parkedBay false] := by
      generalize s.yard.backToPass o c = z at *
      exact ⟨_, hb, ho, hready, Yard.setLast_runners r n hrunners, congrArg (· ++ _) (hraised.trans hs)⟩
    exact ⟨_, event_yard hw, ho, hready, hruns, congrArg s.link.after hsaid⟩

/-- The order of a car that has gone is voided by each of the three. -/
theorem held_voided (hs : s.settled) (h : s.yard.intact) (hrows : Tab.wf 0 s.yard.rowCounts = true)
    (hf : s.yard.findOrder n = some (i, o)) (hc : s.yard.car? o.car = none) (hheld : (s.yard.runners[r]).held = some n)
    {voided : Report}
    (hv : voided = .orderVoided n o.car o.state (goneCause o) (s.yard.unitsOf o true) (s.yard.unitsOf o false)) :
    (s.link.roomy → s.link.part = .run → 1 ≤ n → n ≤ 9999 →
      (∃ t, exec (.delivered tag r.val n) s = .next t ∧ s.yard.orderGone i o t.yard ∧
        t.yard.runners = s.yard.runners.set r { s.yard.runners[r] with held := none, timer := none } ∧
        t.yard.store.cars = s.yard.store.cars ∧
        t.link = (s.link.addPlace (.request 0x31 tag
          { result := .ok, indication := .carGone, fields := [] })).after
            [voided, .delivered r n o.car none o.total true]) ∧
      (∃ t, exec (.returnOrder tag r.val n) s = .next t ∧ s.yard.orderGone i o t.yard ∧
        t.yard.runners = s.yard.runners.set r { s.yard.runners[r] with held := none, timer := none } ∧
        t.yard.store.cars = s.yard.store.cars ∧
        t.link = (s.link.addPlace (.request 0x32 tag
          { result := .ok, indication := .voided, fields := [] })).after [voided])) ∧
    ((s.yard.runners[r]).timer.isSome = true → ∃ t, exec (.takeTimerExpiry r) s = .next t ∧
      s.yard.orderGone i o t.yard ∧
      t.yard.runners = s.yard.runners.set r { held := none, timer := none, last := some (n, .expired) } ∧
      t.link = s.link.after [voided, .takeExpired r n o.car none true]) := by
  have hn := (Yard.findOrder_get h hf).2
  have hread := Yard.readHeld_lost h hf hc
  obtain ⟨hgone, hcars, hrunners, -, -, -, hraised⟩ := Yard.voidOrder_leaves h hrows hf (cause := goneCause o) rfl
  rw [hs, ← hv, List.nil_append] at hraised
  refine ⟨fun hroom hrun h1 h2 => ⟨?_, ?_⟩, fun ht => ?_⟩
  · have hb : deliverHeld r n s = (Reply.okNote .carGone, { s with
        yard := (s.yard.voidHeld r o).raise (.delivered r o.number o.car none o.total true) }) := by
      unfold deliverHeld
      rw [hread]
      rfl
    unfold Yard.voidHeld at hb
    generalize s.yard.voidOrder o (goneCause o) = z at *
    rw [hn] at hb
    refine ⟨_, exec_delivered_held ⟨hs, hroom⟩ hrun h1 h2 hheld hb, hgone.congr rfl rfl rfl rfl rfl rfl,
      Yard.freeRunner_runners r hrunners, hcars, ?_⟩
    exact congrArg (fun l => (s.link.addPlace (.request 0x31 tag { result := .ok, indication := .carGone, fields := [] }))
      |>.after (l ++ [.delivered r n o.car none o.total true])) hraised
  · have hb : returnHeld r n s = (Reply.okNote .voided, { s with yard := s.yard.voidHeld r o }) := by
      unfold returnHeld
      rw [hread]
      rfl
    obtain ⟨w, hw, hgone, hruns, hcars, hsaid⟩ : ∃ w, s.yard.voidHeld r o = w ∧ s.yard.orderGone i o w ∧
        w.runners = s.yard.runners.set r { s.yard.runners[r] with held := none, timer := none } ∧
        w.store.cars = s.yard.store.cars ∧ w.raised = [voided] := by
      unfold Yard.voidHeld
      generalize s.yard.voidOrder o (goneCause o) = z at *
      exact ⟨_, rfl, hgone.congr rfl rfl rfl rfl rfl rfl, Yard.freeRunner_runners r hrunners, hcars, hraised⟩
    rw [hw] at hb
    refine ⟨_, exec_return_held ⟨hs, hroom⟩ hrun h1 h2 hheld hb, hgone.congr rfl rfl rfl rfl rfl rfl, hruns, hcars, ?_⟩
    exact congrArg (Link.after (s.link.addPlace (.request 0x32 tag
      { result := .ok, indication := .voided, fields := [] }))) hsaid
  · have hb := takeExpired_gone hheld ht hread
    unfold Yard.voidHeld at hb
    obtain ⟨w, hw, hgone, hruns, hsaid⟩ : ∃ w, s.yard.takeExpired r = w ∧ s.yard.orderGone i o w ∧
        w.runners = s.yard.runners.set r { held := none, timer := none, last := some (n, .expired) } ∧
        w.raised = [voided, .takeExpired r n o.car none true] := by
      generalize s.yard.voidOrder o (goneCause o) = z at *
      exact ⟨_, hb, hgone.congr rfl rfl rfl rfl rfl rfl, Yard.setLast_runners r n hrunners, congrArg (· ++ _) hraised⟩
    exact ⟨_, event_yard hw, hgone.congr rfl rfl rfl rfl rfl rfl, hruns, congrArg s.link.after hsaid⟩

end held

end Sys2Proof.Machine
end

section
/-! PROOF. Runner takes: what each of the runners' requests does (R178 to R188). -/

namespace Sys2Proof.Machine

section take
variable {s : State} {tag n i : Nat} {r : RunnerId} {o : Order} {c : Car}

theorem exec_runnerSet (hs : s.ready) (v : Nat) : exec (.runnerSet tag v) s =
    .next (({ s with yard := { s.yard with takeLimit := clampTimer 1 60 v } } : State).answered 0x33 tag
      (if clampTimer 1 60 v = v then Reply.ok
        else { result := .clamped, indication := .none, fields := [.raw (u8 (clampTimer 1 60 v))] }) []) := by
  rw [← Reply.setting_iff (q := clampTimer 1 60 v ≠ v) Iff.rfl]
  exact request_answers_quietly 0x33 tag _ s { s with yard := { s.yard with takeLimit := clampTimer 1 60 v } } _ hs.2 rfl
    hs.1

theorem exec_take_paused (hs : s.ready) (hrun : s.link.part = .run) (hk : (s.yard.runners[r]).held = some n) (arg : Nat) :
    exec (.take tag r.val 0 arg) s =
      .next (s.answered 0x30 tag { result := .paused, indication := .none, fields := [.raw (u16 n)] } []) := by
  refine request_answers_quietly _ _ _ s s _ hs.2 ?_ hs.1
  refine (congrFun (withRunner_val r _) s).trans ((inRun_run _ _ hrun).trans ?_)
  unfold takeBody
  rw [hk]

theorem exec_take_empty (hs : s.ready) (hrun : s.link.part = .run) (hk : (s.yard.runners[r]).held = none)
    (hl : s.yard.readyList = []) (arg : Nat) :
    exec (.take tag r.val 0 arg) s = .next (s.answered 0x30 tag (Reply.refuse .noSuch) []) := by
  refine request_answers_quietly _ _ _ s s _ hs.2 ?_ hs.1
  refine (congrFun (withRunner_val r _) s).trans ((inRun_run _ _ hrun).trans ?_)
  rw [takeBody_walk hk fun n h => (by cases h), hl]
  rfl

/-- The take of an order of a car in the table. -/
theorem take_gives (hs : s.ready) (hrun : s.link.part = .run) (hk : (s.yard.runners[r]).held = none)
    (h : s.yard.intact) (hrows : Tab.wf 0 s.yard.rowCounts = true) (hf : s.yard.findOrder n = some (i, o))
    (hc : s.yard.car? o.car = some c) {kind arg : Nat} {pre post : List ReadyEntry} {e : ReadyEntry}
    (hl : s.yard.readyList = pre ++ e :: post) (he : e.order = n)
    (hkind : kind = 0 ∧ pre = [] ∨ kind = 1 ∧ arg = n ∧ 1 ≤ n ∧ n ≤ 9999 ∨ kind = 2 ∧ arg = o.screen.val ∧
      ∀ p ∈ pre, ∃ op, s.yard.order? p.order = some op ∧ op.screen ≠ o.screen) {rep : Reply} (hrep : takeReply o c = rep) :
    ∃ t, exec (.take tag r.val kind arg) s = .next t ∧
      t.yard.readyList = (s.yard.readyList.filter fun e => e.order != n) ∧
      ((∀ p ∈ pre, p.order ≠ n) →
        ∀ w, t.yard.rowCount w = s.yard.rowCount w - (if e.row = some w then 1 else 0)) ∧
      t.yard.order? n = some { o with state := .taken, taker := some r } ∧
      t.yard.runners = s.yard.runners.set r
        { held := some n, timer := if s.yard.takeLimit = 0 then none else some (s.yard.takeLimit * 60000),
          last := none } ∧
      t.link = (s.link.addPlace (.request 0x30 tag rep)).after [.orderTaken r n o.car c.parkedBay] ∧
      t.screens = s.screens ∧ t.sound = s.sound ∧ t.lanes = s.lanes := by
  subst hrep
  have hexec := exec_take_gives (tag := tag) hs hrun hk h hf hc hl he hkind
  obtain ⟨hready, hcount, ho, hrunners, hraised⟩ := Yard.giveOrder_leaves h hrows hf r c rfl
  generalize s.yard.giveOrder r o c = z at *
  refine ⟨_, hexec, hready, fun hpre w => ?_, ho, hrunners, ?_, rfl, rfl, rfl⟩
  · exact hcount e (Yard.readyEntry?_first hl he hpre) w
  · rw [hs.1] at hraised
    exact congrArg (Link.after (s.link.addPlace (.request 0x30 tag (takeReply o c)))) hraised

theorem take_unlisted (hs : s.ready) (hrun : s.link.part = .run) (hk : (s.yard.runners[r]).held = none)
    (h : s.yard.intact) (hf : s.yard.findOrder n = some (i, o)) (h1 : 1 ≤ n) (h2 : n ≤ 9999)
    (hl : ∀ e ∈ s.yard.readyList, e.order ≠ n) : exec (.take tag r.val 1 n) s = .next (s.answered 0x30 tag
      { result := .state, indication := .none,
        fields := [.raw (u8 o.state.ctorIdx ++ opt (fun j : RunnerId => u8 j) o.taker)] } []) := by
  have ho : s.yard.order? n = some o := congrArg (Option.map Prod.snd) hf
  have hnone : s.yard.readyEntry? n = none := List.find?_eq_none.2 fun e he => by simpa using hl e he
  refine exec_take_named_quiet hs hrun hk h1 h2 ?_
  unfold Yard.takeNamed
  rw [hnone, Yard.readOrder_intact h, ho]
  rfl

theorem take_unknown (hs : s.ready) (hrun : s.link.part = .run) (hk : (s.yard.runners[r]).held = none)
    (hf : s.yard.findOrder n = none) (h1 : 1 ≤ n) (h2 : n ≤ 9999) :
    exec (.take tag r.val 1 n) s = .next (s.answered 0x30 tag (Reply.refuse .noSuch) []) := by
  refine exec_take_named_quiet hs hrun hk h1 h2 ?_
  unfold Yard.takeNamed Yard.readOrder
  rw [hf]

/-- A named order whose car has gone is voided. -/
theorem take_named_gone (hs : s.ready) (hrun : s.link.part = .run) (hk : (s.yard.runners[r]).held = none)
    (h : s.yard.intact) (hrows : Tab.wf 0 s.yard.rowCounts = true) (hf : s.yard.findOrder n = some (i, o))
    (hc : s.yard.car? o.car = none) (h1 : 1 ≤ n) (h2 : n ≤ 9999) (hl : ∃ e ∈ s.yard.readyList, e.order = n)
    {voided : Report}
    (hv : voided = .orderVoided n o.car o.state .carLost (s.yard.unitsOf o true) (s.yard.unitsOf o false)) :
    ∃ t, exec (.take tag r.val 1 n) s = .next t ∧ s.yard.orderGone i o t.yard ∧
      t.yard.runners = s.yard.runners ∧ t.yard.store.cars = s.yard.store.cars ∧
      t.link = (s.link.addPlace (.request 0x30 tag
        { result := .noSuch, indication := .voided, fields := [] })).after [voided] := by
  have ho : s.yard.order? n = some o := congrArg (Option.map Prod.snd) hf
  have hb : Yard.takeNamed r n s.yard =
      ({ result := .noSuch, indication := .voided, fields := [] }, s.yard.voidOrder o .carLost) := by
    unfold Yard.takeNamed
    rw [Yard.readOrder_intact h, ho]
    dsimp only [Read.of]
    rw [if_pos (Yard.readyEntry?_listed hl), Yard.readCar_intact h, hc]
    rfl
  obtain ⟨hgone, hcars, hrunners, -, -, -, hraised⟩ := Yard.voidOrder_leaves h hrows hf (cause := .carLost) rfl
  generalize s.yard.voidOrder o .carLost = z at *
  refine ⟨_, exec_take_named hs hrun hk h1 h2 hb, hgone.congr rfl rfl rfl rfl rfl rfl, hrunners, hcars, ?_⟩
  rw [hs.1, ← hv] at hraised
  exact congrArg (Link.after (s.link.addPlace (.request 0x30 tag
    { result := .noSuch, indication := .voided, fields := [] }))) hraised

end take

/-- Settles O53: the requests of the runners one by one, the gone car's order by the walk that goes on without it. -/
theorem runnersTakeOrders : Obligations.RunnersTakeOrders := by
  unfold Obligations.RunnersTakeOrders
  intro s tag r k hs hk
  subst hk
  refine ⟨fun ht => event_yard_same (f := fun _ y => y.takeExpired r) hs (takeExpired_idle ht), fun hroom v n hn => ?_, fun hroom hrun => ⟨fun n hk arg =>
    exec_take_paused ⟨hs, hroom⟩ hrun hk arg, fun hk hl arg => exec_take_empty ⟨hs, hroom⟩ hrun hk hl arg,
    fun n late h1 h2 hk hlate => ?_⟩, fun hw hu n i o c bay row hf hc hbay hrow => ?_,
    fun hroom hrun hk n h1 h2 hf => take_unknown ⟨hs, hroom⟩ hrun hk hf h1 h2,
    fun hw hu n i o voided hf hc hv => ?_⟩
  · subst hn
    exact exec_runnerSet ⟨hs, hroom⟩ v
  · rw [← lateReply_eq hlate]
    exact ⟨exec_settle_late ⟨hs, hroom⟩ hrun h1 h2 hk, exec_settle_late ⟨hs, hroom⟩ hrun h1 h2 hk⟩
  · obtain ⟨h, hrows⟩ := State.intact_rows hw hu
    obtain rfl : bay = c.parkedBay := hbay
    obtain rfl : row = c.row := by rw [hrow, Car.row_eq]; rfl
    refine ⟨fun hroom hrun hk kind arg e pre post hl he hkind => ?_, fun hheld hgone => ?_,
      fun hroom hrun hk h1 h2 hl => take_unlisted ⟨hs, hroom⟩ hrun hk h hf h1 h2 hl⟩
    · refine take_gives ⟨hs, hroom⟩ hrun hk h hrows hf hc hl he hkind ?_
      unfold takeReply
      rw [← Car.row_eq, (Yard.findOrder_get h hf).2]
      rfl
    · exact held_settles hs h hrows hf hc hheld hgone
  · obtain ⟨h, hrows⟩ := State.intact_rows hw hu
    refine ⟨fun hroom hrun hk h1 h2 hl => take_named_gone ⟨hs, hroom⟩ hrun hk h hrows hf hc h1 h2 hl (hv _),
      fun hroom hrun hk kind arg e pre post hl he hkind =>
        exec_take_meets_gone ⟨hs, hroom⟩ hrun hk h hrows hf hc hl he hkind (hv _), fun hheld cause hcause => ?_⟩
    exact held_voided hs h hrows hf hc hheld (hcause ▸ hv _)

end Sys2Proof.Machine
end

section
/-! PROOF. The walk of a station's queue where every record is readable (R162, R164). -/

namespace Sys2Proof.Machine

theorem Yard.readLine_intact {y : Yard} (h : y.intact) (n item : Nat) : y.readLine n item =
    ((y.order? n).elim .gone fun o => .whole { order := o, car := y.car? o.car }, y) := by
  unfold Yard.readLine
  rw [Yard.readOrder_intact h]
  cases y.order? n with
  | none => rfl
  | some o =>
    dsimp only [Read.of]
    rw [Yard.readCar_intact h]
    cases hc : y.car? o.car with
    | none =>
      dsimp only [Read.of]
      rw [Yard.readItem_intact h]
      cases y.item? item <;> simp [Read.of, Read.record?, hc]
    | some c =>
      dsimp only [Read.of]
      rw [Yard.readItem_intact h]
      cases y.item? item <;> simp [Read.of, Read.record?, hc]

/-- A reference that the walk passes: it is not PENDING, has left the queue, or its order is not in the table. -/
def Yard.idleRef (y : Yard) (st : StationId) (q : LineRef) : Prop :=
  (q.state = .pending → q ∉ y.queues[st]) ∨ y.order? q.order = none

section walk
variable {y : Yard} (st : StationId)

theorem Yard.walkQueue_inactive {q : LineRef} (qs : List LineRef) (hq : q.state = .pending → q ∉ y.queues[st]) :
    Yard.walkQueue st (q :: qs) y = Yard.walkQueue st qs y := by
  rw [Yard.walkQueue, if_neg fun h => hq h.1 h.2]

theorem Yard.walkQueue_nothing (qs : List LineRef) (hqs : ∀ q ∈ qs, q.state ≠ .pending) :
    Yard.walkQueue st qs y = (Reply.refuse .noSuch, y) := by
  induction qs with
  | nil => rfl
  | cons q qs ih =>
    obtain ⟨hq, hqs⟩ := List.forall_mem_cons.1 hqs
    rw [Yard.walkQueue_inactive st qs fun h => absurd h hq, ih hqs]

theorem Yard.walkQueue_passed (h : y.intact) {q : LineRef} (qs : List LineRef) (hq : y.idleRef st q) :
    Yard.walkQueue st (q :: qs) y = Yard.walkQueue st qs y := by
  rcases hq with hq | ho
  · exact Yard.walkQueue_inactive st qs hq
  · rw [Yard.walkQueue, Yard.readLine_intact h, ho]
    split <;> rfl

theorem Yard.walkQueue_gone (h : y.intact) {q : LineRef} (qs : List LineRef) {o : Order} (hq : q.state = .pending)
    (hmem : q ∈ y.queues[st]) (ho : y.order? q.order = some o) (hc : y.car? o.car = none) :
    Yard.walkQueue st (q :: qs) y = Yard.walkQueue st qs (y.settleGone o .carLost) := by
  rw [Yard.walkQueue, if_pos ⟨hq, hmem⟩, Yard.readLine_intact h, ho]
  dsimp only [Option.elim]
  rw [hc]

theorem Yard.walkQueue_whole (h : y.intact) {q : LineRef} (qs : List LineRef) {o : Order} {c : Car}
    (hq : q.state = .pending) (hmem : q ∈ y.queues[st]) (ho : y.order? q.order = some o) (hc : y.car? o.car = some c) :
    Yard.walkQueue st (q :: qs) y = (nextReply q o ((y.startLine st q).pendingLeft st), y.startLine st q) := by
  rw [Yard.walkQueue, if_pos ⟨hq, hmem⟩, Yard.readLine_intact h, ho]
  dsimp only [Option.elim]
  rw [hc]

/-- A reference that is not passed is that of a line to start. -/
theorem Yard.met_of_not_idle {q : LineRef} (hq : ¬y.idleRef st q) :
    q.state = .pending ∧ q ∈ y.queues[st] ∧ ∃ o, y.order? q.order = some o := by
  unfold Yard.idleRef at hq
  push Not at hq
  obtain ⟨⟨hstate, hmem⟩, ho⟩ := hq
  exact ⟨hstate, hmem, Option.ne_none_iff_exists'.1 ho⟩

theorem Yard.walkQueue_skip (h : y.intact) (pre qs : List LineRef) (hpre : ∀ p ∈ pre, y.idleRef st p) :
    Yard.walkQueue st (pre ++ qs) y = Yard.walkQueue st qs y := by
  induction pre with
  | nil => rfl
  | cons p ps ih =>
    obtain ⟨hp, hps⟩ := List.forall_mem_cons.1 hpre
    rw [List.cons_append, Yard.walkQueue_passed st h _ hp, ih hps]

theorem Yard.behind_startLine (rs : List Report) (y : Yard) (q : LineRef) :
    (y.behind rs).startLine st q = (y.startLine st q).behind rs := by
  have hmark (w : Yard) : (w.behind rs).markRef st q.order q.line .making =
      (w.markRef st q.order q.line .making).behind rs := rfl
  unfold Yard.startLine
  rw [Yard.behind_modOrder, hmark]
  exact Yard.behind_modItem rs _ _ _

/-- Reports ahead of a yard's own change nothing of the walk. -/
theorem Yard.walkQueue_behind (rs : List Report) (qs : List LineRef) {y : Yard} (h : y.intact) :
    Yard.walkQueue st qs (y.behind rs) = ((Yard.walkQueue st qs y).1, (Yard.walkQueue st qs y).2.behind rs) := by
  induction qs generalizing y with
  | nil => rfl
  | cons q qs ih =>
    have hb : (y.behind rs).intact := h.congr rfl
    by_cases hq : y.idleRef st q
    · rw [Yard.walkQueue_passed st hb qs hq, Yard.walkQueue_passed st h qs hq, ih h]
    · obtain ⟨hstate, hmem, o, ho⟩ := Yard.met_of_not_idle st hq
      cases hc : y.car? o.car with
      | none =>
        obtain ⟨i, hf, hn⟩ := Yard.find_of_order? h ho
        rw [← hn] at hf
        rw [Yard.walkQueue_gone st hb qs hstate hmem ho hc, Yard.walkQueue_gone st h qs hstate hmem ho hc,
          Yard.behind_settleGone rs h, ih (Yard.settleGone_intact h hf _)]
      | some c =>
        rw [Yard.walkQueue_whole st hb qs hstate hmem ho hc, Yard.walkQueue_whole st h qs hstate hmem ho hc,
          Yard.behind_startLine]
        rfl

/-- References of an order that is not in the queue are passed. -/
theorem Yard.walkQueue_filter {n : Nat} (qs : List LineRef) {y : Yard} (h : y.intact)
    (hn : ∀ q ∈ y.queues[st], q.order ≠ n) :
    Yard.walkQueue st (qs.filter fun q => q.order != n) y = Yard.walkQueue st qs y := by
  induction qs generalizing y with
  | nil => rfl
  | cons q qs ih =>
    by_cases hq : y.idleRef st q
    · rw [Yard.walkQueue_passed st h qs hq]
      by_cases hqn : q.order = n
      · rw [List.filter_cons_of_neg (by simp [hqn]), ih h hn]
      · rw [List.filter_cons_of_pos (by simp [hqn]), Yard.walkQueue_passed st h _ hq, ih h hn]
    · obtain ⟨hstate, hmem, o, ho⟩ := Yard.met_of_not_idle st hq
      rw [List.filter_cons_of_pos (by simpa using hn q hmem)]
      cases hc : y.car? o.car with
      | none =>
        obtain ⟨i, hf, hno⟩ := Yard.find_of_order? h ho
        rw [← hno] at hf
        rw [Yard.walkQueue_gone st h _ hstate hmem ho hc, Yard.walkQueue_gone st h qs hstate hmem ho hc,
          ih (Yard.settleGone_intact h hf _)]
        intro x hx
        rw [Yard.settleGone_queues h hf] at hx
        exact hn x (List.mem_of_mem_filter hx)
      | some c => rw [Yard.walkQueue_whole st h _ hstate hmem ho hc, Yard.walkQueue_whole st h qs hstate hmem ho hc]

end walk

/-! ## What the settlement of a gone car's order leaves -/

theorem Order.cancellable_iff (o : Order) : o.cancellable = true ↔
    o.state = .held ∨ o.state = .queued ∧ ∀ l ∈ o.lines, l.state = .pending := by
  simp [Order.cancellable, Order.unstarted]

section settled
variable {y z : Yard} (h : y.intact) (hrows : Tab.wf 0 y.rowCounts = true) {n i : Nat} {o : Order}
variable (hf : y.findOrder n = some (i, o))
include h hrows hf

theorem Yard.settleGone_leaves {cause : VoidCause} (hz : y.settleGone o cause = z) : y.orderGone i o z ∧
    z.store.cars = y.store.cars ∧ z.runners = y.runners ∧ z.loops = y.loops ∧ z.intact ∧
    z.raised = y.raised ++ [if o.cancellable then .orderCancelled n o.car o.state .departed
      else .orderVoided n o.car o.state cause (y.unitsOf o true) (y.unitsOf o false)] := by
  have hn := (Yard.findOrder_get h hf).2
  subst hn
  obtain ⟨menu, hmenu, he⟩ := Yard.settleGone_eq h hf cause
  rw [← hz, he]
  exact ⟨Yard.without_gone h hrows hmenu.2 _ _, rfl, rfl, rfl, Yard.without_intact i o hmenu.1 (h.congr rfl) _, rfl⟩

end settled

end Sys2Proof.Machine
end

section
/-! PROOF. Kitchen stations: STATION NEXT and STATION DONE (R162 to R166). -/

namespace Sys2Proof.Machine

/-! ## Writes of an order found -/

section order
variable {y : Yard} {n i : Nat} {o : Order}

/-- A write of an order goes by what it makes of the record found. -/
theorem Yard.modOrder_congr (hf : y.findOrder n = some (i, o)) {f g : Order → Order} (hfg : f o = g o) :
    y.modOrder n f = y.modOrder n g := by
  unfold Yard.modOrder
  rw [hf]
  dsimp only
  rw [hfg]

theorem Yard.order?_modOrder_same (h : y.intact) (hf : y.findOrder n = some (i, o)) {f : Order → Order}
    (hnum : ∀ o, (f o).number = o.number) : (y.modOrder n f).order? n = some (f o) := by
  have ho : y.order? n = some o := congrArg (Option.map Prod.snd) hf
  rw [Yard.order?_modOrder h hnum, ho]
  simp

theorem Yard.findOrder_modOrder_same (h : y.intact) (hf : y.findOrder n = some (i, o)) {f : Order → Order}
    (hnum : ∀ o, (f o).number = o.number) : (y.modOrder n f).findOrder n = some (i, f o) := by
  rw [Yard.findOrder_modOrder h hnum, hf]
  simp

end order

/-! ## Starting and finishing a line -/

section line
variable {y : Yard} (h : y.intact) {q : LineRef} {i : Nat} {o : Order} {c : Car}
variable (hf : y.findOrder q.order = some (i, o))

include h hf in
/-- What the start of a line leaves. -/
theorem Yard.startLine_leaves (st : StationId) {z : Yard} (hz : y.startLine st q = z) :
    z.queues[st] = ((y.queues[st]).map fun k =>
      if k.order = q.order ∧ k.line = q.line then { k with state := .making } else k) ∧
    (∀ k : StationId, k ≠ st → z.queues[k] = y.queues[k]) ∧
    z.order? q.order = some (o.setLine q.line .making) ∧
    (∀ m, y.item? q.item = some m → z.item? q.item = some (m.startMove q.qty)) ∧ z.store.cars = y.store.cars := by
  have hnum : ∀ o : Order, (o.setLine q.line .making).number = o.number := fun _ => rfl
  have ho := Yard.order?_modOrder_same h hf hnum
  have hint := h.modOrder q.order fun o => o.setLine q.line .making
  obtain ⟨orders, horders⟩ := y.modOrder_orders q.order fun o => o.setLine q.line .making
  unfold Yard.startLine at hz
  rw [horders] at hz ho hint
  obtain ⟨menu, hmenu⟩ := Yard.modItem_menu
    (({ y with store := { y.store with orders := orders } } : Yard).markRef st q.order q.line .making) q.item
    fun m => m.startMove q.qty
  have hitem := Yard.item?_modItem
    (y := ({ y with store := { y.store with orders := orders } } : Yard).markRef st q.order q.line .making)
    (hint.congr rfl) (fun m => m.startMove q.qty) q.item q.item
  rw [hz] at hmenu hitem
  refine ⟨?_, fun k hk => ?_, ?_, fun m hm => ?_, ?_⟩
  · rw [hmenu]
    refine (Vector.getElem_set_self st.isLt).trans ?_
    simp only [Bool.and_eq_true, beq_iff_eq]
  · rw [hmenu]
    exact Vector.getElem_set_ne st.isLt k.isLt fun hne => hk (Fin.ext hne.symm)
  · rw [hmenu]
    exact ho
  · exact hitem.trans ((congrArg (Option.map _) hm).trans (congrArg some (if_pos rfl)))
  · rw [hmenu]
    rfl

/-- The yard after the last line of an order, from the yard that has the line DONE. -/
theorem Yard.completeOrder_leaves {w z : Yard} (hint : w.intact) (hrows : Tab.wf 0 w.rowCounts = true)
    (hfw : w.findOrder o.number = some (i, o)) {minute : Nat} (hz : w.completeOrder minute o c = z) :
    z.queues = w.queues ∧ z.order? o.number = some { o with state := .ready, readyMinute := some minute } ∧
    z.readyList = w.readyList ++ [{ order := o.number, car := o.car, row := c.row }] ∧
    (∀ r, c.row = some r → z.rowCount r = w.rowCount r + 1) ∧ z.store.cars = w.store.cars ∧
    z.store.menu = w.store.menu ∧ ∃ reports, z.raised = w.raised ++
      .orderReady o.number o.car c.parkedBay o.screen minute (w.readyList.length + 1) :: reports := by
  have ho := Yard.order?_modOrder_same hint hfw (f := fun o => { o with state := .ready, readyMinute := some minute })
    fun _ => rfl
  have hint' := hint.modOrder o.number fun o => { o with state := .ready, readyMinute := some minute }
  obtain ⟨orders, horders⟩ := w.modOrder_orders o.number fun o =>
    { o with state := .ready, readyMinute := some minute }
  rw [horders] at ho hint'
  have hjoin : ∃ rows, ({ w with store := { w.store with orders := orders } } : Yard).joinTail
      { order := o.number, car := o.car, row := c.row } =
      { w with store := { w.store with orders := orders },
               readyList := w.readyList ++ [{ order := o.number, car := o.car, row := c.row }], rowCounts := rows } ∧
      ∀ r, c.row = some r → Tab.get 0 rows r = w.rowCount r + 1 := by
    unfold Yard.joinTail
    cases hr : c.row with
    | none => exact ⟨_, rfl, fun r h => (by cases h)⟩
    | some r => exact ⟨_, rfl, fun r' h => by cases h; exact Tab.get_put_self hrows r _⟩
  obtain ⟨rows, hjoined, hcount⟩ := hjoin
  unfold Yard.completeOrder at hz
  rw [horders] at hz
  dsimp only at hz
  rw [hjoined] at hz
  have hsig : Yard.signals (Yard.raise ({ w with
      store := { w.store with orders := orders }, rowCounts := rows,
      readyList := w.readyList ++ [{ order := o.number, car := o.car, row := c.row }] } : Yard)
        (.orderReady o.number o.car c.parkedBay o.screen minute
          (w.readyList ++ [({ order := o.number, car := o.car, row := c.row } : ReadyEntry)]).length)) z := by
    rw [← hz]
    cases c.parkedBay with
    | none => exact Yard.signals.refl _
    | some bay => exact Yard.signals.markLamp (by exact hint'.congr rfl) _ bay
  obtain ⟨loops, rs, spk, lamp, rfl⟩ := hsig
  refine ⟨rfl, ho, rfl, hcount, rfl, rfl, rs, ?_⟩
  rw [List.length_append]
  exact List.append_assoc _ _ _

/-- What finishing a MAKING line leaves. -/
theorem Yard.finishLine_leaves (h : y.intact) (hrows : Tab.wf 0 y.rowCounts = true)
    (hf : y.findOrder q.order = some (i, o)) (st : StationId) (minute : Nat) {z : Yard} {note : Indication}
    (hz : y.finishLine minute st q o c = (note, z)) {lines : List Line} {ready : Bool}
    (hlines : lines = (o.setLine q.line .done).lines) (hready : ready = (o.setLine q.line .done).allDone) :
    note = (if ready then .ready else .queued) ∧
    z.queues[st] = ((y.queues[st]).filter fun k => !(k.order == q.order && k.line == q.line)) ∧
    z.order? q.order = some (if ready then { o with lines := lines, state := .ready, readyMinute := some minute }
      else { o with lines := lines }) ∧
    z.readyList = y.readyList ++ (if ready then [{ order := q.order, car := o.car, row := c.row }] else []) ∧
    (ready = true → ∀ r, c.row = some r → z.rowCount r = y.rowCount r + 1) ∧
    (ready = false → z.rowCounts = y.rowCounts) ∧ z.store.cars = y.store.cars ∧ z.store.menu = y.store.menu ∧
    ∃ reports, z.raised = y.raised ++ (if ready then
      .orderReady q.order o.car c.parkedBay o.screen minute (y.readyList.length + 1) :: reports else []) := by
  have hn := (Yard.findOrder_get h hf).2
  have hconst : y.modOrder q.order (fun _ => o.setLine q.line .done) =
      y.modOrder q.order fun o => o.setLine q.line .done := Yard.modOrder_congr hf rfl
  have hnum : ∀ o : Order, (o.setLine q.line .done).number = o.number := fun _ => rfl
  have hfw := Yard.findOrder_modOrder_same h hf hnum
  have hint := h.modOrder q.order fun o => o.setLine q.line .done
  obtain ⟨orders, horders⟩ := y.modOrder_orders q.order fun o => o.setLine q.line .done
  unfold Yard.finishLine at hz
  dsimp only at hz
  rw [hconst, horders] at hz
  rw [horders] at hfw hint
  have hqueue : (({ y with store := { y.store with orders := orders } } : Yard).dequeue st q.order q.line).queues[st] =
      (y.queues[st]).filter fun k => !(k.order == q.order && k.line == q.line) := Vector.getElem_set_self st.isLt
  subst hlines hready
  by_cases hall : (o.setLine q.line .done).allDone = true
  · rw [if_pos hall] at hz
    obtain ⟨hnote, hz⟩ := Prod.ext_iff.1 hz
    obtain ⟨hq, ho, hl, hcount, hcars, hmenu, rs, hraised⟩ := Yard.completeOrder_leaves
      (w := ({ y with store := { y.store with orders := orders } } : Yard).dequeue st q.order q.line)
      (o := o.setLine q.line .done) (hint.congr rfl) hrows (hn ▸ hfw) hz
    have hnum : (o.setLine q.line .done).number = q.order := hn
    rw [hnum] at hl hraised
    simp only [hall, if_true]
    refine ⟨hnote.symm, ?_, (congrArg z.order? hnum.symm).trans ho, hl, fun _ => hcount, fun h => (by cases h), hcars, hmenu, rs, hraised⟩
    rw [hq]
    exact hqueue
  · rw [if_neg hall] at hz
    obtain ⟨rfl, rfl⟩ := Prod.ext_iff.1 hz
    simp only [hall]
    exact ⟨rfl, hqueue, congrArg (Option.map Prod.snd) hfw, (List.append_nil _).symm, fun h => (by cases h), fun _ => rfl,
      rfl, rfl, [], (List.append_nil _).symm⟩

end line

end Sys2Proof.Machine
end

section
/-! PROOF. Kitchen stations: the requests of a station (R162 to R166). -/

namespace Sys2Proof.Machine

section station
variable {s : State} {tag n line i : Nat} {st : StationId} {o : Order} {c : Car} {q : LineRef} {pre post : List LineRef}

/-- A STATION NEXT is the walk of the station's queue. -/
theorem exec_stationNext (hs : s.ready) (hrun : s.link.part = .run) {rep : Reply} {y : Yard}
    (hb : Yard.walkQueue st s.yard.queues[st] s.yard = (rep, y)) : exec (.stationNext tag st.val) s =
      .next (({ s with yard := { y with raised := [] } } : State).answered 0x2C tag rep y.raised) := by
  refine request_yard hs (body := withStation st.val fun st => inRun (stationNextBody st)) ?_
  rw [withStation_val, inRun_run _ _ hrun]
  unfold stationNextBody
  rw [hb]
  rfl

theorem exec_stationNext_nothing (hs : s.ready) (hrun : s.link.part = .run)
    (hq : ∀ q ∈ s.yard.queues[st], q.state ≠ .pending) :
    exec (.stationNext tag st.val) s = .next (s.answered 0x2C tag (Reply.refuse .noSuch) []) := by
  refine request_answers_quietly 0x2C tag (withStation st.val fun st => inRun (stationNextBody st)) s s _ hs.2 ?_ hs.1
  rw [withStation_val, inRun_run _ _ hrun]
  unfold stationNextBody
  rw [Yard.walkQueue_nothing st _ hq]
  rfl

/-- A STATION DONE in RUN with its numbers in range. -/
theorem exec_stationDone (hs : s.ready) (hrun : s.link.part = .run) (h1 : 1 ≤ n) (h2 : n ≤ 9999) (hline : line ≤ 7)
    {rep : Reply} {y : Yard} (hb : stationDoneBody st n line s = (rep, { s with yard := y })) :
    exec (.stationDone tag st.val n line) s =
      .next (({ s with yard := { y with raised := [] } } : State).answered 0x2D tag rep y.raised) := by
  have hok : (orderNumberOk n && decide (line ≤ 7)) = true := by simp [orderNumberOk, h1, h2, hline]
  refine request_yard hs (body := withStation st.val fun st =>
    inRange (orderNumberOk n && decide (line ≤ 7)) (inRun (stationDoneBody st n line))) ?_
  rw [withStation_val, inRange_ok hok, inRun_run _ _ hrun, hb]

theorem exec_stationDone_refused (hs : s.ready) (hrun : s.link.part = .run) (h1 : 1 ≤ n) (h2 : n ≤ 9999)
    (hline : line ≤ 7) {why : Result} (hb : stationDoneBody st n line s = refused why s) :
    exec (.stationDone tag st.val n line) s = .next (s.answered 0x2D tag (Reply.refuse why) []) := by
  have hok : (orderNumberOk n && decide (line ≤ 7)) = true := by simp [orderNumberOk, h1, h2, hline]
  refine request_answers_quietly 0x2D tag (withStation st.val fun st =>
    inRange (orderNumberOk n && decide (line ≤ 7)) (inRun (stationDoneBody st n line))) s s _ hs.2 ?_ hs.1
  rw [withStation_val, inRange_ok hok, inRun_run _ _ hrun, hb]
  rfl

/-- The first reference of a line in a queue. -/
theorem Yard.lineRef?_first {y : Yard} (hl : y.queues[st] = pre ++ q :: post) (hn : q.order = n) (hq : q.line = line)
    (hpre : ∀ k ∈ pre, ¬(k.order = n ∧ k.line = line)) : y.lineRef? st n line = some q := by
  have hnone : pre.find? (fun k => k.order == n && k.line == line) = none :=
    List.find?_eq_none.2 fun k hk => by simpa using hpre k hk
  unfold Yard.lineRef?
  rw [hl, List.find?_append, hnone, List.find?_cons_of_pos (by simp [hn, hq])]
  rfl

theorem Yard.lineRef?_none {y : Yard} (h : ∀ q ∈ y.queues[st], ¬(q.order = n ∧ q.line = line)) :
    y.lineRef? st n line = none := List.find?_eq_none.2 fun k hk => by simpa using h k hk

theorem stationDoneBody_known (h : s.yard.intact) (hq : s.yard.lineRef? st n line = some q) (hstate : q.state ≠ .pending)
    (ho : s.yard.order? n = some o) (hc : s.yard.car? o.car = some c) {note : Indication} {z : Yard}
    (hz : s.yard.finishLine s.link.minute st q o c = (note, z)) :
    stationDoneBody st n line s = (Reply.okNote note, { s with yard := z }) := by
  unfold stationDoneBody
  rw [hq]
  dsimp only
  rw [if_neg hstate, Yard.readLine_intact h, ho]
  dsimp only [Option.elim]
  rw [hc]
  dsimp only
  rw [hz]
  rfl

theorem stationDoneBody_gone (h : s.yard.intact) (hq : s.yard.lineRef? st n line = some q) (hstate : q.state ≠ .pending)
    (ho : s.yard.order? n = some o) (hc : s.yard.car? o.car = none) :
    stationDoneBody st n line s = (Reply.okNote .voided, { s with yard := s.yard.settleGone o .carLost }) := by
  unfold stationDoneBody
  rw [hq]
  dsimp only
  rw [if_neg hstate, Yard.readLine_intact h, ho]
  dsimp only [Option.elim]
  rw [hc]
  rfl

/-- A STATION NEXT that meets an order whose car has gone goes on as one of the yard without it. -/
theorem exec_stationNext_gone (hs : s.ready) (hrun : s.link.part = .run) (h : s.yard.intact)
    (hrows : Tab.wf 0 s.yard.rowCounts = true) (hl : s.yard.queues[st] = pre ++ q :: post)
    (hf : s.yard.findOrder q.order = some (i, o)) (hc : s.yard.car? o.car = none) (hq : q.state = .pending)
    (hpre : ∀ k ∈ pre, k.state ≠ .pending) {gone : Report}
    (hgone : gone = if o.cancellable then .orderCancelled q.order o.car o.state .departed
      else .orderVoided q.order o.car o.state .carLost (s.yard.unitsOf o true) (s.yard.unitsOf o false)) :
    ∃ (y : Yard) (w : State) (place : Place) (reports : List Report), s.yard.orderGone i o y ∧
      y.store.cars = s.yard.store.cars ∧ y.runners = s.yard.runners ∧ y.loops = s.yard.loops ∧ y.raised = [] ∧
      exec (.stationNext tag st.val) { s with yard := y } = .next w ∧
      w.link = (s.link.addPlace place).after reports ∧ exec (.stationNext tag st.val) s =
        .next { w with link := (s.link.addPlace place).after (gone :: reports) } := by
  have ho : s.yard.order? q.order = some o := congrArg (Option.map Prod.snd) hf
  have hn := (Yard.findOrder_get h hf).2
  have hmem : q ∈ s.yard.queues[st] := by rw [hl]; simp
  obtain ⟨hlaw, hcars, hrunners, hloops, hint, hraised⟩ := Yard.settleGone_leaves h hrows hf (cause := .carLost) rfl
  have hstart := Yard.walkQueue_gone st h post hq hmem ho hc
  have hqueue := Yard.settleGone_queues h (hn.symm ▸ hf) .carLost st
  generalize s.yard.settleGone o .carLost = z at *
  have hz : z = ({ z with raised := [] } : Yard).behind [gone] :=
    Yard.behind_cleared (hraised.trans (by rw [hs.1, hgone]; rfl))
  have hwalk : Yard.walkQueue st s.yard.queues[st] s.yard =
      ((Yard.walkQueue st post { z with raised := [] }).1,
        (Yard.walkQueue st post { z with raised := [] }).2.behind [gone]) := by
    rw [hl, Yard.walkQueue_skip st h pre _ fun p hp => .inl fun hs => absurd hs (hpre p hp), hstart, hz,
      Yard.walkQueue_behind (y := { z with raised := [] }) st _ _ (hint.congr rfl)]
    rfl
  have hleft : Yard.walkQueue st z.queues[st] { z with raised := [] } =
      Yard.walkQueue st post { z with raised := [] } := by
    have hno : ∀ k ∈ z.queues[st], k.order ≠ q.order := by
      rw [hqueue, hn]
      exact fun k hk => by simpa using (List.mem_filter.1 hk).2
    have hafter : z.queues[st] = (pre ++ q :: post).filter fun k => k.order != q.order := by rw [hqueue, hn, hl]
    refine (congrArg (fun l => Yard.walkQueue st l { z with raised := [] }) hafter).trans ?_
    rw [Yard.walkQueue_filter (n := q.order) st _ (y := { z with raised := [] }) (hint.congr rfl) hno,
      Yard.walkQueue_skip (y := { z with raised := [] }) st (hint.congr rfl) pre _ fun p hp =>
        .inl fun hs => absurd hs (hpre p hp)]
    exact Yard.walkQueue_passed (y := { z with raised := [] }) st (hint.congr rfl) post
      (.inl fun _ hk => hno q hk rfl)
  have hs' : ({ s with yard := { z with raised := [] } } : State).ready := ⟨rfl, hs.2⟩
  refine ⟨{ z with raised := [] }, _, .request 0x2C tag (Yard.walkQueue st post { z with raised := [] }).1,
    (Yard.walkQueue st post { z with raised := [] }).2.raised, hlaw.congr rfl rfl rfl rfl rfl rfl, hcars, hrunners,
    hloops, rfl, exec_stationNext hs' hrun hleft, rfl, ?_⟩
  exact exec_stationNext hs hrun hwalk

end station

/-- Settles O52: the walk of a queue and the finish of a line, each by what it meets. -/
theorem kitchenWorks : Obligations.KitchenWorks := by
  unfold Obligations.KitchenWorks
  intro s tag st hs hrun
  refine ⟨exec_stationNext_nothing hs hrun, fun n line h1 h2 hline => ⟨fun hno => ?_,
    fun q pre post hl hn hq hstate hpre => ?_⟩, fun hw hu q pre post o c bay row hl ho hc hbay hrow => ?_,
    fun hw hu q pre post i o gone hl hf hc hgone => ?_⟩
  · refine exec_stationDone_refused hs hrun h1 h2 hline ?_
    unfold stationDoneBody
    rw [Yard.lineRef?_none hno]
  · refine exec_stationDone_refused hs hrun h1 h2 hline ?_
    unfold stationDoneBody
    rw [Yard.lineRef?_first hl hn hq hpre]
    exact if_pos hstate
  · obtain ⟨h, hrows⟩ := State.intact_rows hw hu
    obtain ⟨i, hf, hn⟩ := Yard.find_of_order? h ho
    obtain rfl : bay = c.parkedBay := hbay
    obtain rfl : row = c.row := by rw [hrow, Car.row_eq]; rfl
    refine ⟨fun hq hpre => ?_, fun hq h1 h2 hline hpre lines ready hlines hready => ?_⟩
    · have hmem : q ∈ s.yard.queues[st] := by rw [hl]; simp
      have hwalk : Yard.walkQueue st s.yard.queues[st] s.yard =
          (nextReply q o ((s.yard.startLine st q).pendingLeft st), s.yard.startLine st q) := by
        rw [hl, Yard.walkQueue_skip st h pre _ fun p hp => .inl fun hs => absurd hs (hpre p hp),
          Yard.walkQueue_whole st h post hq hmem ho hc]
      obtain ⟨hqueue, hother, hset, hitem, hcars⟩ := Yard.startLine_leaves h hf st rfl
      generalize s.yard.startLine st q = z at *
      refine ⟨_, exec_stationNext hs hrun hwalk, hqueue, hother, hset, fun m hm => ?_, ?_, hcars, rfl, rfl, rfl⟩
      · exact hitem m hm
      · exact Link.after_replies ..
    · have hfirst := Yard.lineRef?_first hl rfl rfl hpre
      obtain ⟨note, z, hz⟩ : ∃ note z, s.yard.finishLine s.link.minute st q o c = (note, z) := ⟨_, _, rfl⟩
      obtain ⟨hnote, hqueue, hset, hlist, hup, hsame, hcars, hmenu, rs, hraised⟩ :=
        Yard.finishLine_leaves h hrows hf st s.link.minute hz hlines (hready.trans (by rw [hlines]; rfl))
      have hb := stationDoneBody_known h hfirst (by rw [hq]; decide) ho hc hz
      refine ⟨_, rs, exec_stationDone hs hrun h1 h2 hline hb, hqueue, hset, hlist, hup, hsame, ?_, hcars, hmenu, rfl, rfl,
        rfl⟩
      rw [hs.1, List.nil_append] at hraised
      rw [hnote]
      exact congrArg (Link.after (s.link.addPlace (.request 0x2D tag
        { result := .ok, indication := if ready then .ready else .queued, fields := [] }))) hraised
  · obtain ⟨h, hrows⟩ := State.intact_rows hw hu
    have hgone' : gone = if o.cancellable then .orderCancelled q.order o.car o.state .departed
        else .orderVoided q.order o.car o.state .carLost (s.yard.unitsOf o true) (s.yard.unitsOf o false) := by
      rw [hgone]
      simp only [Order.cancellable_iff]
    refine ⟨fun hq hpre => exec_stationNext_gone hs hrun h hrows hl hf hc hq hpre hgone',
      fun hq h1 h2 hline hpre => ?_⟩
    have hb := stationDoneBody_gone h (Yard.lineRef?_first hl rfl rfl hpre) hq
      (congrArg (Option.map Prod.snd) hf) hc
    obtain ⟨hlaw, hcars, hrunners, hloops, hint, hraised⟩ := Yard.settleGone_leaves h hrows hf (cause := .carLost) rfl
    generalize s.yard.settleGone o .carLost = z at *
    refine ⟨_, exec_stationDone hs hrun h1 h2 hline hb, hlaw.congr rfl rfl rfl rfl rfl rfl, hcars, hrunners, hloops, ?_,
      rfl, rfl, rfl⟩
    rw [hs.1, ← hgone'] at hraised
    exact congrArg (Link.after (s.link.addPlace (.request 0x2D tag
      { result := .ok, indication := .voided, fields := [] }))) hraised

end Sys2Proof.Machine
end

section
/-! PROOF. The reads of an intake and of a post's cancel where every record is readable, the lines that join the stations'
queues, and the lamps shown at a bay (R145, R151, R153, R156, R160). -/

namespace Sys2Proof.Machine

/-! ## Reads -/

section reads
variable {y : Yard} (h : y.intact)
include h

/-- The occupant of a bay, read with it. -/
theorem Yard.readOccupant_intact (bay : Nat) : y.readOccupant bay =
    ({ bay := Read.of (y.bay? bay), car := Read.of (((y.bay? bay).bind Bay.occupant).bind y.car?) }, y) := by
  unfold Yard.readOccupant
  rw [Yard.readBay_intact h]
  cases hb : y.bay? bay with
  | none => rfl
  | some b =>
    dsimp only [Read.of, Option.bind]
    cases b.occupant with
    | none => rfl
    | some n =>
      dsimp only
      rw [Yard.readCar_intact h]
      rfl

theorem Yard.readItems_intact (is : List Nat) : y.readItems is = (is.map fun i => (i, Read.of (y.item? i)), y) := by
  induction is with
  | nil => rfl
  | cons i is ih =>
    rw [Yard.readItems, Yard.readItem_intact h]
    dsimp only
    rw [ih]
    rfl

theorem Yard.items_whole (is : List Nat) :
    ((is.map fun i => (i, Read.of (y.item? i))).any fun e => e.2.faulty) = false := by
  simp [Read.faulty_of]

theorem Yard.readLineItems_intact (o : Option Order) : y.readLineItems (Read.of o) = (false, y) := by
  cases o with
  | none => rfl
  | some o =>
    dsimp only [Read.of, Yard.readLineItems]
    rw [Yard.readItems_intact h, Yard.items_whole h]

end reads

/-! ## Lines that join the queues -/

/-- The references of an order's lines for one station, in line order. -/
def refsFor (order : Nat) (lines : List Line) (stations : List StationId) (st : StationId) : List LineRef :=
  ((lines.zipIdx.zip stations).filter fun x => decide (x.2 = st)).map fun x =>
    { order := order, line := x.1.2, item := x.1.1.item, qty := x.1.1.qty, state := x.1.1.state }

theorem foldl_enqueue (ref : (Line × Nat) × StationId → LineRef) (list : List ((Line × Nat) × StationId)) (y : Yard) :
    ∃ queues, list.foldl (fun y e => y.enqueue e.2 (ref e)) y = { y with queues := queues } ∧ ∀ st : StationId,
      queues[st] = y.queues[st] ++ (list.filter fun x => decide (x.2 = st)).map ref := by
  induction list generalizing y with
  | nil => exact ⟨y.queues, rfl, fun st => (List.append_nil _).symm⟩
  | cons e list ih =>
    obtain ⟨queues, he, hq⟩ := ih (y.enqueue e.2 (ref e))
    refine ⟨queues, he, fun st => (hq st).trans ?_⟩
    change (y.queues.set e.2 _)[st] ++ _ = _
    by_cases hst : e.2 = st
    · subst hst
      simp
    · simp [hst, Vector.getElem_set_ne e.2.isLt st.isLt fun hne => hst (Fin.ext hne)]

theorem Yard.enqueueLines_eq (y : Yard) (n : Nat) (lines : List Line) (stations : List StationId) :
    ∃ queues, y.enqueueLines n lines stations = { y with queues := queues } ∧
      ∀ st : StationId, queues[st] = y.queues[st] ++ refsFor n lines stations st :=
  foldl_enqueue _ _ y

/-! ## A release of held orders -/

/-- The references that the release of held orders adds to a queue. -/
def Yard.releasedTo (y : Yard) (list : List HeldEntry) (st : StationId) : List LineRef :=
  list.flatMap fun e => match y.order? e.order with
    | some o => refsFor e.order o.lines e.stations st
    | none => []

/-- An order made QUEUED. -/
def Order.released (o : Order) : Order := { o with state := .queued }

/-- A yard in which these held entries are released. -/
structure Yard.releases (y z : Yard) (list : List HeldEntry) : Prop where
  intact : z.intact
  held : ∀ sc : ScreenId, z.held[sc] = (y.held[sc]).filter fun e => !(list.any fun x => x.order == e.order)
  queues : ∀ st : StationId, z.queues[st] = y.queues[st] ++ y.releasedTo list st
  released : ∀ e ∈ list, z.order? e.order = (y.order? e.order).map Order.released
  others : ∀ k, (∀ e ∈ list, e.order ≠ k) → z.order? k = y.order? k
  rest : ∃ held queues orders,
    z = { y with held := held, queues := queues, store := { y.store with orders := orders } }

theorem Yard.releases.one {y : Yard} (h : y.intact) (e : HeldEntry) :
    y.releases (y.releaseOne e) [e] := by
  have hheld (sc : ScreenId) : (y.unhold e.order).held[sc] =
      (y.held[sc]).filter fun x => !([e].any fun k => k.order == x.order) := by
    rw [Yard.unhold_held_get]
    refine List.filter_congr fun x _ => ?_
    simp [bne, BEq.comm (a := x.order)]
  unfold Yard.releaseOne
  rw [Yard.readOrder_intact h]
  cases ho : y.order? e.order with
  | none =>
    dsimp only [Read.of]
    refine ⟨h.congr rfl, hheld, fun st => ?_, ?_, fun k _ => rfl, ⟨_, y.queues, y.store.orders, rfl⟩⟩
    · unfold Yard.releasedTo
      simp [ho]
    · simp only [List.forall_mem_singleton]
      rw [ho]
      exact ho
  | some o =>
    dsimp only [Read.of]
    have hint : (y.unhold e.order).intact := h.congr rfl
    have hmod := Yard.order?_modOrder hint (f := Order.released) (fun _ => rfl) e.order
    obtain ⟨orders, horders⟩ := (y.unhold e.order).modOrder_orders e.order Order.released
    have hint' := hint.modOrder e.order Order.released
    change y.releases (((y.unhold e.order).modOrder e.order Order.released).enqueueLines e.order o.lines e.stations) [e]
    rw [horders] at hmod hint' ⊢
    obtain ⟨queues, he, hq⟩ := Yard.enqueueLines_eq
      ({ y.unhold e.order with store := { (y.unhold e.order).store with orders := orders } } : Yard) e.order o.lines
      e.stations
    rw [he]
    have hsame : ∀ k, (y.unhold e.order).order? k = y.order? k := fun _ => rfl
    have hset : ({ y.unhold e.order with
        store := { (y.unhold e.order).store with orders := orders } } : Yard).order? e.order = some o.released := by
      rw [hmod, hsame, ho]
      simp
    refine ⟨hint'.congr rfl, hheld, fun st => ?_, ?_, fun k hk => ?_, ⟨_, queues, orders, rfl⟩⟩
    · refine (hq st).trans ?_
      unfold Yard.releasedTo
      simp [ho]
    · simp only [List.forall_mem_singleton]
      rw [ho]
      exact hset
    · refine (hmod k).trans ?_
      rw [hsame]
      cases y.order? k with
      | none => rfl
      | some o' => simp [Ne.symm (hk e (List.mem_singleton_self e))]

theorem Yard.releases.trans {x y z : Yard} {l m : List HeldEntry} (h : x.releases y l) (h' : y.releases z m) :
    x.releases z (l ++ m) := by
  have hor (k : Nat) (hk : ∀ e ∈ l, e.order ≠ k) : y.order? k = x.order? k := h.others k hk
  have hlines (e : HeldEntry) (st : StationId) : (match y.order? e.order with
      | some o => refsFor e.order o.lines e.stations st
      | none => []) = match x.order? e.order with
      | some o => refsFor e.order o.lines e.stations st
      | none => [] := by
    by_cases hk : ∃ p ∈ l, p.order = e.order
    · obtain ⟨p, hp, hpe⟩ := hk
      have hrel := h.released p hp
      rw [hpe] at hrel
      rw [hrel]
      cases x.order? e.order <;> rfl
    · push Not at hk
      rw [hor _ hk]
  refine ⟨h'.intact, fun sc => ?_, fun st => ?_, fun e he => ?_, fun k hk => ?_, ?_⟩
  · rw [h'.held, h.held, List.filter_filter]
    refine List.filter_congr fun x _ => ?_
    rw [List.any_append, Bool.not_or, Bool.and_comm]
  · rw [h'.queues, h.queues, List.append_assoc]
    unfold Yard.releasedTo
    rw [List.flatMap_append]
    simp only [hlines]
  · by_cases hm : ∃ p ∈ m, p.order = e.order
    · obtain ⟨p, hp, hpe⟩ := hm
      have hrel := h'.released p hp
      rw [hpe] at hrel
      rw [hrel]
      by_cases hl : ∃ p ∈ l, p.order = e.order
      · obtain ⟨p', hp', hpe'⟩ := hl
        have hrel' := h.released p' hp'
        rw [hpe'] at hrel'
        rw [hrel', Option.map_map]
        rfl
      · push Not at hl
        rw [hor _ hl]
    · push Not at hm
      rw [h'.others _ hm]
      rcases List.mem_append.1 he with hl | hin
      · exact h.released e hl
      · exact absurd rfl (hm e hin)
  · rw [h'.others k fun e he => hk e (List.mem_append_right _ he), hor k fun e he => hk e (List.mem_append_left _ he)]
  · obtain ⟨_, _, _, rfl⟩ := h.rest
    obtain ⟨held, queues, orders, rfl⟩ := h'.rest
    exact ⟨held, queues, orders, rfl⟩

/-- The release of a list of held entries, head to tail, and the number of orders released. -/
theorem foldl_releaseOne (list : List HeldEntry) {x y : Yard} {done : List HeldEntry} (h : x.releases y done) (n : Nat) :
    x.releases (list.foldl (fun (a : Nat × Yard) e =>
      (if ((a.2.releaseOne e).findOrder e.order).isSome then a.1 + 1 else a.1, a.2.releaseOne e)) (n, y)).2
      (done ++ list) ∧
    (list.foldl (fun (a : Nat × Yard) e =>
      (if ((a.2.releaseOne e).findOrder e.order).isSome then a.1 + 1 else a.1, a.2.releaseOne e)) (n, y)).1 =
      n + list.countP fun e => (x.order? e.order).isSome := by
  induction list generalizing y done n with
  | nil => exact ⟨by simpa using h, rfl⟩
  | cons e list ih =>
    have hone := Yard.releases.one h.intact e
    have hfound : ((y.releaseOne e).findOrder e.order).isSome = (y.order? e.order).isSome := by
      have hset := hone.released e (List.mem_singleton_self e)
      rw [← Option.isSome_map (f := Prod.snd)]
      exact (congrArg Option.isSome hset).trans Option.isSome_map
    have hsome : (y.order? e.order).isSome = (x.order? e.order).isSome := by
      by_cases hd : ∃ p ∈ done, p.order = e.order
      · obtain ⟨p, hp, hpe⟩ := hd
        rw [← hpe, h.released p hp, Option.isSome_map]
      · push Not at hd
        rw [h.others _ hd]
    obtain ⟨hrel, hcount⟩ := ih (h.trans hone) (if (x.order? e.order).isSome then n + 1 else n)
    simp only [List.foldl_cons, hfound, hsome]
    rw [List.append_assoc] at hrel
    refine ⟨hrel, hcount.trans ?_⟩
    rw [List.countP_cons]
    split <;> simp_all <;> omega

end Sys2Proof.Machine
end

section
/-! PROOF. Releases and cancels of orders, by the host and at a post (R151 to R154). -/

namespace Sys2Proof.Machine

/-! ## Lamps shown at a bay -/

section lamps
variable {y z : Yard}

theorem Yard.signals.restingLamp (h : y.signals z) (n : Option Nat) : z.restingLamp n = y.restingLamp n := by
  obtain ⟨_, _, _, _, rfl⟩ := h
  rfl

theorem Yard.placePassing_shows (y : Yard) (bay v : Nat) : (y.placePassing bay v).shows .lamps bay v := by
  have h := y.placeLamp_shows .oe bay v
  unfold Yard.placePassing
  split
  case h_1 _ w hp =>
    rw [hp] at h
    exact h
  case h_2 _ w hp =>
    rw [hp] at h
    exact (Yard.shows_congr (y := w) rfl).2 h

theorem Yard.placeRestingNow_shows (y : Yard) (bay : Nat) (occ : Option Nat) :
    (y.placeRestingNow bay occ).shows .lamps bay (y.restingLamp occ) :=
  (Yard.shows_congr rfl).2 (y.placeLamp_shows .oe bay (y.restingLamp occ))

end lamps

/-! ## A cancel that leaves a table to signal -/

theorem Yard.orderGone.signals {y z w : Yard} {i : Nat} {o : Order} (h : y.orderGone i o z) (hs : z.signals w) :
    y.orderGone i o w := by
  obtain ⟨_, _, _, _, rfl⟩ := hs
  exact h.congr rfl rfl rfl rfl rfl rfl

section cancel
variable {y z : Yard} (h : y.intact) (hrows : Tab.wf 0 y.rowCounts = true) {n i : Nat} {o : Order}
variable (hf : y.findOrder n = some (i, o))
include h hrows hf

/-- What a cancel leaves, where the order leaves its car's list too. -/
theorem Yard.cancelOrder_leaves {cause : CancelCause} (hcause : cause ≠ .departed) (hz : y.cancelOrder o cause = z) :
    y.orderGone i o z ∧ z.store.bays = y.store.bays ∧ z.runners = y.runners ∧
    (y.car? o.car = none → z.store.cars = y.store.cars) ∧
    (∀ c, y.car? o.car = some c → z.car? o.car = some { c with orders := c.orders.filter fun k => k != n }) ∧
    z.raised = y.raised ++ [.orderCancelled n o.car o.state cause] := by
  have hn := (Yard.findOrder_get h hf).2
  subst hn
  obtain ⟨menu, hmenu, he⟩ := Yard.cancelOrder_eq h hf hcause
  have hcar := Yard.car?_modCar h (f := fun c => { c with orders := c.orders.filter fun k => k != o.number })
    (fun _ => rfl) o.car o.car
  rw [← hz, he]
  refine ⟨Yard.without_gone h hrows hmenu.2 _ _, rfl, rfl, fun hc => ?_, fun c hc => ?_, rfl⟩
  · have hdrop : y.dropOpenOrder o.car o.number = y := Yard.modCar_none hc _
    change (y.dropOpenOrder o.car o.number).store.cars = _
    rw [hdrop]
  · rw [hc] at hcar
    exact hcar.trans (congrArg some (if_pos rfl))

end cancel

/-! ## The post's cancel -/

section checks
variable {site : Site} {b : Option Bay} {c : Option Car} {o : Option Order}

/-- What the checks of a post's cancel find, where every record is readable. -/
def cancelChecks (site : Site) (b : Option Bay) (c : Option Car) (o : Option Order) : Option Result :=
  cancelFailure site { bay := Read.of b, car := Read.of c } (Read.of o) false

theorem cancelChecks_setup (hrun : site.run = false) : cancelChecks site b c o = some .state := by
  unfold cancelChecks cancelFailure
  rw [hrun]
  rfl

theorem cancelChecks_notParked (hrun : site.run = true) (hc : ∀ k, c = some k → k.state ≠ .parked) :
    cancelChecks site b c o = some .notParked := by
  have hnone : BayReads.parked { bay := Read.of b, car := Read.of c } = none := by
    cases c with
    | none => rfl
    | some k => exact if_neg (hc k rfl)
  unfold cancelChecks cancelFailure BayReads.lost
  simp [hrun, hnone, Read.faulty_of]

variable {p : Bay} {k : Car} (hrun : site.run = true) (hk : k.state = .parked)
include hrun hk

theorem cancelChecks_parked : cancelChecks site (some p) (some k) o =
    if (match o with
      | some o => decide (p.occupant ≠ some o.car)
      | none => true) then some .noSuch
    else if (match o with
      | some o => !o.cancellable
      | none => false) then some .inMaking
    else none := by
  have hparked : BayReads.parked { bay := .whole p, car := .whole k } = some k := if_pos hk
  unfold cancelChecks cancelFailure BayReads.lost
  cases o <;> simp [hrun, hparked, Read.of, Read.faulty, Read.record?]

theorem cancelChecks_noSuch (ho : ∀ x, o = some x → p.occupant ≠ some x.car) :
    cancelChecks site (some p) (some k) o = some .noSuch := by
  rw [cancelChecks_parked hrun hk]
  cases o with
  | none => rfl
  | some x => exact if_pos (decide_eq_true (ho x rfl))

theorem cancelChecks_known {x : Order} (ho : p.occupant = some x.car) :
    cancelChecks site (some p) (some k) (some x) = if x.cancellable then none else some .inMaking := by
  rw [cancelChecks_parked hrun hk]
  dsimp only
  rw [if_neg (by simp [ho])]
  by_cases hx : x.cancellable = true <;> simp [hx]

end checks

section post
variable {y : Yard} (h : y.intact) (site : Site) (bay order : Nat)
include h

/-- What the checks of a post's cancel find. -/
theorem Yard.postCancel_eq : y.postCancel site bay order =
    match cancelChecks site (y.bay? bay) (((y.bay? bay).bind Bay.occupant).bind y.car?) (y.order? order), y.order? order with
    | none, some o => (y.cancelOrder o .post).placeRestingNow bay (some o.car)
    | some reason, _ => (y.placePassing bay reason.lamp).raise (.cancelRefused bay order reason)
    | none, none => y := by
  unfold Yard.postCancel
  rw [Yard.readOccupant_intact h]
  dsimp only
  rw [Yard.readOrder_intact h]
  dsimp only
  rw [Yard.readLineItems_intact h]
  unfold cancelChecks
  dsimp only
  cases cancelFailure site _ (Read.of (y.order? order)) false <;> cases y.order? order <;> rfl

/-- A cancel turned away. -/
theorem Yard.postCancel_refused {why : Result}
    (hc : cancelChecks site (y.bay? bay) (((y.bay? bay).bind Bay.occupant).bind y.car?) (y.order? order) = some why) :
    y.postCancel site bay order = (y.placePassing bay why.lamp).raise (.cancelRefused bay order why) := by
  rw [Yard.postCancel_eq h, hc]

theorem Yard.postCancel_passed {o : Order}
    (hc : cancelChecks site (y.bay? bay) (((y.bay? bay).bind Bay.occupant).bind y.car?) (y.order? order) = none) (ho : y.order? order = some o) :
    y.postCancel site bay order = (y.cancelOrder o .post).placeRestingNow bay (some o.car) := by
  rw [Yard.postCancel_eq h, hc, ho]

end post

/-- What a cancel turned away leaves. -/
theorem Yard.turnedAway_leaves {y z : Yard} {bay order : Nat} {why : Result}
    (hz : z = (y.placePassing bay why.lamp).raise (.cancelRefused bay order why)) :
    z.store = y.store ∧ z.held = y.held ∧ z.queues = y.queues ∧ z.readyList = y.readyList ∧
      z.shows .lamps bay why.lamp ∧ ∃ reports, z.raised = y.raised ++ reports ++ [.cancelRefused bay order why] := by
  have hshows := y.placePassing_shows bay why.lamp
  obtain ⟨loops, rs, spk, lamp, he⟩ := Yard.signals.placePassing y bay why.lamp
  rw [hz]
  refine ⟨?_, ?_, ?_, ?_, (Yard.shows_congr rfl).2 hshows, rs, ?_⟩ <;> rw [he] <;> rfl

end Sys2Proof.Machine
end

section
/-! PROOF. Held orders released, orders cancelled (R151 to R154). -/

namespace Sys2Proof.Machine

/-! ## ORDER RELEASE and FORCE CANCEL -/

section host
variable {s : State} {tag n i : Nat} {o : Order}

theorem exec_orderRelease (hs : s.ready) (hrun : s.link.part = .run) (sc : ScreenId) {k : Nat} {z : Yard}
    (hz : s.yard.releaseHeld sc = (k, z)) : exec (.orderRelease tag sc.val) s =
      .next (({ s with yard := { z with raised := [] } } : State).answered 0x27 tag (Reply.okWith (u16 k)) z.raised) := by
  refine request_yard hs (body := withFin 4 sc.val fun sc => inRun fun s =>
    s.withYard (Reply.okWith (u16 (s.yard.releaseHeld sc).1)) (s.yard.releaseHeld sc).2) ?_
  rw [withFin_val, inRun_run _ _ hrun, hz]
  rfl

theorem Yard.releaseHeld_leaves {y : Yard} (h : y.intact) {sc : ScreenId} (hne : y.held[sc] ≠ []) :
    ∃ z, y.releaseHeld sc = ((y.held[sc]).countP fun e => (y.order? e.order).isSome,
      z.raise (.heldReleased sc ((y.held[sc]).countP fun e => (y.order? e.order).isSome))) ∧ y.releases z y.held[sc] := by
  have hstart : y.releases y [] := by
    refine ⟨h, fun sc => ?_, fun st => ?_, fun e he => absurd he List.not_mem_nil, fun k _ => rfl,
      ⟨y.held, y.queues, y.store.orders, rfl⟩⟩
    · simp
    · exact (List.append_nil _).symm
  obtain ⟨hrel, hcount⟩ := foldl_releaseOne y.held[sc] hstart 0
  rw [Nat.zero_add] at hcount
  rw [List.nil_append] at hrel
  refine ⟨_, ?_, hrel⟩
  unfold Yard.releaseHeld
  split
  case h_1 hnil => exact absurd hnil hne
  case h_2 => rw [← hcount]

theorem exec_forceCancel (hs : s.ready) (hrun : s.link.part = .run) {rep : Reply} {z : Yard}
    (hb : forceCancelBody n s = (rep, { s with yard := z })) : exec (.forceCancel tag n) s =
      .next (({ s with yard := { z with raised := [] } } : State).answered 0x28 tag rep z.raised) :=
  request_yard hs (body := inRun (forceCancelBody n)) (by rw [inRun_run _ _ hrun, hb])

theorem exec_forceCancel_refused (hs : s.ready) (hrun : s.link.part = .run) {why : Result}
    (hb : forceCancelBody n s = (Reply.refuse why, s)) :
    exec (.forceCancel tag n) s = .next (s.answered 0x28 tag (Reply.refuse why) []) :=
  request_answers_quietly 0x28 tag (inRun (forceCancelBody n)) s s _ hs.2 (by rw [inRun_run _ _ hrun, hb]) hs.1

/-- What the host's cancel of an order leaves. -/
theorem forceCancel_leaves (hs : s.ready) (hrun : s.link.part = .run) (h : s.yard.intact)
    (hrows : Tab.wf 0 s.yard.rowCounts = true) (hf : s.yard.findOrder n = some (i, o)) (hstate : o.state ≠ .taken) :
    ∃ (t : State) (reports : List Report), exec (.forceCancel tag n) s = .next t ∧
      t.link = (s.link.addPlace (.request 0x28 tag Reply.ok)).after (.orderCancelled n o.car o.state .host :: reports) ∧
      s.yard.orderGone i o t.yard ∧ t.yard.store.bays = s.yard.store.bays ∧ t.yard.runners = s.yard.runners ∧
      (s.yard.car? o.car = none → t.yard.store.cars = s.yard.store.cars) ∧
      (∀ c, s.yard.car? o.car = some c →
        t.yard.car? o.car = some { c with orders := c.orders.filter fun k => k != n } ∧
        ∀ b, c.state = .parked → c.bay = some b → t.yard.shows .lamps b (t.yard.restingLamp (some o.car))) ∧
      t.screens = s.screens ∧ t.sound = s.sound ∧ t.lanes = s.lanes := by
  have ho : s.yard.order? n = some o := congrArg (Option.map Prod.snd) hf
  have hb : forceCancelBody n s =
      (Reply.ok, { s with yard := (s.yard.cancelOrder o .host).placeResting o.car }) := by
    unfold forceCancelBody
    rw [Yard.readOrder_intact h, ho]
    exact if_neg hstate
  obtain ⟨hgone, hbays, hrunners, hnone, hcar, hraised⟩ :=
    Yard.cancelOrder_leaves h hrows hf (cause := .host) (by decide) rfl
  generalize s.yard.cancelOrder o .host = w at *
  have hsig : w.signals (w.placeResting o.car) ∧ ∀ c b, w.car? o.car = some c → c.state = .parked → c.bay = some b →
      (w.placeResting o.car).shows .lamps b (w.restingLamp (some o.car)) := by
    unfold Yard.placeResting
    cases hp : (w.car? o.car).bind Car.parkedBay with
    | none =>
      refine ⟨Yard.signals.refl w, fun c b hc hstate hbay => ?_⟩
      rw [hc] at hp
      exact absurd (hbay.symm.trans ((if_pos hstate).symm.trans hp)) (by simp)
    | some b =>
      refine ⟨Yard.signals.placeRestingNow w b _, fun c b' hc hstate hbay => ?_⟩
      rw [hc] at hp
      cases hbay.symm.trans ((if_pos hstate).symm.trans hp)
      exact w.placeRestingNow_shows b _
  obtain ⟨hsig, hshown⟩ := hsig
  have hcar' := hsig.car? o.car
  have hlamp := hsig.restingLamp (some o.car)
  obtain ⟨rs, hrs⟩ := hsig.raised
  have hlaw := hgone.signals hsig
  have hstore := hsig.store
  have hruns : (w.placeResting o.car).runners = w.runners := by
    obtain ⟨_, _, _, _, he⟩ := hsig
    rw [he]
  generalize w.placeResting o.car = z at *
  rw [hraised, hs.1] at hrs
  refine ⟨_, rs, exec_forceCancel hs hrun hb, congrArg (Link.after (s.link.addPlace (.request 0x28 tag Reply.ok))) hrs,
    hlaw.congr rfl rfl rfl rfl rfl rfl, (congrArg Store.bays hstore).trans hbays, hruns.trans hrunners,
    fun hc => (congrArg Store.cars hstore).trans (hnone hc), fun c hc => ⟨hcar'.trans (hcar c hc), fun b hp hbay => ?_⟩,
    rfl, rfl, rfl⟩
  have hsh := hshown _ b (hcar c hc) hp hbay
  rw [← hlamp] at hsh
  exact hsh

end host

/-- Settles O51: the cancel at a post check by check, the release by its fold, the host's cancel by what it leaves. -/
theorem ordersReleasedAndCancelled : Obligations.OrdersReleasedAndCancelled := by
  unfold Obligations.OrdersReleasedAndCancelled
  refine ⟨fun y z site bay order hu hw hrows hz turnedAway haway => ?_, fun s tag hs => ⟨fun sc hset => ?_,
    fun n hset => ?_, fun hrun => ⟨fun sc hnil => ?_, fun n hno => ?_, fun hw hu => ⟨fun sc n hne hn => ?_,
      fun n i o hf => ⟨fun hstate => ?_, fun hstate => ?_⟩⟩⟩⟩⟩
  · have h : y.intact := Yard.intact_of_undamaged hw hu
    have hrefused {why : Result} (hc : cancelChecks site (y.bay? bay) (((y.bay? bay).bind Bay.occupant).bind y.car?)
        (y.order? order) = some why) : turnedAway why :=
      (haway why).2 (Yard.turnedAway_leaves (hz.trans (Yard.postCancel_refused h site bay order hc)))
    refine ⟨fun hrun => hrefused (cancelChecks_setup hrun), fun hrun hno => hrefused (cancelChecks_notParked hrun ?_),
      fun hrun b n c hb hocc hc hp => ?_⟩
    · intro k hk
      obtain ⟨n, hocc, hcar⟩ := Option.bind_eq_some_iff.1 hk
      obtain ⟨b, hb, hocc⟩ := Option.bind_eq_some_iff.1 hocc
      exact hno b n k hb hocc hcar
    · have hreads : ((y.bay? bay).bind Bay.occupant).bind y.car? = some c := by
        rw [hb]
        exact (congrArg (Option.bind · y.car?) hocc).trans hc
      rw [hreads, hb] at hrefused
      refine ⟨fun ho => hrefused (cancelChecks_noSuch hrun hp fun x hx hx' => ho x hx ?_),
        fun i o hf hcar early hearly => ⟨fun hlate => hrefused ?_, fun hgo => ?_⟩⟩
      · exact Option.some.inj (hx'.symm.trans hocc)
      · have ho : y.order? order = some o := congrArg (Option.map Prod.snd) hf
        rw [ho, cancelChecks_known hrun hp (hocc.trans (congrArg some hcar.symm))]
        exact if_neg fun hx => hlate (hearly.2 (o.cancellable_iff.1 hx))
      · have ho : y.order? order = some o := congrArg (Option.map Prod.snd) hf
        have hpass : y.postCancel site bay order = (y.cancelOrder o .post).placeRestingNow bay (some o.car) := by
          refine Yard.postCancel_passed h site bay order ?_ ho
          rw [hreads, hb, ho, cancelChecks_known hrun hp (hocc.trans (congrArg some hcar.symm))]
          exact if_pos (o.cancellable_iff.2 (hearly.1 hgo))
        obtain ⟨hgone, hbays, hrunners, -, hcars, hraised⟩ :=
          Yard.cancelOrder_leaves h hrows hf (cause := .post) (by decide) rfl
        rw [hpass] at hz
        generalize y.cancelOrder o .post = w at *
        have hsig := Yard.signals.placeRestingNow w bay (some o.car)
        have hshows := w.placeRestingNow_shows bay (some o.car)
        rw [← hz] at hsig hshows
        rw [← hsig.restingLamp, hcar] at hshows
        obtain ⟨rs, hrs⟩ := hsig.raised
        refine ⟨hgone.signals hsig, ?_, ?_, ?_, hshows, rs, ?_⟩
        · rw [hsig.bay?]
          exact (congrArg Slot.record? (Yard.baySlot_congr hbays bay)).trans hb
        · obtain ⟨_, _, _, _, he⟩ := hsig
          rw [he]
          exact hrunners
        · rw [hsig.car?, ← hcar]
          exact hcars c (hcar ▸ hc)
        · rw [hrs, hraised, hcar, List.append_assoc]
          rfl
  · refine request_answers_quietly 0x27 tag (withFin 4 sc.val fun sc => inRun fun s => s.withYard
      (Reply.okWith (u16 (s.yard.releaseHeld sc).1)) (s.yard.releaseHeld sc).2) s s _ hs.2 ?_ hs.1
    exact withFin_setup hset sc _
  · exact request_answers_quietly 0x28 tag (inRun (forceCancelBody n)) s s _ hs.2 (inRun_setup _ _ hset) hs.1
  · have hz : s.yard.releaseHeld sc = (0, s.yard) := by
      unfold Yard.releaseHeld
      rw [hnil]
    refine request_answers_quietly 0x27 tag (withFin 4 sc.val fun sc => inRun fun s => s.withYard
      (Reply.okWith (u16 (s.yard.releaseHeld sc).1)) (s.yard.releaseHeld sc).2) s s _ hs.2 ?_ hs.1
    have hzero : u16 0 = [0#8, 0#8] := by decide
    rw [withFin_val, inRun_run _ _ hrun, hz, ← hzero]
    rfl
  · refine exec_forceCancel_refused hs hrun ?_
    unfold forceCancelBody Yard.readOrder
    rw [hno]
    rfl
  · obtain ⟨h, hrows⟩ := State.intact_rows hw hu
    obtain ⟨z, hz, hrel⟩ := Yard.releaseHeld_leaves h hne
    rw [← hn] at hz
    refine ⟨_, exec_orderRelease hs hrun sc hz, ?_, fun e he o ho => ?_, hrel.others, fun k hk => hrel.held k,
      hrel.queues, ?_, ?_⟩
    · refine (hrel.held sc).trans (List.filter_eq_nil_iff.2 fun e he => ?_)
      simp only [Bool.not_eq_true, Bool.not_eq_false', List.any_eq_true]
      exact ⟨e, he, beq_self_eq_true _⟩
    · refine (hrel.released e he).trans ?_
      rw [ho]
      rfl
    all_goals obtain ⟨held, queues, orders, rfl⟩ := hrel.rest
    · exact congrArg (fun l => (s.link.addPlace (.request 0x27 tag (Reply.okWith (u16 n)))).after
        (l ++ [.heldReleased sc n])) hs.1
    · exact ⟨rfl, rfl, rfl, rfl, rfl, rfl, rfl⟩
  · obtain ⟨h, hrows⟩ := State.intact_rows hw hu
    have ho : s.yard.order? n = some o := congrArg (Option.map Prod.snd) hf
    refine exec_forceCancel_refused hs hrun ?_
    unfold forceCancelBody
    rw [Yard.readOrder_intact h, ho]
    exact if_pos hstate
  · obtain ⟨h, hrows⟩ := State.intact_rows hw hu
    exact forceCancel_leaves hs hrun h hrows hf hstate

end Sys2Proof.Machine
end

section
/-! PROOF. The checks of an intake, where every record is readable (R143 to R146). -/

namespace Sys2Proof.Machine

/-! ## The next order number and the source of an intake -/

theorem Yard.nextOrder_eq {y : Yard} {used : Nat → Prop} {after : Nat → Nat} {d : Nat} (hl : y.lastOrder ≤ 9999)
    (hd : d < 9999) (hused : ∀ n, used n ↔ ∃ q ∈ inUse y.store.orders, q.2.number = n)
    (hafter : ∀ k, after k = (y.lastOrder + k) % 9999 + 1) (hfree : ¬used (after d)) (hbefore : ∀ k, k < d → used (after k)) :
    y.nextOrder = after d := by
  have hiff (n : Nat) : (y.findOrder n).isSome = true ↔ used n := by
    rw [hused]
    unfold Yard.findOrder
    simp
  exact freshNumber_first hl (by omega) hafter (Bool.eq_false_iff.2 fun h => hfree ((hiff _).1 h))
    fun k hk => (hiff _).2 (hbefore k hk)

theorem Yard.intake_source (y : Yard) (site : Site) (bay : Nat) (md : OrderMode) (lines : List WireLine) :
    (y.intake site bay md lines .post).1 = (y.intake site bay md lines .host).1 ∧
    { (y.intake site bay md lines .post).2 with raised := [] } =
      { (y.intake site bay md lines .host).2 with raised := [] } := by
  unfold Yard.intake
  dsimp only
  split
  · exact ⟨rfl, rfl⟩
  · exact ⟨rfl, rfl⟩
  · exact ⟨rfl, rfl⟩

/-! ## The items read -/

/-- What an intake reads of its lines' items. -/
def Yard.itemReads (y : Yard) (lines : List WireLine) : List (Nat × Read MenuItem) :=
  (itemsOf lines).map fun i => (i, Read.of (y.item? i))

/-- Whether an item is not on sale. -/
def Yard.offSale (y : Yard) (i : Nat) : Bool :=
  match y.item? i with
  | some m => !m.available
  | none => true

/-- Whether an item falls short of what the lines ask of it. -/
def Yard.fallsShort (y : Yard) (lines : List WireLine) (i : Nat) : Bool :=
  match y.item? i with
  | some m => decide (m.mode = .finite) && decide (m.remaining < askedOf lines i)
  | none => false

section items
variable {y : Yard} {lines : List WireLine}

theorem readOf_itemReads {i : Nat} (hi : i ∈ lines.map WireLine.item) : readOf (y.itemReads lines) i = y.item? i := by
  have hmem : i ∈ itemsOf lines := List.mem_eraseDups.2 hi
  have hfind : (itemsOf lines).find? (fun k => k == i) = some i := by
    obtain ⟨k, hk⟩ : ∃ k, (itemsOf lines).find? (fun k => k == i) = some k := Option.isSome_iff_exists.1 (List.find?_isSome.2 ⟨i, hmem, beq_self_eq_true i⟩)
    have hki : k = i := beq_iff_eq.1 (List.find?_some (p := fun k => k == i) hk)
    exact hki ▸ hk
  unfold readOf Yard.itemReads
  rw [List.find?_map]
  change ((List.find? (fun k => k == i) (itemsOf lines)).map _).bind _ = _
  rw [hfind]
  exact Read.record?_of _

theorem notOnSale_eq : notOnSale (y.itemReads lines) lines = (lines.map WireLine.item).find? y.offSale :=
  List.find?_congr fun i hi => by
    rw [readOf_itemReads hi]
    rfl

theorem soldOutItem_eq : soldOutItem (y.itemReads lines) lines = (lines.map WireLine.item).find? (y.fallsShort lines) :=
  List.find?_congr fun i hi => by
    rw [readOf_itemReads hi]
    rfl

theorem stationsOf_eq {ms : List MenuItem} (hms : lines.map (fun l => y.item? l.item) = ms.map some) :
    stationsOf (y.itemReads lines) lines = ms.map MenuItem.station := by
  have hread : stationsOf (y.itemReads lines) lines = lines.filterMap fun l => (y.item? l.item).map MenuItem.station :=
    List.filterMap_congr fun l hl => by rw [readOf_itemReads (List.mem_map_of_mem hl)]
  rw [hread]
  clear hread
  induction lines generalizing ms with
  | nil =>
    cases ms with
    | nil => rfl
    | cons m ms => cases hms
  | cons l lines ih =>
    cases ms with
    | nil => cases hms
    | cons m ms =>
      obtain ⟨hl, hrest⟩ := List.cons.inj hms
      replace hl : y.item? l.item = some m := hl
      rw [List.filterMap_cons, hl]
      exact congrArg (m.station :: ·) (ih hrest)

theorem totalOf_eq {ms : List MenuItem} (hms : lines.map (fun l => y.item? l.item) = ms.map some) :
    totalOf (y.itemReads lines) lines = ((lines.zip ms).map fun e => e.2.price * e.1.qty).sum := by
  have hread : totalOf (y.itemReads lines) lines = (lines.map fun l => match y.item? l.item with
      | some m => m.price * l.qty
      | none => 0).sum :=
    congrArg List.sum (List.map_congr_left fun l hl => by rw [readOf_itemReads (List.mem_map_of_mem hl)] <;> rfl)
  rw [hread]
  clear hread
  induction lines generalizing ms with
  | nil => rfl
  | cons l lines ih =>
    cases ms with
    | nil => cases hms
    | cons m ms =>
      obtain ⟨hl, hrest⟩ := List.cons.inj hms
      replace hl : y.item? l.item = some m := hl
      rw [List.map_cons, List.sum_cons, hl, ih hrest]
      rfl

/-- The first item in line order for which a test holds. -/
theorem find?_items {f : Nat → Bool} {l : WireLine} {pre post : List WireLine} (hl : lines = pre ++ l :: post)
    (hf : f l.item = true) (hpre : ∀ k ∈ pre, f k.item = false) :
    (lines.map WireLine.item).find? f = some l.item := by
  have hnone : (pre.map WireLine.item).find? f = none := by
    refine List.find?_eq_none.2 fun i hi => ?_
    obtain ⟨k, hk, rfl⟩ := List.mem_map.1 hi
    rw [hpre k hk]
    decide
  rw [hl, List.map_append, List.find?_append, hnone, List.map_cons, List.find?_cons_of_pos hf]
  rfl

theorem find?_items_none {f : Nat → Bool} (hf : ∀ k ∈ lines, f k.item = false) :
    (lines.map WireLine.item).find? f = none := by
  refine List.find?_eq_none.2 fun i hi => ?_
  obtain ⟨k, hk, rfl⟩ := List.mem_map.1 hi
  rw [hf k hk]
  decide

end items

/-! ## The checks -/

/-- What an intake reads of a bay and its occupant. -/
def Yard.occupantReads (y : Yard) (bay : Nat) : BayReads :=
  { bay := Read.of (y.bay? bay), car := Read.of (((y.bay? bay).bind Bay.occupant).bind y.car?) }

/-- What an intake does once its checks are made. -/
theorem Yard.intake_intact {y : Yard} (h : y.intact) (site : Site) (bay : Nat) (md : OrderMode) (lines : List WireLine)
    (source : OrderSource) : y.intake site bay md lines source =
    match y.intakeFailure site bay (y.occupantReads bay) (y.itemReads lines) lines, (y.occupantReads bay).parked,
      lowestFree y.store.orders TableId.order.size with
    | some (reason, item), _, _ => (.refused reason item, y)
    | none, some c, some slot => y.acceptOrder site bay slot c (y.itemReads lines) md lines source
    | none, _, _ => (.refused .storeError none, y) := by
  unfold Yard.intake
  rw [Yard.readOccupant_intact h]
  dsimp only
  rw [Yard.readItems_intact h]
  rfl

section checks
variable {y : Yard} {site : Site} {bay : Nat} {lines : List WireLine} {c : Car}

theorem Yard.intakeFailure_setup (hrun : site.run = false) (r : BayReads) (items : List (Nat × Read MenuItem)) :
    y.intakeFailure site bay r items lines = some (.state, none) := by
  unfold Yard.intakeFailure
  rw [hrun]
  rfl

theorem Yard.occupantReads_lost : (y.occupantReads bay).lost = false := by
  unfold BayReads.lost Yard.occupantReads
  rw [Read.faulty_of, Read.faulty_of]
  rfl

theorem Yard.itemReads_whole : ((y.itemReads lines).any fun e => e.2.faulty) = false := by
  unfold Yard.itemReads
  simp [Read.faulty_of]

theorem Yard.intakeFailure_notParked (hrun : site.run = true) (hp : (y.occupantReads bay).parked = none) :
    y.intakeFailure site bay (y.occupantReads bay) (y.itemReads lines) lines = some (.notParked, none) := by
  unfold Yard.intakeFailure
  rw [hrun, Yard.occupantReads_lost, hp]
  rfl

variable (hrun : site.run = true) (hp : (y.occupantReads bay).parked = some c)
include hrun hp

theorem Yard.intakeFailure_parked :
    y.intakeFailure site bay (y.occupantReads bay) (y.itemReads lines) lines =
      if (site.screens[bayLoop bay]).orderingOpen = false then some (.closed, none)
      else if 4 ≤ c.orders.length then some (.limit, none)
      else if ((lines.map WireLine.item).find? y.offSale).isSome then
        some (.noSuch, (lines.map WireLine.item).find? y.offSale)
      else if ((lines.map WireLine.item).find? (y.fallsShort lines)).isSome then
        some (.soldOut, (lines.map WireLine.item).find? (y.fallsShort lines))
      else if y.overloaded (stationsOf (y.itemReads lines) lines) then some (.full, none)
      else if lowestFree y.store.orders TableId.order.size = none then some (.full, none)
      else none := by
  unfold Yard.intakeFailure
  rw [hrun, Yard.occupantReads_lost, hp, Yard.itemReads_whole, notOnSale_eq, soldOutItem_eq]
  simp

end checks

end Sys2Proof.Machine
end

section
/-! PROOF. An order accepted: its moves of stock, its record, its car's list and the list or queues it joins (R141, R146,
R147, R150). -/

namespace Sys2Proof.Machine

/-! ## The moves of stock -/

theorem MenuItem.orderMove_add (m : MenuItem) (a b : Nat) : (m.orderMove a).orderMove b = m.orderMove (a + b) := by
  unfold MenuItem.orderMove raiseTally
  cases m.mode <;> simp <;> omega

theorem foldl_orderMove (ls : List WireLine) (m : MenuItem) (a : Nat) :
    ls.foldl (fun m l => m.orderMove l.qty) (m.orderMove a) = m.orderMove (a + (ls.map WireLine.qty).sum) := by
  induction ls generalizing a with
  | nil => rfl
  | cons l ls ih => rw [List.foldl_cons, MenuItem.orderMove_add, ih, List.map_cons, List.sum_cons, Nat.add_assoc]

/-- The moves of an item by the lines that name it. -/
def ordered (lines : List WireLine) (k : Nat) (m : MenuItem) : MenuItem :=
  (lines.filter fun l => l.item == k).foldl (fun m l => m.orderMove l.qty) m

theorem ordered_named {lines : List WireLine} {l : WireLine} (hl : l ∈ lines) (m : MenuItem) :
    ordered lines l.item m = m.orderMove (askedOf lines l.item) := by
  unfold ordered askedOf
  have hmem : l ∈ lines.filter fun k => k.item == l.item := List.mem_filter.2 ⟨hl, beq_self_eq_true _⟩
  cases hf : lines.filter fun k => k.item == l.item with
  | nil => exact absurd (hf ▸ hmem) List.not_mem_nil
  | cons k ks => rw [List.foldl_cons, foldl_orderMove, List.map_cons, List.sum_cons]

theorem ordered_unnamed {lines : List WireLine} {k : Nat} (h : ∀ l ∈ lines, 1 ≤ l.qty) (hk : askedOf lines k = 0)
    (m : MenuItem) : ordered lines k m = m := by
  have hnil : lines.filter (fun l => l.item == k) = [] := by
    refine List.filter_eq_nil_iff.2 fun l hl hlk => ?_
    have hq : l.qty ∈ (lines.filter fun l => l.item == k).map WireLine.qty :=
      List.mem_map_of_mem (List.mem_filter.2 ⟨hl, hlk⟩)
    have := List.single_le_sum (fun _ _ => Nat.zero_le _) _ hq
    have := h l hl
    unfold askedOf at hk
    omega
  unfold ordered
  rw [hnil]
  rfl

theorem MenuItem.orderMove_enough {m : MenuItem} {k : Nat} (h : m.mode = .finite → k ≤ m.remaining) :
    m.orderMove k = match m.mode with
      | .finite => { m with remaining := m.remaining - k, pending := m.pending + k }
      | .unlimited => { m with pending := min (m.pending + k) 65535 } := by
  unfold MenuItem.orderMove raiseTally
  cases hm : m.mode with
  | finite => simp only [min_eq_left (h hm)]
  | unlimited => rfl

theorem Yard.orderMoves_leaves (lines : List WireLine) {y : Yard} (h : y.intact) : (y.orderMoves lines).intact ∧
    (∃ menu rs, y.orderMoves lines =
      { y with store := { y.store with menu := menu }, raised := y.raised ++ rs }) ∧
    ∀ k, (y.orderMoves lines).item? k = (y.item? k).map (ordered lines k) := by
  induction lines generalizing y with
  | nil => exact ⟨h, ⟨y.store.menu, [], by rw [List.append_nil]; rfl⟩, fun k => (Option.map_id').symm⟩
  | cons l lines ih =>
    have hstep : ∃ x : Yard, y.orderMoves (l :: lines) = x.orderMoves lines ∧ x.intact ∧
        (∃ menu rs, x = { y with store := { y.store with menu := menu }, raised := y.raised ++ rs }) ∧
        ∀ k, x.item? k = (y.item? k).map fun m => if k = l.item then m.orderMove l.qty else m := by
      cases hm : y.item? l.item with
      | none =>
        refine ⟨y, ?_, h, ⟨y.store.menu, [], by rw [List.append_nil]⟩, fun k => ?_⟩
        · unfold Yard.orderMoves
          rw [List.foldl_cons, hm]
        · by_cases hk : k = l.item
          · rw [hk, hm]
            rfl
          · cases y.item? k <;> simp [hk]
      | some m =>
        have hint := h.modItem l.item fun _ => m.orderMove l.qty
        have hitem (k : Nat) := Yard.item?_modItem h (fun _ => m.orderMove l.qty) l.item k
        obtain ⟨menu, hmenu⟩ := y.modItem_menu l.item fun _ => m.orderMove l.qty
        have hmoved (k : Nat) : ((y.modItem l.item fun _ => m.orderMove l.qty)).item? k =
            (y.item? k).map fun m => if k = l.item then m.orderMove l.qty else m := by
          rw [hitem]
          by_cases hk : k = l.item
          · rw [hk, hm]
            simp
          · simp [hk]
        by_cases hout : m.mode = .finite ∧ 0 < m.remaining ∧ (m.orderMove l.qty).remaining = 0
        · refine ⟨(y.modItem l.item fun _ => m.orderMove l.qty).raise ((m.orderMove l.qty).stockReport l.item), ?_,
            hint.congr rfl, ⟨menu, [(m.orderMove l.qty).stockReport l.item], by rw [hmenu]; rfl⟩, hmoved⟩
          unfold Yard.orderMoves
          rw [List.foldl_cons, hm]
          exact congrArg (fun w => List.foldl _ w lines) (if_pos hout)
        · refine ⟨y.modItem l.item fun _ => m.orderMove l.qty, ?_, hint, ⟨menu, [], by rw [hmenu, List.append_nil]⟩,
            hmoved⟩
          unfold Yard.orderMoves
          rw [List.foldl_cons, hm]
          exact congrArg (fun w => List.foldl _ w lines) (if_neg hout)
    obtain ⟨x, hx, hxint, ⟨menu, rs, hxe⟩, hxitem⟩ := hstep
    obtain ⟨hint, ⟨menu', rs', he⟩, hitem⟩ := ih hxint
    rw [hx]
    refine ⟨hint, ⟨menu', rs ++ rs', ?_⟩, fun k => ?_⟩
    · rw [he, hxe, List.append_assoc]
    · rw [hitem, hxitem, Option.map_map]
      congr 1
      funext m
      unfold ordered
      by_cases hk : k = l.item
      · simp [hk]
      · simp [hk, Ne.symm hk]

/-! ## The order accepted -/

/-- The list or the queues that an order joins. -/
theorem Yard.joinLists_eq (y : Yard) (sc : ScreenId) (n : Nat) (first : OrderState) (fresh : List Line)
    (sts : List StationId) : ∃ held queues,
    (if first = .held then y.hold sc { order := n, stations := sts } else y.enqueueLines n fresh sts) =
      { y with held := held, queues := queues } ∧
    held = (if first = .held then y.held.set sc (y.held[sc] ++ [{ order := n, stations := sts }]) else y.held) ∧
    ∀ st : StationId, queues[st] = (if first = .held then y.queues[st] else y.queues[st] ++ refsFor n fresh sts st) := by
  by_cases hfirst : first = .held
  · rw [if_pos hfirst, if_pos hfirst]
    exact ⟨_, y.queues, rfl, rfl, fun st => (if_pos hfirst).symm⟩
  · obtain ⟨queues, he, hq⟩ := y.enqueueLines_eq n fresh sts
    rw [if_neg hfirst, if_neg hfirst]
    exact ⟨y.held, queues, he, rfl, fun st => (hq st).trans (if_neg hfirst).symm⟩

/-- What an order accepted leaves. -/
theorem Yard.acceptOrder_leaves {y : Yard} (h : y.intact) (site : Site) (bay slot : Nat) {c : Car}
    (items : List (Nat × Read MenuItem)) (md : OrderMode) (lines : List WireLine) (source : OrderSource)
    (hc : y.car? c.number = some c) {n total : Nat} {first : OrderState} {sts : List StationId}
    (hn : n = y.nextOrder) (htotal : totalOf items lines = total) (hfirst : firstState md site.screens[c.screen] = first)
    (hsts : stationsOf items lines = sts) :
    ∃ z rs, y.acceptOrder site bay slot c items md lines source = (.accepted n total first, z) ∧
      z.intact ∧ z.lastOrder = n ∧
      (z.orderSlot slot).record? = some {
        number := n, car := c.number, screen := c.screen, mode := md, state := first, lines := freshLines lines,
        total := total, accepted := site.minute, readyMinute := none, taker := none, carGone := false } ∧
      z.car? c.number = some { c with orders := c.orders ++ [n] } ∧
      (∀ k, z.item? k = (y.item? k).map (ordered lines k)) ∧
      z.held = (if first = .held then y.held.set c.screen (y.held[c.screen] ++ [{ order := n, stations := sts }])
        else y.held) ∧
      (∀ st : StationId, z.queues[st] = (if first = .held then y.queues[st]
        else y.queues[st] ++ refsFor n (freshLines lines) sts st)) ∧
      z.raised = y.raised ++ (rs ++ [.orderIn n c.number bay c.screen md first total
        (lines.map fun l => (l.item, l.qty)) source]) := by
  subst hn htotal hfirst hsts
  obtain ⟨x, hx, hxint⟩ : ∃ x, x = ({ y with lastOrder := y.nextOrder } : Yard).setOrderSlot slot
      ((y.orderSlot slot).write {
        number := y.nextOrder, car := c.number, screen := c.screen, mode := md,
        state := firstState md site.screens[c.screen], lines := freshLines lines, total := totalOf items lines,
        accepted := site.minute, readyMinute := none, taker := none, carGone := false }) ∧ x.intact :=
    ⟨_, rfl, (h.congr (z := { y with lastOrder := y.nextOrder }) rfl).setOrderSlot slot (Slot.good_write _ _)⟩
  obtain ⟨hint, ⟨menu, rs, he⟩, hitem⟩ := Yard.orderMoves_leaves lines hxint
  have hslot : (x.orderSlot slot).record? = some {
      number := y.nextOrder, car := c.number, screen := c.screen, mode := md,
      state := firstState md site.screens[c.screen], lines := freshLines lines, total := totalOf items lines,
      accepted := site.minute, readyMinute := none, taker := none, carGone := false } := by
    rw [hx]
    exact congrArg Slot.record? (Tab.get_put_self h.orders slot _)
  have hxrest : x.findCar c.number = y.findCar c.number ∧ (∀ k, x.item? k = y.item? k) ∧ x.held = y.held ∧
      x.queues = y.queues ∧ x.raised = y.raised ∧ x.lastOrder = y.nextOrder := by
    rw [hx]
    exact ⟨rfl, fun _ => rfl, rfl, rfl, rfl, rfl⟩
  have hacc : y.acceptOrder site bay slot c items md lines source =
      (.accepted y.nextOrder (totalOf items lines) (firstState md site.screens[c.screen]),
        (if firstState md site.screens[c.screen] = .held then
          ((x.orderMoves lines).modCar c.number fun c => { c with orders := c.orders ++ [y.nextOrder] }).hold c.screen
            { order := y.nextOrder, stations := stationsOf items lines }
        else ((x.orderMoves lines).modCar c.number fun c => { c with orders := c.orders ++ [y.nextOrder] }).enqueueLines
          y.nextOrder (freshLines lines) (stationsOf items lines)).raise
        (.orderIn y.nextOrder c.number bay c.screen md (firstState md site.screens[c.screen]) (totalOf items lines)
          (lines.map fun l => (l.item, l.qty)) source)) := by
    rw [hx]
    rfl
  clear hx
  obtain ⟨hfind, hxitem, hheld, hqueues, hraised, hlast⟩ := hxrest
  have hcar := Yard.car?_modCar hint (f := fun c => { c with orders := c.orders ++ [y.nextOrder] }) (fun _ => rfl)
    c.number c.number
  have hintc := hint.modCar c.number fun c => { c with orders := c.orders ++ [y.nextOrder] }
  obtain ⟨cars, hcars⟩ := (x.orderMoves lines).modCar_cars c.number
    fun c => { c with orders := c.orders ++ [y.nextOrder] }
  obtain ⟨held, queues, hjoin, hheld', hqueues'⟩ := Yard.joinLists_eq
    ((x.orderMoves lines).modCar c.number fun c => { c with orders := c.orders ++ [y.nextOrder] }) c.screen y.nextOrder
    (firstState md site.screens[c.screen]) (freshLines lines) (stationsOf items lines)
  rw [hjoin] at hacc
  rw [hcars, he] at hacc hheld' hqueues' hcar hintc
  rw [he] at hitem
  refine ⟨_, rs, hacc, hintc.congr rfl, hlast, hslot, ?_, fun k => ?_, ?_, fun st => ?_, ?_⟩
  · have hfound : x.car? c.number = some c := (congrArg (Option.map Prod.snd) hfind).trans hc
    exact hcar.trans ((congrArg (Option.map _) hfound).trans (congrArg some (if_pos rfl)))
  · exact (hitem k).trans (by rw [hxitem])
  · exact hheld'.trans (by rw [← hheld])
  · exact (hqueues' st).trans (by rw [← hqueues])
  · exact (congrArg (fun l => (l ++ rs) ++ [_]) hraised).trans (List.append_assoc _ _ _)

end Sys2Proof.Machine
end

section
/-! PROOF. ORDER ENTER (R143 to R149). -/

namespace Sys2Proof.Machine

theorem OrderMode.of_ctorIdx (md : OrderMode) : OrderMode.of md.ctorIdx = some md := by cases md <;> rfl

section enter
variable {s : State} {tag bay : Nat} {md : OrderMode} {lines : List WireLine} {c : Car}

theorem enter_forms (hbay : bay ≤ 1023) (hl : ∀ l ∈ lines, l.item ≤ 63 ∧ 1 ≤ l.qty ∧ l.qty ≤ 9) :
    (decide (bay ≤ 1023) && lines.all WireLine.enterable) = true := by
  have hall : lines.all WireLine.enterable = true := List.all_eq_true.2 fun l hmem => by
    simp [WireLine.enterable, hl l hmem]
  rw [hall, decide_eq_true hbay]
  rfl

/-- The body of an ORDER ENTER whose fields are in their ranges. -/
theorem orderEnter_body (h1 : 1 ≤ lines.length) (h8 : lines.length ≤ 8) (hbay : bay ≤ 1023)
    (hl : ∀ l ∈ lines, l.item ≤ 63 ∧ 1 ≤ l.qty ∧ l.qty ≤ 9) (s : State) :
    (match OrderMode.of md.ctorIdx with
      | some md =>
        if 1 ≤ lines.length ∧ lines.length ≤ 8 then
          inRange (decide (bay ≤ 1023) && lines.all WireLine.enterable) (orderEnterBody bay md lines) s
        else malformed s
      | none => malformed s) = orderEnterBody bay md lines s := by
  rw [OrderMode.of_ctorIdx]
  dsimp only
  rw [if_pos ⟨h1, h8⟩, inRange_ok (enter_forms hbay hl)]

section body
variable (h1 : 1 ≤ lines.length) (h8 : lines.length ≤ 8) (hbay : bay ≤ 1023)
  (hl : ∀ l ∈ lines, l.item ≤ 63 ∧ 1 ≤ l.qty ∧ l.qty ≤ 9) (hs : s.ready) (h : s.yard.intact)
include h1 h8 hbay hl hs h

/-- An order that a check refuses. -/
theorem exec_orderEnter_refused {why : Result} {item : Option Nat}
    (hf : s.yard.intakeFailure s.site bay (s.yard.occupantReads bay) (s.yard.itemReads lines) lines = some (why, item)) :
    exec (.orderEnter tag bay md.ctorIdx lines) s = .next (s.answered 0x26 tag
      { result := why, indication := .none, fields := item.elim [] fun i => [.raw (u8 i)] } []) := by
  refine request_answers_quietly 0x26 tag _ s s _ hs.2 ((orderEnter_body h1 h8 hbay hl s).trans ?_) hs.1
  unfold orderEnterBody
  rw [Yard.intake_intact h, hf]
  cases item <;> rfl

/-- An order that passes every check. -/
theorem exec_orderEnter_accepted {slot n total : Nat} {first : OrderState} {z : Yard}
    (hf : s.yard.intakeFailure s.site bay (s.yard.occupantReads bay) (s.yard.itemReads lines) lines = none)
    (hp : (s.yard.occupantReads bay).parked = some c)
    (hslot : lowestFree s.yard.store.orders TableId.order.size = some slot)
    (hz : s.yard.acceptOrder s.site bay slot c (s.yard.itemReads lines) md lines .host = (.accepted n total first, z)) :
    exec (.orderEnter tag bay md.ctorIdx lines) s = .next (({ s with
      yard := { z.placePassing bay lampAccepted with raised := [] } } : State).answered 0x26 tag
        (Reply.okWith (u16 n ++ u32 total ++ u8 first.ctorIdx)) (z.placePassing bay lampAccepted).raised) := by
  refine request_yard hs ((orderEnter_body h1 h8 hbay hl s).trans ?_)
  unfold orderEnterBody
  rw [Yard.intake_intact h, hf, hp, hslot]
  dsimp only
  rw [hz]
  rfl

end body

/-- The occupant of a bay that is PARKED there. -/
theorem Yard.occupantReads_parked {y : Yard} {b : Bay} {n : Nat} (hb : y.bay? bay = some b) (hocc : b.occupant = some n)
    (hc : y.car? n = some c) (hp : c.state = .parked) : (y.occupantReads bay).parked = some c := by
  have hread : ((y.bay? bay).bind Bay.occupant).bind y.car? = some c := by
    rw [hb]
    exact (congrArg (Option.bind · y.car?) hocc).trans hc
  unfold Yard.occupantReads BayReads.parked
  rw [hread]
  exact if_pos hp

theorem Yard.occupantReads_notParked {y : Yard} (h : ∀ c, ((y.bay? bay).bind Bay.occupant).bind y.car? = some c →
    c.state ≠ .parked) : (y.occupantReads bay).parked = none := by
  unfold Yard.occupantReads BayReads.parked
  cases hc : ((y.bay? bay).bind Bay.occupant).bind y.car? with
  | none => rfl
  | some c => exact if_neg (h c hc)

end enter

theorem firstState_eq (md : OrderMode) (r : Screen) : firstState md r =
    if md = .now ∨ r.breakWindow = true ∨ r.phase ∈ [ShowState.onBreak, .ended, .halted] then .queued else .held := by
  unfold firstState
  cases md with
  | now => rfl
  | atBreak => simp [or_assoc]

/-- The references of new lines, each PENDING. -/
theorem refsFor_fresh (n : Nat) (lines : List WireLine) (sts : List StationId) (st : StationId) :
    refsFor n (freshLines lines) sts st = (((freshLines lines).zipIdx.zip sts).filter fun e => decide (e.2 = st)).map
      fun e => { order := n, line := e.1.2, item := e.1.1.item, qty := e.1.1.qty, state := .pending } := by
  refine List.map_congr_left fun x hx => ?_
  have hline : x.1.1 ∈ freshLines lines :=
    List.fst_mem_of_mem_zipIdx (List.of_mem_zip (List.mem_filter.1 hx).1).1
  obtain ⟨l, -, hl⟩ := List.mem_map.1 hline
  rw [← hl]

section checks
variable {y : Yard} {lines : List WireLine}

theorem Yard.offSale_eq_false {i : Nat} : y.offSale i = false ↔ ∃ m, y.item? i = some m ∧ m.available = true := by
  unfold Yard.offSale
  cases y.item? i with
  | none => simp
  | some m => simp

theorem Yard.offSale_eq_true {i : Nat} : y.offSale i = true ↔ ∀ m, y.item? i = some m → m.available = false := by
  unfold Yard.offSale
  cases y.item? i with
  | none => simp
  | some m => simp

theorem Yard.fallsShort_eq_false {i : Nat} : y.fallsShort lines i = false ↔
    ∀ m, y.item? i = some m → m.mode = .finite → askedOf lines i ≤ m.remaining := by
  unfold Yard.fallsShort
  cases y.item? i with
  | none => simp
  | some m => simp

theorem Yard.fallsShort_eq_true {i : Nat} {m : MenuItem} (hi : y.item? i = some m) (hm : m.mode = .finite)
    (hlow : m.remaining < askedOf lines i) : y.fallsShort lines i = true := by
  unfold Yard.fallsShort
  rw [hi]
  simp [hm, hlow]

theorem Yard.overloaded_iff {sts : List StationId} :
    y.overloaded sts = true ↔ ∃ st : StationId, 128 < y.load st + sts.count st := by
  unfold Yard.overloaded
  simp

/-- Where every line's item is on sale, no check of the sale fails. -/
theorem find?_offSale_none {ms : List MenuItem} (hms : lines.map (fun l => y.item? l.item) = ms.map some)
    (hsale : ∀ m ∈ ms, m.available = true) : (lines.map WireLine.item).find? y.offSale = none := by
  refine find?_items_none fun k hk => Yard.offSale_eq_false.2 ?_
  have hmem : y.item? k.item ∈ ms.map some := hms ▸ List.mem_map_of_mem (f := fun l => y.item? l.item) hk
  obtain ⟨m, hm, he⟩ := List.mem_map.1 hmem
  exact ⟨m, he.symm, hsale m hm⟩

end checks

/-- Settles O50: the checks of an intake one by one, and what the acceptance leaves. -/
theorem orderEnterTaken : Obligations.OrderEnterTaken := by
  unfold Obligations.OrderEnterTaken
  refine ⟨fun y used after d hl hd hused hafter hfree hbefore => Yard.nextOrder_eq hl hd hused hafter hfree hbefore,
    Yard.intake_source, fun s tag bay md lines x hs hw hu hbay h1 h8 hlines hx => ?_⟩
  subst hx
  obtain ⟨h, -⟩ := State.intact_rows hw hu
  have hrunning (hrun : s.link.part = .run) : s.site.run = true := decide_eq_true hrun
  refine ⟨fun hset => ?_, fun hrun hno => ?_, fun hrun b hb hno => ?_, fun hrun b n c hb hocc hc hp => ?_⟩
  · have hsite : s.site.run = false := decide_eq_false (by rw [hset]; decide)
    exact exec_orderEnter_refused h1 h8 hbay hlines hs h (Yard.intakeFailure_setup hsite _ _)
  · refine exec_orderEnter_refused h1 h8 hbay hlines hs h (Yard.intakeFailure_notParked (hrunning hrun)
      (Yard.occupantReads_notParked fun c hc => ?_))
    rw [hno] at hc
    cases hc
  · refine exec_orderEnter_refused h1 h8 hbay hlines hs h (Yard.intakeFailure_notParked (hrunning hrun)
      (Yard.occupantReads_notParked fun c hc => ?_))
    obtain ⟨n, hocc, hcar⟩ := Option.bind_eq_some_iff.1 hc
    rw [hb] at hocc
    exact hno n c hocc hcar
  have hparked := Yard.occupantReads_parked hb hocc hc hp
  have hchecks := Yard.intakeFailure_parked (y := s.yard) (lines := lines) (hrunning hrun) hparked
  have hgate (hopen : (s.screens[bayLoop bay]).orderingOpen = true) :
      ¬(s.site.screens[bayLoop bay]).orderingOpen = false := fun hshut => absurd (hopen.symm.trans hshut) (by decide)
  have hrefuse {why : Result} {item : Option Nat} := exec_orderEnter_refused (tag := tag) (md := md) h1 h8 hbay hlines hs h
    (why := why) (item := item)
  refine ⟨fun hshut => hrefuse (item := none) (hchecks.trans (if_pos hshut)), fun hopen hmany => ?_,
    fun hopen hfew => ⟨fun l pre post hl hpre hoff => ?_, fun ms asked hms hsale hasked => ?_⟩⟩
  · exact hrefuse (item := none) (hchecks.trans ((if_neg (hgate hopen)).trans (if_pos hmany)))
  all_goals rw [if_neg (hgate hopen), if_neg (by omega)] at hchecks
  · have hfind := find?_items hl (Yard.offSale_eq_true.2 hoff) fun k hk => Yard.offSale_eq_false.2 (hpre k hk)
    rw [hfind] at hchecks
    exact hrefuse (item := some l.item) hchecks
  obtain rfl : asked = askedOf lines := funext hasked
  rw [find?_offSale_none hms hsale, if_neg (by decide)] at hchecks
  refine ⟨fun l m pre post hl hpre hm hfin hlow => ?_, fun sts hsts hall hfull => ?_,
    fun slot n' first fresh sts total r hall hsts hload hslot hn hr hfirst hfresh htotal => ?_⟩
  · have hfind := find?_items hl (Yard.fallsShort_eq_true hm hfin hlow) fun k hk => Yard.fallsShort_eq_false.2 (hpre k hk)
    rw [hfind] at hchecks
    exact hrefuse (item := some l.item) hchecks
  all_goals rw [find?_items_none fun k hk => Yard.fallsShort_eq_false.2 (hall k hk), if_neg (by decide),
    stationsOf_eq hms, ← hsts] at hchecks
  · rcases hfull with hover | hnone
    · exact hrefuse (item := none) (hchecks.trans (if_pos (Yard.overloaded_iff.2 hover)))
    · refine hrefuse (item := none) (hchecks.trans ?_)
      split
      · rfl
      · exact if_pos hnone
  · subst hfresh hr
    have hpass := hchecks.trans ((if_neg fun hover => ?_).trans (if_neg fun hnone => absurd (hslot.symm.trans hnone) (by simp)))
    · have hnum : c.number = n := Yard.car?_number h hc
      obtain ⟨z, rs, hz, -, hlast, horder, hcar, hitem, hheld, hqueues, hraised⟩ := Yard.acceptOrder_leaves h s.site bay slot
        (s.yard.itemReads lines) md lines .host (hnum.symm ▸ hc) hn ((totalOf_eq hms).trans htotal.symm)
        ((firstState_eq md s.screens[c.screen]).trans hfirst.symm) ((stationsOf_eq hms).trans hsts.symm)
      have hexec := exec_orderEnter_accepted (tag := tag) h1 h8 hbay hlines hs h hpass hparked hslot hz
      obtain ⟨loops, rs', spk, lamp, he⟩ := Yard.signals.placePassing z bay lampAccepted
      rw [he] at hexec
      refine ⟨_, _, hexec, rfl, ?_, hlast, horder, hnum ▸ hcar, fun l hl m hm => ?_, fun i hi => ?_, hheld,
        fun st => ?_, rfl, rfl, rfl⟩
      · rw [hraised]
        simp
      · refine (hitem l.item).trans ?_
        rw [hm, Option.map_some, ordered_named hl]
        exact congrArg some (MenuItem.orderMove_enough fun hfin => hall l hl m hm hfin)
      · refine (hitem i).trans ?_
        cases s.yard.item? i with
        | none => rfl
        | some m => exact congrArg some (ordered_unnamed (fun l hl => (hlines l hl).2.1) hi m)
      · refine (hqueues st).trans ?_
        rw [refsFor_fresh]
        rfl
    · obtain ⟨st, hst⟩ := Yard.overloaded_iff.1 hover
      exact absurd (hload st) (by omega)

end Sys2Proof.Machine
end

section
/-! PROOF. What the departure of a car makes of its orders, one after another (R131, R155). -/

namespace Sys2Proof.Machine

/-! ## The records of a table after a write -/

section index
variable {ρ : Type} [DecidableEq ρ] {t : Tab (Slot ρ)} {i : Nat} {sl : Slot ρ}

theorem mem_inUse_iff (hw : Tab.wf Slot.blank t = true) {j : Nat} {r : ρ} :
    (j, r) ∈ inUse t ↔ (Tab.get Slot.blank t j).record? = some r := ⟨get_of_mem_inUse hw, mem_inUse_of_get⟩

/-- Two lists of records in rising order of their slots with the same members are one list. -/
theorem records_eq {l m : List (Nat × ρ)} (hl : l.Pairwise fun a b => a.1 < b.1) (hm : m.Pairwise fun a b => a.1 < b.1)
    (h : ∀ e, e ∈ l ↔ e ∈ m) : l = m := by
  have hnodup {l : List (Nat × ρ)} (hl : l.Pairwise fun a b => a.1 < b.1) : l.Nodup :=
    hl.imp fun {a b} hlt => fun heq => Nat.lt_irrefl a.1 (heq ▸ hlt)
  exact List.Perm.eq_of_pairwise (fun a b _ _ hab hba => absurd hab (Nat.lt_asymm hba)) hl hm
    ((List.perm_ext_iff_of_nodup (hnodup hl) (hnodup hm)).2 h)

/-- The records after a slot is freed. -/
theorem inUse_put_free (hw : Tab.wf Slot.blank t = true) (hr : sl.record? = none) :
    inUse (Tab.put Slot.blank t i sl) = (inUse t).filter fun e => e.1 != i := by
  refine records_eq (inUse_sorted (Tab.wf_put hw _ _)).1 ((inUse_sorted hw).1.filter _) fun ⟨j, r⟩ => ?_
  rw [mem_inUse_iff (Tab.wf_put hw _ _), Tab.get_put hw, List.mem_filter, mem_inUse_iff hw]
  by_cases hj : j = i
  · simp [hj, hr]
  · simp [hj]

/-- The records after one is written anew. -/
theorem inUse_put_write (hw : Tab.wf Slot.blank t = true) {r r' : ρ} (hi : (Tab.get Slot.blank t i).record? = some r)
    (hr : sl.record? = some r') :
    inUse (Tab.put Slot.blank t i sl) = (inUse t).map fun e => if e.1 = i then (i, r') else e := by
  have hkey (e : Nat × ρ) : (if e.1 = i then (i, r') else e).1 = e.1 := by
    split
    · next h => exact h.symm
    · rfl
  refine records_eq (inUse_sorted (Tab.wf_put hw _ _)).1 ?_ fun ⟨j, x⟩ => ?_
  · rw [List.pairwise_map]
    exact (inUse_sorted hw).1.imp fun hlt => by rw [hkey, hkey]; exact hlt
  · rw [mem_inUse_iff (Tab.wf_put hw _ _), Tab.get_put hw, List.mem_map]
    by_cases hj : j = i
    · subst hj
      rw [if_pos rfl, hr]
      constructor
      · rintro ⟨rfl⟩
        exact ⟨(j, r), mem_inUse_of_get hi, if_pos rfl⟩
      · rintro ⟨e, -, he⟩
        have hej : e.1 = j := by rw [← hkey e, he]
        rw [if_pos hej] at he
        exact congrArg some (Prod.ext_iff.1 he).2
    · rw [if_neg hj, ← mem_inUse_iff hw]
      constructor
      · intro hmem
        exact ⟨(j, x), hmem, if_neg hj⟩
      · rintro ⟨e, hmem, he⟩
        have hej : e.1 = j := by rw [← hkey e, he]
        rw [if_neg (hej ▸ hj)] at he
        exact he ▸ hmem

end index

/-- A table in which the TAKEN orders may read otherwise settles the same orders. -/
theorem settledAtDeparture_map {g : Nat × Order → Nat × Order} (hslot : ∀ e, (g e).1 = e.1)
    (hnumber : ∀ e, (g e).2.number = e.2.number) (hstate : ∀ e, (g e).2.state = e.2.state)
    (hsame : ∀ e : Nat × Order, e.2.state ≠ .taken → g e = e) (ks : List Nat) (table : List (Nat × Order)) :
    settledAtDeparture (table.map g) ks = settledAtDeparture table ks := by
  induction ks generalizing table with
  | nil => rfl
  | cons k ks ih =>
    have hfind : (table.map g).find? (fun e => e.2.number == k) = (table.find? fun e => e.2.number == k).map g := by
      rw [List.find?_map]
      exact congrArg (Option.map g) (List.find?_congr fun e _ => by simp [hnumber])
    rw [settledAtDeparture, settledAtDeparture, hfind]
    cases table.find? fun e => e.2.number == k with
    | none => exact ih table
    | some e =>
      obtain ⟨j, o⟩ := e
      have hfilter : (table.map g).filter (fun e => e.1 != j) = (table.filter fun e => e.1 != j).map g := by
        rw [List.filter_map]
        exact congrArg (List.map g) (List.filter_congr fun e _ => by simp [hslot])
      by_cases ht : o.state = .taken
      · have hgt : (g (j, o)).2.state = .taken := (hstate _).trans ht
        simp only [Option.map_some, hgt, ht, if_true]
        exact ih table
      · rw [Option.map_some, hsame (j, o) ht]
        simp only [ht, if_false]
        rw [hfilter, ih]

end Sys2Proof.Machine
end

section
/-! PROOF. The orders handed on at a departure: each is marked or settled, and the rest stands (R131, R155). -/

namespace Sys2Proof.Machine

/-- The report of an order settled at a departure (R155). -/
def Yard.goneReport (y : Yard) (o : Order) : Report :=
  if o.cancellable then .orderCancelled o.number o.car o.state .departed
  else .orderVoided o.number o.car o.state .departed (y.unitsOf o true) (y.unitsOf o false)

theorem Yard.goneReport_congr {y z : Yard} (h : ∀ k, (z.item? k).isSome = (y.item? k).isSome) (o : Order) :
    z.goneReport o = y.goneReport o := by
  unfold Yard.goneReport Yard.unitsOf
  simp only [h]

/-- A yard after the orders of a departing car are handed on: `gone` are those settled, `rs` the reports. -/
structure Yard.departs (y z : Yard) (ks : List Nat) (gone : List Order) (rs : List Report) : Prop where
  intact : z.intact
  frame : ∃ held queues ready rows menu orders, z = { y with
    held := held, queues := queues, readyList := ready, rowCounts := rows, raised := y.raised ++ rs
    store := { y.store with menu := menu, orders := orders } }
  others : ∀ k, k ∉ ks → z.findOrder k = y.findOrder k
  taken : ∀ k ∈ ks, ∀ j o, y.findOrder k = some (j, o) → o.state = .taken →
    z.findOrder k = some (j, { o with carGone := true })
  settled : ∀ k ∈ ks, ∀ j o, y.findOrder k = some (j, o) → o.state ≠ .taken → (z.orderSlot j).record? = none ∧
    (∀ st : StationId, ∀ q ∈ z.queues[st], q.order ≠ k) ∧ (∀ sc : ScreenId, ∀ e ∈ z.held[sc], e.order ≠ k) ∧
    (∀ e ∈ z.readyList, e.order ≠ k) ∧ y.goneReport o ∈ rs
  free : ∀ j, (y.orderSlot j).record? = none → (z.orderSlot j).record? = none
  lists : (∀ st : StationId, ∀ q ∈ z.queues[st], q ∈ y.queues[st]) ∧ (∀ sc : ScreenId, ∀ e ∈ z.held[sc], e ∈ y.held[sc]) ∧
    ∀ e ∈ z.readyList, e ∈ y.readyList
  items : ∀ k, z.item? k = (y.item? k).map fun m => gone.foldl (fun m o => o.settles k m) m

section departs
variable {x y z : Yard}

theorem Yard.departs.isSome {ks : List Nat} {gone : List Order} {rs : List Report} (h : y.departs z ks gone rs) (k : Nat) :
    (z.item? k).isSome = (y.item? k).isSome := by
  rw [h.items, Option.isSome_map]

theorem Yard.departs.refl (h : y.intact) : y.departs y [] [] [] where
  intact := h
  frame := ⟨y.held, y.queues, y.readyList, y.rowCounts, y.store.menu, y.store.orders, by rw [List.append_nil]⟩
  others _ _ := rfl
  taken _ hk := absurd hk List.not_mem_nil
  settled _ hk := absurd hk List.not_mem_nil
  free _ hj := hj
  lists := ⟨fun _ _ h => h, fun _ _ h => h, fun _ h => h⟩
  items k := Option.map_id'.symm

theorem Yard.departs.cons {k : Nat} {ks : List Nat} {g g' : List Order} {rs rs' : List Report} (h : x.departs y [k] g rs)
    (h' : y.departs z ks g' rs') : x.departs z (k :: ks) (g ++ g') (rs ++ rs') where
  intact := h'.intact
  frame := by
    obtain ⟨_, _, _, _, _, _, rfl⟩ := h.frame
    obtain ⟨held, queues, ready, rows, menu, orders, rfl⟩ := h'.frame
    exact ⟨held, queues, ready, rows, menu, orders, by rw [List.append_assoc]⟩
  others n hn := by
    obtain ⟨hnk, hnks⟩ := not_or.1 (mt List.mem_cons.2 hn)
    rw [h'.others n hnks, h.others n (mt List.mem_singleton.1 hnk)]
  taken n hn j o hf ht := by
    by_cases hnk : n = k
    · have hone := h.taken n (List.mem_singleton.2 hnk) j o hf ht
      by_cases hmem : n ∈ ks
      · have htwo := h'.taken n hmem j _ hone ht
        exact htwo
      · rw [h'.others n hmem, hone]
    · exact h'.taken n ((List.mem_cons.1 hn).resolve_left hnk) j o
        ((h.others n (mt List.mem_singleton.1 hnk)).trans hf) ht
  settled n hn j o hf ht := by
    by_cases hnk : n = k
    · obtain ⟨hslot, hq, hh, hr, hrep⟩ := h.settled n (List.mem_singleton.2 hnk) j o hf ht
      exact ⟨h'.free j hslot, fun st q hmem => hq st q (h'.lists.1 st q hmem),
        fun sc e hmem => hh sc e (h'.lists.2.1 sc e hmem), fun e hmem => hr e (h'.lists.2.2 e hmem),
        List.mem_append_left _ hrep⟩
    · obtain ⟨hslot, hq, hh, hr, hrep⟩ := h'.settled n ((List.mem_cons.1 hn).resolve_left hnk) j o
        ((h.others n (mt List.mem_singleton.1 hnk)).trans hf) ht
      exact ⟨hslot, hq, hh, hr, List.mem_append_right _ (Yard.goneReport_congr h.isSome o ▸ hrep)⟩
  free j hj := h'.free j (h.free j hj)
  lists := ⟨fun st q hq => h.lists.1 st q (h'.lists.1 st q hq), fun sc e he => h.lists.2.1 sc e (h'.lists.2.1 sc e he),
    fun e he => h.lists.2.2 e (h'.lists.2.2 e he)⟩
  items k := by
    rw [h'.items, h.items, Option.map_map]
    congr 1
    funext m
    exact List.foldl_append.symm

end departs

/-! ## One order -/

theorem Yard.without_queues (y : Yard) (i : Nat) (o : Order) (menu : Tab (Slot MenuItem)) (cars : Tab (Slot Car))
    (r : Report) (st : StationId) :
    (y.without i o menu cars r).queues[st] = (y.queues[st]).filter fun e => e.order != o.number := Vector.getElem_map ..

theorem Yard.without_held (y : Yard) (i : Nat) (o : Order) (menu : Tab (Slot MenuItem)) (cars : Tab (Slot Car))
    (r : Report) (sc : ScreenId) :
    (y.without i o menu cars r).held[sc] = (y.held[sc]).filter fun e => e.order != o.number := Vector.getElem_map ..

section one
variable {y : Yard} (h : y.intact) {k j : Nat} {o : Order}
include h

theorem Yard.departedOrder_absent (ho : y.findOrder k = none) : y.departedOrder k = y := by
  unfold Yard.departedOrder Yard.readOrder
  rw [ho]

theorem Yard.departs.absent (ho : y.findOrder k = none) : y.departs y [k] [] [] where
  __ := Yard.departs.refl h
  taken n hn j o hf := absurd (hf.symm.trans (List.mem_singleton.1 hn ▸ ho)) (by simp)
  settled n hn j o hf := absurd (hf.symm.trans (List.mem_singleton.1 hn ▸ ho)) (by simp)
  others _ _ := rfl

theorem Yard.departedOrder_taken (hf : y.findOrder k = some (j, o)) (ht : o.state = .taken) :
    y.departedOrder k = y.modOrder k fun o => { o with carGone := true } := by
  have ho : y.order? k = some o := congrArg (Option.map Prod.snd) hf
  unfold Yard.departedOrder
  rw [Yard.readOrder_intact h, ho]
  exact if_pos ht

theorem Yard.departs.taken_one (hf : y.findOrder k = some (j, o)) (ht : o.state = .taken) :
    y.departs (y.modOrder k fun o => { o with carGone := true }) [k] [] [] := by
  have hfind (n : Nat) := Yard.findOrder_modOrder h (f := fun o => { o with carGone := true }) (fun _ => rfl) k n
  have hint := h.modOrder k fun o => { o with carGone := true }
  have hslot (i : Nat) : (y.orderSlot i).record? = none →
      ((y.modOrder k fun o => { o with carGone := true }).orderSlot i).record? = none := by
    intro hi
    have hne : i ≠ j := fun he => by
      have hrec := (Yard.findOrder_get h hf).1
      rw [← he, hi] at hrec
      cases hrec
    unfold Yard.modOrder
    rw [hf]
    exact (congrArg Slot.record? (Yard.orderSlot_set_other y j i _ hne)).trans hi
  obtain ⟨orders, he⟩ := y.modOrder_orders k fun o => { o with carGone := true }
  rw [he] at hfind hint hslot ⊢
  refine ⟨hint, ⟨y.held, y.queues, y.readyList, y.rowCounts, y.store.menu, orders, by rw [List.append_nil]⟩,
    fun n hn => ?_, fun n hn i o' hf' ht' => ?_, fun n hn i o' hf' ht' => ?_, hslot,
    ⟨fun _ _ h => h, fun _ _ h => h, fun _ h => h⟩, fun k => Option.map_id'.symm⟩
  · rw [hfind]
    cases y.findOrder n with
    | none => rfl
    | some e => exact congrArg some (if_neg (mt List.mem_singleton.2 hn))
  · rw [hfind, hf', List.mem_singleton.1 hn]
    exact congrArg some (if_pos rfl)
  · rw [List.mem_singleton.1 hn, hf] at hf'
    cases hf'
    exact absurd ht ht'

theorem Yard.departedOrder_settled (hf : y.findOrder k = some (j, o)) (ht : o.state ≠ .taken) :
    y.departedOrder k = y.settleGone o .departed := by
  have ho : y.order? k = some o := congrArg (Option.map Prod.snd) hf
  unfold Yard.departedOrder
  rw [Yard.readOrder_intact h, ho]
  exact if_neg ht

theorem Yard.departs.settled_one (hf : y.findOrder k = some (j, o)) (ht : o.state ≠ .taken) :
    y.departs (y.settleGone o .departed) [k] [o] [y.goneReport o] ∧
      (y.settleGone o .departed).store.orders = Tab.put Slot.blank y.store.orders j (y.orderSlot j).release := by
  obtain ⟨hrec, hn⟩ := Yard.findOrder_get h hf
  subst hn
  obtain ⟨menu, hmenu, he⟩ := Yard.settleGone_eq h hf .departed
  rw [he]
  refine ⟨⟨Yard.without_intact j o hmenu.1 (h.congr rfl) _, ⟨_, _, _, _, _, _, rfl⟩,
    fun n hn => Yard.order?_without h hf _ _ _ (mt List.mem_singleton.2 hn), fun n hn i o' hf' ht' => ?_,
    fun n hn i o' hf' _ => ?_, fun i hi => ?_, ⟨fun st q hq => ?_, fun sc e he => ?_, fun e he => ?_⟩, hmenu.2⟩, rfl⟩
  · rw [List.mem_singleton.1 hn, hf] at hf'
    cases hf'
    exact absurd ht' ht
  · obtain rfl := List.mem_singleton.1 hn
    rw [hf] at hf'
    cases hf'
    refine ⟨congrArg Slot.record? (Yard.orderSlot_set y h.orders j (y.orderSlot j).release), fun st q hq => ?_,
      fun sc e he => ?_, fun e he => ?_, List.mem_singleton_self _⟩
    · rw [Yard.without_queues] at hq
      simpa using (List.mem_filter.1 hq).2
    · rw [Yard.without_held] at he
      simpa using (List.mem_filter.1 he).2
    · simpa using (List.mem_filter.1 he).2
  · by_cases hij : i = j
    · rw [hij]
      exact congrArg Slot.record? (Yard.orderSlot_set y h.orders j (y.orderSlot j).release)
    · exact (congrArg Slot.record? (Yard.orderSlot_set_other y j i _ hij)).trans hi
  · rw [Yard.without_queues] at hq
    exact (List.mem_filter.1 hq).1
  · rw [Yard.without_held] at he
    exact (List.mem_filter.1 he).1
  · exact (List.mem_filter.1 he).1

end one

/-! ## The orders of a car -/

/-- One order handed on, and the orders that the rest of the list then settles. -/
theorem Yard.departs.one {y : Yard} (h : y.intact) (k : Nat) (ks : List Nat) : ∃ g rs,
    y.departs (y.departedOrder k) [k] g rs ∧ settledAtDeparture (inUse y.store.orders) (k :: ks) =
      g ++ settledAtDeparture (inUse (y.departedOrder k).store.orders) ks := by
  have hsettled : settledAtDeparture (inUse y.store.orders) (k :: ks) = match y.findOrder k with
      | some (j, o) => if o.state = .taken then settledAtDeparture (inUse y.store.orders) ks
        else o :: settledAtDeparture ((inUse y.store.orders).filter fun e => e.1 != j) ks
      | none => settledAtDeparture (inUse y.store.orders) ks := rfl
  rw [hsettled]
  cases hf : y.findOrder k with
  | none =>
    rw [Yard.departedOrder_absent h hf]
    exact ⟨[], [], Yard.departs.absent h hf, rfl⟩
  | some e =>
    obtain ⟨j, o⟩ := e
    have hrec := (Yard.findOrder_get h hf).1
    by_cases ht : o.state = .taken
    · rw [Yard.departedOrder_taken h hf ht]
      refine ⟨[], [], Yard.departs.taken_one h hf ht, ?_⟩
      have htable : inUse (y.modOrder k fun o => { o with carGone := true }).store.orders =
          (inUse y.store.orders).map fun e => if e = (j, o) then (j, { o with carGone := true }) else e := by
        unfold Yard.modOrder
        rw [hf]
        refine (inUse_put_write h.orders hrec rfl).trans (List.map_congr_left fun e he => ?_)
        by_cases hej : e.1 = j
        · have heo : e = (j, o) := by
            have hget := get_of_mem_inUse h.orders he
            rw [hej] at hget
            exact Prod.ext hej (Option.some.inj (hget.symm.trans hrec))
          rw [if_pos hej, if_pos heo]
        · rw [if_neg hej, if_neg fun heo => hej (congrArg Prod.fst heo)]
      rw [htable, settledAtDeparture_map]
      · exact if_pos ht
      · intro e
        split
        · next he => rw [he]
        · rfl
      · intro e
        split
        · next he => rw [he]
        · rfl
      · intro e
        split
        · next he => rw [he]
        · rfl
      · exact fun e hne => if_neg fun he => hne (by rw [he]; exact ht)
    · rw [Yard.departedOrder_settled h hf ht]
      obtain ⟨hone, htable⟩ := Yard.departs.settled_one h hf ht
      refine ⟨[o], [y.goneReport o], hone, ?_⟩
      rw [htable, inUse_put_free h.orders (Slot.record?_release _)]
      exact if_neg ht

/-- The orders of a car, handed on in the order of its list. -/
theorem Yard.departs.all {y : Yard} (h : y.intact) (ks : List Nat) : ∃ rs,
    y.departs (ks.foldl Yard.departedOrder y) ks (settledAtDeparture (inUse y.store.orders) ks) rs := by
  induction ks generalizing y with
  | nil => exact ⟨[], Yard.departs.refl h⟩
  | cons k ks ih =>
    obtain ⟨g, rs, hone, hgone⟩ := Yard.departs.one h k ks
    obtain ⟨rs', hrest⟩ := ih hone.intact
    rw [hgone]
    exact ⟨rs ++ rs', hone.cons hrest⟩

end Sys2Proof.Machine
end

section
/-! PROOF. Cars that leave: the check-in limit and CAR REMOVE (R127, R130 to R132). -/

namespace Sys2Proof.Machine

/-! ## The bay of a departing car -/

/-- The speaker marks stay in their canonical form at an unbinding. -/
theorem Yard.release_spkMarks_wf {y : Yard} (hw : Tab.wf false y.spkMarks = true) (car bay : Nat) :
    Tab.wf false (y.release car bay).spkMarks = true := by
  rw [Yard.release_eq, Yard.bindChange_spkMarks]
  unfold Yard.unbound
  rw [Yard.placeLamp_eq, Yard.putItem_spkMarks]
  obtain ⟨t, ht⟩ := ((y.modBay bay fun b => { b with occupant := none }).setSpeaker bay false).modCar_cars car
    fun c => { c with bay := none }
  rw [ht]
  obtain ⟨spk, hs, -, -, hwf, -⟩ := (y.modBay bay fun b => { b with occupant := none }).setSpeaker_eq bay false
  rw [hs]
  refine hwf ?_
  obtain ⟨t', ht'⟩ := y.modBay_bays bay fun b => { b with occupant := none }
  rw [ht']
  exact hw

/-- A bay with its speaker OFF and its lamp out, and its speaker sent OFF where it was ON. -/
def Yard.putOut (z : Yard) (b : Nat) (br : Bay) : Prop :=
  z.bay? b = some Bay.empty ∧ z.shows .lamps b 0 ∧ (br.speaker = true → z.speaks b 0)

/-- What the unbinding of a car that leaves does to the field. -/
theorem Yard.departBay_leaves {y : Yard} (h : y.intact) (hspk : Tab.wf false y.spkMarks = true) (c : Car) :
    ∃ z fb fc, y.departBay c = z ∧ y.worked z fb fc ∧ (∀ k r, c.parkedBay ≠ some k → fb k r = r) ∧
      (∀ b br, c.parkedBay = some b → y.bay? b = some br → z.putOut b br) ∧ (c.parkedBay = none → z = y) := by
  cases hp : c.parkedBay with
  | none =>
    refine ⟨y, _, _, ?_, (Yard.signals.refl y).worked h, fun _ _ _ => rfl, fun _ _ h => (by cases h), fun _ => rfl⟩
    unfold Yard.departBay
    rw [hp]
  | some bay =>
    have hrel := Yard.worked.release h c.number bay
    have hsig := Yard.signals.placeSpeakersOf hrel.intact Yard.drain [bay]
    refine ⟨(y.release c.number bay).placeSpeakersOf Yard.drain [bay],
      fun k r => sameBays k (oneBay bay (fun _ => Bay.empty) k r), _, ?_, hrel.trans (hsig.worked hrel.intact), fun k r hk => ?_, fun b br hb hbr => ?_, fun h => (by cases h)⟩
    · unfold Yard.departBay
      rw [hp]
      dsimp only
      rw [Yard.readBay_intact h]
      cases y.bay? bay <;> rfl
    · cases r with
      | none => rfl
      | some r => exact congrArg some (if_neg fun (hkb : k = bay) => hk (by rw [hkb]))
    · cases hb
      have hempty : (y.release c.number bay).bay? bay = some Bay.empty := by
        rw [Yard.bay?_release h, hbr]
        simp
      have hvalue : (y.release c.number bay).speakerValue bay = 0 := by
        unfold Yard.speakerValue
        rw [hempty]
        rfl
      refine ⟨(hsig.bay? bay).trans hempty, (y.release_shows c.number bay).placeSpeakersOf hrel.intact _ _, fun hon => ?_⟩
      have hsp := Yard.speaks.placeSpeakersOf (.inl (Yard.release_marks h hbr hon)) hrel.intact
        (Yard.release_spkMarks_wf hspk c.number bay) Yard.drain [bay]
      rw [hvalue] at hsp
      exact hsp

/-! ## The departure -/

/-- The law of the orders of a car that departs. -/
def Yard.ordersHandedOn (y z : Yard) (ks : List Nat) (reports : List Report) : Prop :=
  (∀ k ∈ ks, ∀ j o, y.findOrder k = some (j, o) →
    (o.state = .taken → z.order? k = some { o with carGone := true }) ∧
    (o.state ≠ .taken → (z.orderSlot j).record? = none ∧
      (∀ st : StationId, ∀ q ∈ z.queues[st], q.order ≠ k) ∧
      (∀ sc : ScreenId, ∀ e ∈ z.held[sc], e.order ≠ k) ∧ (∀ e ∈ z.readyList, e.order ≠ k) ∧
      y.goneReport o ∈ reports)) ∧
  (∀ k j o, y.findOrder k = some (j, o) → k ∉ ks → z.order? k = some o) ∧
  ∀ k, z.item? k = (y.item? k).map fun m =>
    (settledAtDeparture (inUse y.store.orders) ks).foldl (fun m o => o.settles k m) m

theorem Yard.departs.handedOn {y z : Yard} {ks : List Nat} {rs reports : List Report}
    (h : y.departs z ks (settledAtDeparture (inUse y.store.orders) ks) rs) (hrs : ∀ r ∈ rs, r ∈ reports) :
    y.ordersHandedOn z ks reports := by
  refine ⟨fun k hk j o hf => ⟨fun ht => ?_, fun ht => ?_⟩, fun k j o hf hk => ?_, h.items⟩
  · exact congrArg (Option.map Prod.snd) (h.taken k hk j o hf ht)
  · obtain ⟨hslot, hq, hh, hr, hrep⟩ := h.settled k hk j o hf ht
    exact ⟨hslot, hq, hh, hr, hrs _ hrep⟩
  · exact congrArg (Option.map Prod.snd) ((h.others k hk).trans hf)

/-- What the unbinding of the car's bay leaves of the orders' law. -/
theorem Yard.ordersHandedOn.of_fieldwork {y x z : Yard} {ks : List Nat} {reports : List Report}
    (h : x.ordersHandedOn z ks reports) (hw : y.fieldwork x) : y.ordersHandedOn z ks reports := by
  obtain ⟨_, _, _, _, _, _, _, _, _, rfl⟩ := hw
  exact h

/-- The slot of a car freed in a yard with the car table of `y`. -/
theorem Yard.freeCar_same {y w : Yard} {n i : Nat} {c : Car} (hf : y.findCar n = some (i, c))
    (hw : w.store.cars = y.store.cars) : w.freeCar n = { w with store := { w.store with
      cars := Tab.put Slot.blank y.store.cars i (y.carSlot i).release } } := by
  have hfw : w.findCar n = some (i, c) := by
    unfold Yard.findCar at *
    rw [hw]
    exact hf
  have hslot : w.carSlot i = y.carSlot i := by
    unfold Yard.carSlot
    rw [hw]
  unfold Yard.freeCar
  rw [hfw]
  dsimp only
  rw [hslot]
  unfold Yard.setCarSlot
  rw [hw]

/-- What a departure leaves. -/
theorem Yard.depart_leaves {y : Yard} (h : y.intact) (hspk : Tab.wf false y.spkMarks = true)
    (hlim : Tab.wf none y.limits = true) {n i : Nat} {c : Car} (hf : y.findCar n = some (i, c)) (cause : DepartCause) :
    ∃ z reports, y.depart c cause = z ∧ (z.carSlot i).record? = none ∧ Tab.get none z.limits n = none ∧
      z.admittedCount = y.admittedCount.set c.screen (y.admittedCount[c.screen] - 1) ∧
      z.raised = y.raised ++ (reports ++ [.departed n (some c.ticket) (some c.screen) cause]) ∧
      y.ordersHandedOn z c.orders reports ∧
      (∀ b br, y.bay? b = some br → c.parkedBay ≠ some b → z.bay? b = some br) ∧
      (∀ b br, c.parkedBay = some b → y.bay? b = some br → z.putOut b br) ∧ z.runners = y.runners := by
  have hn := (Yard.findCar_get h hf).2
  obtain ⟨x, fb, fc, hx, hwork, hfb, hout, -⟩ := Yard.departBay_leaves h hspk c
  obtain ⟨rs, hdep⟩ := Yard.departs.all hwork.intact c.orders
  have hlaw := (hdep.handedOn (reports := (x.raised.drop y.raised.length) ++ rs)
    fun r hr => List.mem_append_right _ hr).of_fieldwork hwork.work
  have hfind : x.findCar n = some (i, fc n c) := by
    rw [hwork.cars, hf]
    rfl
  have hlimits : Tab.wf none x.limits = true := hwork.limits hlim
  have hbays (b : Nat) (br : Bay) (hb : y.bay? b = some br) (hne : c.parkedBay ≠ some b) : x.bay? b = some br := by
    rw [hwork.bays, hfb b _ hne, hb]
  have hrest : x.admittedCount = y.admittedCount ∧ x.runners = y.runners ∧ ∃ rs, x.raised = y.raised ++ rs := by
    obtain ⟨_, rs, _, _, _, _, _, _, _, he⟩ := hwork.work
    rw [he]
    exact ⟨rfl, rfl, rs, rfl⟩
  obtain ⟨hadmitted, hrunners, rs₀, hraised⟩ := hrest
  have hdrop : x.raised.drop y.raised.length = rs₀ := by rw [hraised, List.drop_left]
  rw [hdrop] at hlaw
  unfold Yard.depart
  rw [hx]
  have hcars := hwork.intact.cars
  clear hx hwork hfb
  generalize c.orders.foldl Yard.departedOrder x = w at *
  obtain ⟨_, _, _, _, _, _, rfl⟩ := hdep.frame
  subst hn
  have hfreed (w : Yard) (hw : w.store.cars = x.store.cars) := Yard.freeCar_same hfind hw
  dsimp only
  refine ⟨_, rs₀ ++ rs, rfl, ?_⟩
  rw [hfreed _ (by rfl)]
  refine ⟨congrArg Slot.record? (Tab.get_put_self hcars i _), Tab.get_put_self hlimits c.number none, ?_, ?_, hlaw,
    hbays, hout, hrunners⟩
  · change x.admittedCount.set c.screen (x.admittedCount[c.screen] - 1) = _
    rw [hadmitted]
  · change (x.raised ++ rs) ++ _ = _
    rw [hraised, List.append_assoc, List.append_assoc, List.append_assoc]

end Sys2Proof.Machine
end

section
/-! PROOF. Cars that leave: the requests and the check-in limit (R130 to R132). -/

namespace Sys2Proof.Machine

theorem event_yard_raise {f : Yard → Yard} {s : State} {x : Yard} {r : Report} (hf : f s.yard = x.raise r)
    (hx : x.raised = []) : event (fun s => s.onYard f) s = .next (({ s with yard := x } : State).reported [r]) := by
  rw [event_yard hf]
  have hclear : ({ x.raise r with raised := [] } : Yard) = x := by
    rw [← hx]
    rfl
  have hsaid : (x.raise r).raised = [r] := by
    rw [Yard.raise, hx]
    rfl
  rw [hclear, hsaid]

/-- A FINITE item's tallies still add up after a settlement, and an UNLIMITED item's stay within their bytes. -/
theorem MenuItem.balanced.gaveBack {m : MenuItem} (h : m.balanced) (p s : Nat) : (m.gaveBack p s).balanced := by
  unfold MenuItem.balanced MenuItem.gaveBack at *
  cases hm : m.mode <;> simp only [hm] at h ⊢ <;> omega

theorem foldl_settles (gone : List Order) (k : Nat) {m : MenuItem} (h : m.balanced) :
    gone.foldl (fun m o => o.settles k m) m =
      gone.foldl (fun m o => m.gaveBack (o.unitsOn k true) (o.unitsOn k false)) m := by
  induction gone generalizing m with
  | nil => rfl
  | cons o gone ih => rw [List.foldl_cons, List.foldl_cons, o.settles_balanced k h, ih (h.gaveBack _ _)]

theorem foldl_settles_unnamed {gone : List Order} {k : Nat} (h : ∀ o ∈ gone, ∀ l ∈ o.lines, l.item ≠ k) (m : MenuItem) :
    gone.foldl (fun m o => o.settles k m) m = m := by
  induction gone generalizing m with
  | nil => rfl
  | cons o gone ih =>
    obtain ⟨ho, hgone⟩ := List.forall_mem_cons.1 h
    rw [List.foldl_cons, Order.settles_unnamed ho, ih hgone]

theorem Yard.goneReport_mem {y : Yard} {o : Order} {reports : List Report} (h : y.goneReport o ∈ reports) :
    if o.state = .held ∨ o.state = .queued ∧ ∀ l ∈ o.lines, l.state = .pending then
      .orderCancelled o.number o.car o.state .departed ∈ reports
    else .orderVoided o.number o.car o.state .departed (y.unitsOf o true) (y.unitsOf o false) ∈ reports := by
  unfold Yard.goneReport at h
  by_cases hc : o.cancellable = true
  · rw [if_pos hc] at h
    rw [if_pos (o.cancellable_iff.1 hc)]
    exact h
  · rw [if_neg hc] at h
    rw [if_neg (mt o.cancellable_iff.2 hc)]
    exact h

/-! ## The check-in limit -/

section limit
variable {y : Yard} (h : y.intact) {n i : Nat} {c : Car} (hf : y.findCar n = some (i, c))
  (ht : (Tab.get none y.limits n).isSome = true)
include h hf ht

theorem Yard.limitExpired_read : y.limitExpired n = if c.state = .onField ∧ c.unchecked = false then
    ((y.stopLimit n).modCar n fun c => { c with unchecked := true }).raise (.unchecked n c.screen c.entryMinute)
    else y.stopLimit n := by
  obtain ⟨k, hk⟩ := Option.isSome_iff_exists.1 ht
  have hc : (y.stopLimit n).car? n = some c := congrArg (Option.map Prod.snd) hf
  unfold Yard.limitExpired
  rw [hk]
  dsimp only
  rw [Yard.readCar_intact (y := y.stopLimit n) (h.congr rfl), hc]
  rfl

end limit

/-! ## CAR REMOVE -/

section remove
variable {s : State} {tag n i : Nat} {c : Car}

theorem carRemoveBody_known (h : s.yard.intact) (hc : s.yard.car? n = some c) :
    carRemoveBody n s = (Reply.ok, { s with yard := s.yard.depart c .host }) := by
  have hbay : s.yard.readParkedBay c = (Read.of (c.parkedBay.bind s.yard.bay?), s.yard) := by
    unfold Yard.readParkedBay
    cases c.parkedBay with
    | none => rfl
    | some b => exact Yard.readBay_intact h _ b
  unfold carRemoveBody
  rw [Yard.readCar_intact h, hc]
  dsimp only [Read.of]
  rw [hbay]
  cases c.parkedBay.bind s.yard.bay? <;> rfl

theorem exec_carRemove (hs : s.ready) (hrun : s.link.part = .run) (h : s.yard.intact) (hc : s.yard.car? n = some c)
    {z : Yard} (hz : s.yard.depart c .host = z) : exec (.carRemove tag n) s =
      .next (({ s with yard := { z with raised := [] } } : State).answered 0x1F tag Reply.ok z.raised) :=
  request_yard hs (body := inRun (carRemoveBody n)) (by rw [inRun_run _ _ hrun, carRemoveBody_known h hc, hz])

/-- The departure of a car that is in no bay and has no orders. -/
theorem Yard.depart_plain {y : Yard} (hf : y.findCar n = some (i, c)) (hn : c.number = n) (hp : c.parkedBay = none)
    (ho : c.orders = []) (cause : DepartCause) : y.depart c cause = ({ y with
      limits := Tab.put none y.limits n none
      admittedCount := y.admittedCount.set c.screen (y.admittedCount[c.screen] - 1)
      store := { y.store with cars := Tab.put Slot.blank y.store.cars i (y.carSlot i).release } } : Yard).raise
        (.departed n (some c.ticket) (some c.screen) cause) := by
  have hbay : y.departBay c = y := by
    unfold Yard.departBay
    rw [hp]
  have hfreed (w : Yard) (hw : w.store.cars = y.store.cars) := Yard.freeCar_same hf hw
  unfold Yard.depart
  rw [ho, hbay, hn]
  dsimp only [List.foldl]
  rw [hfreed _ (by rfl)]
  rfl

end remove

theorem Car.parkedBay_eq_some {c : Car} {b : Nat} : c.parkedBay = some b ↔ c.state = .parked ∧ c.bay = some b := by
  unfold Car.parkedBay
  split
  · next h => simp [h]
  · next h => simp [h]

/-- Settles O47: the limit and the plain departure word for word, every other departure by what it leaves. -/
theorem carsLeave : Obligations.CarsLeave := by
  unfold Obligations.CarsLeave
  intro s tag n
  refine ⟨fun hs hno => ?_, fun hs hset => ?_, fun hs hrun hno => ?_, fun hw hu i c hf => ?_⟩
  · refine event_yard_same (f := fun _ y => y.limitExpired n) hs ?_
    unfold Yard.limitExpired
    rw [hno]
  · exact request_answers_quietly 0x1F tag (inRun (carRemoveBody n)) s s _ hs.2 (inRun_setup _ _ hset) hs.1
  · refine request_answers_quietly 0x1F tag (inRun (carRemoveBody n)) s s _ hs.2 ?_ hs.1
    rw [inRun_run _ _ hrun]
    unfold carRemoveBody Yard.readCar
    rw [hno]
  obtain ⟨h, -⟩ := State.intact_rows hw hu
  obtain ⟨-, -, hlim, hspk, -⟩ := ((State.canonical_iff s).1 hw).2
  have hn := (Yard.findCar_get h hf).2
  have hc : s.yard.car? n = some c := congrArg (Option.map Prod.snd) hf
  refine ⟨fun hs ht hstate hun => ?_, fun hs ht hstate => ?_, fun hs hrun hstate ho => ?_,
    fun hs hrun hstate ho b br hb hbr => ?_, fun hs hrun => ?_⟩
  · have hmod : (s.yard.stopLimit n).modCar n (fun c => { c with unchecked := true }) = { s.yard with
        limits := Tab.put none s.yard.limits n none
        store := { s.yard.store with
          cars := Tab.put Slot.blank s.yard.store.cars i ((s.yard.carSlot i).write { c with unchecked := true }) } } := by
      unfold Yard.modCar
      rw [show (s.yard.stopLimit n).findCar n = some (i, c) from hf]
      rfl
    refine event_yard_raise (f := fun y => y.limitExpired n) ?_ hs
    rw [Yard.limitExpired_read h hf ht, if_pos ⟨hstate, hun⟩, hmod]
  · refine event_settles (f := fun s => s.onYard fun y => y.limitExpired n)
      (t := { s with yard := s.yard.stopLimit n }) ?_ hs
    have hquiet : s.yard.limitExpired n = s.yard.stopLimit n := by
      rw [Yard.limitExpired_read h hf ht, if_neg fun hboth => hstate.elim (fun hne => hne hboth.1) fun hun => ?_]
      rw [hboth.2] at hun
      cases hun
    exact congrArg (fun y => { s with yard := y }) hquiet
  · have hp : c.parkedBay = none := if_neg hstate
    refine request_answers 0x1F tag (inRun (carRemoveBody n)) s { s with yard := { s.yard with
        limits := Tab.put none s.yard.limits n none
        admittedCount := s.yard.admittedCount.set c.screen (s.yard.admittedCount[c.screen] - 1)
        store := { s.yard.store with
          cars := Tab.put Slot.blank s.yard.store.cars i (s.yard.carSlot i).release } } } _
      [.departed n (some c.ticket) (some c.screen) .host] hs.2 ?_ hs.1
    rw [inRun_run _ _ hrun, carRemoveBody_known h hc, Yard.depart_plain hf hn hp ho]
    rfl
  all_goals obtain ⟨z, reports, hz, hslot, hlimit, hadmitted, hraised, ⟨horders, hothers, hitems⟩, hbays, hout, hrunners⟩ :=
    Yard.depart_leaves h hspk hlim hf .host
  all_goals have hexec := exec_carRemove (tag := tag) hs hrun h hc hz
  · obtain ⟨hempty, -, -⟩ := hout b br (Car.parkedBay_eq_some.2 ⟨hstate, hb⟩) hbr
    exact ⟨_, hexec, hslot, hempty, hlimit, hadmitted, Link.after_replies .., rfl, rfl, rfl⟩
  · rw [hs.1, List.nil_append] at hraised
    refine ⟨_, reports, hexec, hslot, hlimit, hadmitted,
      congrArg (Link.after (s.link.addPlace (.request 0x1F tag Reply.ok))) hraised, fun k hk j o hfo => ?_, hothers,
      fun gone hgone k => ⟨fun hk => ?_, fun m hk hun => ?_, fun m hk hbal => ?_⟩, fun b br hb hne => ?_,
      fun b br hp hb hbr => ?_, hrunners, rfl, rfl, rfl⟩
    · obtain ⟨htaken, hsettled⟩ := horders k hk j o hfo
      refine ⟨htaken, fun ht => ?_⟩
      obtain ⟨hfree, hq, hh, hr, hrep⟩ := hsettled ht
      refine ⟨hfree, hq, hh, hr, ?_⟩
      rw [← (Yard.findOrder_get h hfo).2]
      exact Yard.goneReport_mem hrep
    · exact (hitems k).trans (by rw [hk]; rfl)
    · refine (hitems k).trans ?_
      rw [hk, ← hgone]
      exact congrArg some (foldl_settles_unnamed hun m)
    · refine (hitems k).trans ?_
      rw [hk, ← hgone]
      exact congrArg some (foldl_settles gone k hbal)
    · exact hbays b br hb fun hp => by
        obtain ⟨hstate, hbay⟩ := Car.parkedBay_eq_some.1 hp
        exact hne hstate hbay
    · obtain ⟨hempty, hlamp, hspoken⟩ := hout b br (Car.parkedBay_eq_some.2 ⟨hp, hb⟩) hbr
      exact ⟨hempty, hlamp, fun hon => (hspoken hon).imp_right And.right⟩

end Sys2Proof.Machine
end

section
/-! PROOF. The post tables of the loops, which only the Loop Poller writes: placing values, settling lost records and
resend requests leave every post's entry as it is (R69, R72). -/

namespace Sys2Proof.Machine

/-- The post tables of the four loops. -/
def Yard.postTables (y : Yard) : Vector (Tab Post) 4 :=
  y.loops.map LoopRec.posts

theorem Yard.postTables_get (y : Yard) (lp : ScreenId) : (y.loops[lp]).posts = y.postTables[lp] := by
  simp [Yard.postTables]

section posts
variable {y : Yard}

/-! ## Values placed -/

theorem Yard.postTables_modLoop {lp : ScreenId} {f : LoopRec → LoopRec} (hf : (f y.loops[lp]).posts = y.loops[lp].posts) :
    (y.modLoop lp f).postTables = y.postTables := by
  refine Vector.ext fun k hk => ?_
  simp only [Yard.postTables, Yard.modLoop, Vector.getElem_map, Fin.getElem_fin, Vector.getElem_set]
  split
  · next h =>
    subst h
    exact hf
  · rfl

@[simp] theorem Yard.postTables_completeUndelivered (lp : ScreenId) (i : Fin 16) :
    (y.completeUndelivered lp i).postTables = y.postTables :=
  Yard.postTables_modLoop (f := fun l => { l.setSlot i OutSlot.empty with undelivered := satInc l.undelivered }) rfl

@[simp] theorem Yard.postTables_putItem (lp : ScreenId) (it : Item) :
    (y.putItem lp it).2.postTables = y.postTables := by
  unfold Yard.putItem
  split
  · dsimp only
    split
    · exact (Yard.postTables_completeUndelivered ..).trans (Yard.postTables_modLoop rfl)
    · exact Yard.postTables_modLoop rfl
  · refine Yard.postTables_modLoop ?_
    obtain ⟨_, _, h0, -⟩ := (y.loops[lp]).mergeSide_keeps it false
    obtain ⟨_, _, h1, -⟩ := ((y.loops[lp]).mergeSide it false).2.mergeSide_keeps it true
    rw [h1, h0]

@[simp] theorem Yard.postTables_placeLamp (o : Origin) (bay v : Nat) :
    (y.placeLamp o bay v).2.postTables = y.postTables :=
  Yard.postTables_putItem ..

/-- A fold keeps the post tables where each of its steps does. -/
theorem Yard.postTables_foldl {α : Type} {f : Yard → α → Yard} (hf : ∀ y a, (f y a).postTables = y.postTables)
    (as : List α) : (as.foldl f y).postTables = y.postTables := by
  induction as generalizing y with
  | nil => rfl
  | cons a as ih => exact ih.trans (hf y a)

/-! ## Records written -/

@[simp] theorem Yard.postTables_modCar (n : Nat) (f : Car → Car) : (y.modCar n f).postTables = y.postTables := by
  unfold Yard.modCar
  split <;> rfl

@[simp] theorem Yard.postTables_modBay (n : Nat) (f : Bay → Bay) : (y.modBay n f).postTables = y.postTables := by
  unfold Yard.modBay
  split <;> rfl

@[simp] theorem Yard.postTables_setSpeaker (bay : Nat) (on : Bool) :
    (y.setSpeaker bay on).postTables = y.postTables := by
  unfold Yard.setSpeaker
  split
  · dsimp only
    split
    · exact Yard.postTables_modBay ..
    · exact Yard.postTables_modBay ..
  · rfl

theorem Yard.postTables_rowDown (row : Option Nat) : (y.rowDown row).postTables = y.postTables := by
  cases row <;> rfl

theorem Yard.postTables_rowUp (row : Option Nat) : (y.rowUp row).postTables = y.postTables := by
  cases row <;> rfl

@[simp] theorem Yard.postTables_bindChange (car : Nat) (bay : Option Nat) :
    (y.bindChange car bay).2.postTables = y.postTables :=
  Yard.postTables_foldl (fun _ _ => (Yard.postTables_rowUp _).trans (Yard.postTables_rowDown _)) _

@[simp] theorem Yard.postTables_leaveReady (n : Nat) : (y.leaveReady n).postTables = y.postTables := by
  unfold Yard.leaveReady
  split
  · exact Yard.postTables_rowDown _
  · rfl

theorem Yard.postTables_setSpkMark (b : Nat) (m : Bool) : (y.setSpkMark b m).postTables = y.postTables := rfl

theorem Yard.postTables_startLimit (n : Nat) : (y.startLimit n).postTables = y.postTables := rfl

theorem Yard.postTables_raise (r : Report) : (y.raise r).postTables = y.postTables := rfl

@[simp] theorem Yard.postTables_release (car bay : Nat) : (y.release car bay).postTables = y.postTables := by
  unfold Yard.release
  simp

@[simp] theorem Yard.postTables_unbindToField (car bay : Nat) (cause : CarCause) :
    (y.unbindToField car bay cause).postTables = y.postTables := by
  unfold Yard.unbindToField
  rw [Yard.postTables_raise, Yard.postTables_startLimit, Yard.postTables_modCar, Yard.postTables_release]

@[simp] theorem Yard.postTables_checkCapacity (sc : ScreenId) : (y.checkCapacity sc).postTables = y.postTables := by
  rw [Yard.checkCapacity_eq]
  rfl

/-! ## Reads, and the marks placed -/

section reads
variable {settle : Yard → Yard} (hs : ∀ y : Yard, (settle y).postTables = y.postTables)
include hs

theorem Yard.postTables_readCarSlot (i : Nat) : (y.readCarSlot settle i).2.postTables = y.postTables := by
  unfold Yard.readCarSlot
  split
  · rfl
  · rfl
  · exact hs _

theorem Yard.postTables_readBay (i : Nat) : (y.readBay settle i).2.postTables = y.postTables := by
  unfold Yard.readBay
  split
  · rfl
  · rfl
  · exact hs _

theorem Yard.postTables_readCar (n : Nat) : (y.readCar settle n).2.postTables = y.postTables := by
  unfold Yard.readCar
  split
  · exact Yard.postTables_readCarSlot hs _
  · rfl

theorem Yard.postTables_searchCars (q : Car → Bool) (is : List Nat) :
    (Yard.searchCars settle q is y).2.2.postTables = y.postTables := by
  fun_induction Yard.searchCars settle q is y <;> grind [Yard.postTables_readCarSlot]

theorem Yard.postTables_readMarked (marked : Yard → Nat → Bool) (b : Nat) :
    (y.readMarked marked settle b).2.postTables = y.postTables := by
  unfold Yard.readMarked
  split
  · exact Yard.postTables_readBay hs _
  · rfl

theorem Yard.postTables_placeSpeakersAt (lp : ScreenId) (p : Nat) :
    (y.placeSpeakersAt settle lp p).postTables = y.postTables := by
  unfold Yard.placeSpeakersAt
  extract_lets b0 b1 r0 r1 w m0 m1
  have hw : w.postTables = y.postTables :=
    (Yard.postTables_readMarked hs _ _).trans (Yard.postTables_readMarked hs _ _)
  split
  · simp only [Yard.ite_setSpkMark_eq]
    exact (Yard.postTables_putItem ..).trans hw
  · exact hw

theorem Yard.postTables_placeLampsAt (lp : ScreenId) (p : Nat) :
    (y.placeLampsAt settle lp p).postTables = y.postTables := by
  unfold Yard.placeLampsAt
  extract_lets b0 b1 r0 r1 w m0 m1
  have hw : w.postTables = y.postTables :=
    (Yard.postTables_readMarked hs _ _).trans (Yard.postTables_readMarked hs _ _)
  split
  · simp only [Yard.ite_setLampMark_eq]
    exact (Yard.postTables_putItem ..).trans hw
  · exact hw

theorem Yard.postTables_placeSpeakersOf (bays : List Nat) :
    (y.placeSpeakersOf settle bays).postTables = y.postTables :=
  Yard.postTables_foldl (fun _ _ => Yard.postTables_placeSpeakersAt hs _ _) _

theorem Yard.postTables_resendOverflow (lp : ScreenId) : (y.resendOverflow settle lp).postTables = y.postTables :=
  (Yard.postTables_foldl (fun _ _ => Yard.postTables_placeLampsAt hs _ _) _).trans
    (Yard.postTables_foldl (fun _ _ => Yard.postTables_placeSpeakersAt hs _ _) _)

theorem Yard.postTables_afterFree (lp : ScreenId) : (y.afterFree settle lp).postTables = y.postTables := by
  unfold Yard.afterFree
  split
  · exact (Yard.postTables_resendOverflow hs _).trans (Yard.postTables_modLoop rfl)
  · rfl

end reads

/-! ## Lost records settled -/

theorem Yard.postTables_emptyBaysOf (car : Nat) (bs : List Nat) :
    (Yard.emptyBaysOf car bs y).2.postTables = y.postTables := by
  have hempty (z : Yard) (b : Nat) : (Yard.emptyLostBay car z b).postTables = z.postTables := by
    unfold Yard.emptyLostBay
    simp
  have hread (z : Yard) (b : Nat) : (z.readBay id b).2.postTables = z.postTables :=
    Yard.postTables_readBay (fun _ => rfl) b
  fun_induction Yard.emptyBaysOf car bs y <;> grind

theorem Yard.postTables_carLost (n : Nat) : (y.carLost n).postTables = y.postTables :=
  (Yard.postTables_placeSpeakersOf (fun _ => rfl) _).trans (Yard.postTables_emptyBaysOf n _)

theorem Yard.postTables_bayLost (bay : Nat) : (y.bayLost bay).postTables = y.postTables := by
  have hsearch := Yard.postTables_searchCars (y := y) (settle := id) (fun _ => rfl)
    (fun c => decide (c.bay = some bay)) y.carSlotsInUse
  unfold Yard.bayLost
  dsimp only
  rw [Yard.postTables_checkCapacity, Yard.postTables_placeSpeakersOf (settle := id) (fun _ => rfl), Yard.postTables_setSpkMark]
  split
  · next heq =>
    rw [heq] at hsearch
    rw [Yard.postTables_unbindToField]
    exact hsearch
  · next heq =>
    rw [heq] at hsearch
    exact hsearch

theorem Yard.postTables_takeLost (n : Nat) : (y.takeLost n).postTables = y.postTables := by
  unfold Yard.takeLost
  split <;> rfl

theorem Yard.postTables_orderLost (order car : Nat) : (y.orderLost order car).postTables = y.postTables := by
  unfold Yard.orderLost
  extract_lets u v w
  have hv : v.postTables = y.postTables := by
    dsimp only [v]
    split
    · exact Yard.postTables_leaveReady _
    · rfl
  have hread := (Yard.postTables_readCar (y := w) (settle := id) (fun _ => rfl) car).trans
    ((Yard.postTables_takeLost order).trans hv)
  split
  · next c z heq =>
    rw [heq] at hread
    dsimp only
    split
    · exact (Yard.postTables_placeLampsAt (fun _ => rfl) _ _).trans ((Yard.postTables_modCar ..).trans hread)
    · exact (Yard.postTables_modCar ..).trans hread
  · next heq =>
    rw [heq] at hread
    exact hread

theorem Yard.postTables_drain (y : Yard) : y.drain.postTables = y.postTables := by
  unfold Yard.drain
  generalize 6464 = n
  induction n generalizing y with
  | zero => rfl
  | succ n ih =>
    unfold Yard.drainWithin
    split
    · rfl
    · next t _ k _ _ =>
      refine (ih _).trans ?_
      cases t with
      | car => exact Yard.postTables_carLost _
      | bay => exact Yard.postTables_bayLost _
      | order => exact Yard.postTables_orderLost ..
      | menu => rfl
      | ticket => rfl

end posts

end Sys2Proof.Machine
end

section
/-! PROOF. POST MAP: the presence of a loop's posts, and the slots of the posts that become ABSENT (R72). -/

namespace Sys2Proof.Machine

/-! ## The slots of one post completed UNDELIVERED -/

/-- Whether a slot is PENDING for a post. -/
def OutSlot.pendingFor (sl : OutSlot) (p : Nat) : Bool :=
  decide (sl.use = .pending ∧ sl.post = p)

theorem OutSlot.pendingFor_iff (sl : OutSlot) (p : Nat) : sl.pendingFor p = true ↔ sl.use = .pending ∧ sl.post = p :=
  decide_eq_true_iff

theorem OutSlot.pendingFor_empty (p : Nat) : OutSlot.empty.pendingFor p = false := rfl

/-- The report of a slot of a post completed UNDELIVERED. -/
def OutSlot.undelivered (sl : OutSlot) (lp : ScreenId) (p : Nat) : Report :=
  .sendUndelivered lp p sl.kind sl.v0 sl.v1 sl.origin

theorem slotNumbers_eq : slotNumbers = List.finRange 16 := by decide

section drop
variable (y : Yard) (lp : ScreenId) (p : Nat)

theorem Yard.told_afterFree {l : LoopRec} {rs : List Report} (settle : Yard → Yard) (h : l.overflow = false) :
    (y.told lp l rs).afterFree settle lp = y.told lp l rs := by
  unfold Yard.afterFree
  rw [Yard.told_loop, h]
  rfl

theorem Yard.told_completeUndelivered {l : LoopRec} {rs : List Report} {i : Fin 16} (h : (l.slots[i]).post = p) :
    (y.told lp l rs).completeUndelivered lp i =
      y.told lp { l.setSlot i OutSlot.empty with undelivered := satInc l.undelivered }
        (rs ++ [(l.slots[i]).undelivered lp p]) := by
  unfold Yard.completeUndelivered
  simp only [Yard.told_modLoop, Yard.told_raise, Yard.told_loop, h]
  rfl

theorem Yard.foldl_dropSlots {is : List (Fin 16)} (hnd : is.Nodup) {l : LoopRec} (rs : List Report)
    (ho : l.overflow = false) : ∃ slots n,
    is.foldl (fun y i =>
      if ((y.loops[lp]).slots[i]).use = .pending ∧ ((y.loops[lp]).slots[i]).post = p then
        (y.completeUndelivered lp i).afterFree Yard.drain lp
      else y) (y.told lp l rs) = y.told lp { l with slots := slots, undelivered := n }
        (rs ++ (is.filter fun i => (l.slots[i]).pendingFor p).map fun i => (l.slots[i]).undelivered lp p) ∧
    ∀ j : Fin 16, slots[j] = if j ∈ is ∧ (l.slots[j]).pendingFor p = true then OutSlot.empty else l.slots[j] := by
  induction is generalizing l rs with
  | nil => exact ⟨l.slots, l.undelivered, by simp, fun j => by simp⟩
  | cons i is ih =>
    obtain ⟨hi, hnd⟩ := List.nodup_cons.1 hnd
    rw [List.foldl_cons, Yard.told_loop]
    by_cases hp : (l.slots[i]).pendingFor p = true
    · have hboth := (OutSlot.pendingFor_iff _ _).1 hp
      rw [if_pos hboth, Yard.told_completeUndelivered y lp p hboth.2, Yard.told_afterFree _ _ _ (by exact ho)]
      have hother (j : Fin 16) (hj : j ≠ i) : (l.slots.set i OutSlot.empty)[j] = l.slots[j] :=
        Vector.getElem_set_ne i.isLt j.isLt fun h => hj (Fin.ext h.symm)
      have hrest (j : Fin 16) (hj : j ∈ is) : (l.slots.set i OutSlot.empty)[j] = l.slots[j] :=
        hother j fun h => hi (h ▸ hj)
      obtain ⟨slots, n, he, hslots⟩ := ih hnd
        (l := { l.setSlot i OutSlot.empty with undelivered := satInc l.undelivered })
        (rs ++ [(l.slots[i]).undelivered lp p]) ho
      refine ⟨slots, n, he.trans ?_, fun j => ?_⟩
      · have hfilter : (is.filter fun j => ((l.slots.set i OutSlot.empty)[j]).pendingFor p) =
            is.filter fun j => (l.slots[j]).pendingFor p :=
          List.filter_congr fun j hj => by rw [hrest j hj]
        have hmap : ((is.filter fun j => (l.slots[j]).pendingFor p).map fun j =>
              ((l.slots.set i OutSlot.empty)[j]).undelivered lp p) =
            (is.filter fun j => (l.slots[j]).pendingFor p).map fun j => (l.slots[j]).undelivered lp p :=
          List.map_congr_left fun j hj => by rw [hrest j (List.mem_of_mem_filter hj)]
        have hcons : ((i :: is).filter fun j => (l.slots[j]).pendingFor p) =
            i :: is.filter fun j => (l.slots[j]).pendingFor p := List.filter_cons_of_pos hp
        rw [hcons]
        simp only [LoopRec.setSlot, hfilter, hmap, List.map_cons, List.append_assoc, List.singleton_append]
      · rw [hslots j]
        by_cases hj : j = i
        · subst hj
          have hempty : (l.slots.set j OutSlot.empty)[j] = OutSlot.empty := Vector.getElem_set_self j.isLt
          rw [if_neg fun h => hi h.1, if_pos ⟨List.mem_cons_self, hp⟩]
          exact hempty
        · simp only [LoopRec.setSlot, hother j hj, List.mem_cons, hj, false_or]
    · rw [if_neg fun h => hp ((OutSlot.pendingFor_iff _ _).2 h)]
      obtain ⟨slots, n, he, hslots⟩ := ih hnd rs ho
      refine ⟨slots, n, ?_, fun j => ?_⟩
      · have hcons : ((i :: is).filter fun j => (l.slots[j]).pendingFor p) =
            is.filter fun j => (l.slots[j]).pendingFor p := List.filter_cons_of_neg hp
        rw [he, hcons]
      · rw [hslots j]
        by_cases hj : j = i
        · subst hj
          rw [if_neg fun h => hp h.2, if_neg fun h => hp h.2]
        · simp only [List.mem_cons, hj, false_or]

/-- The slots of a post completed UNDELIVERED, where no overflow waits for a slot. -/
theorem Yard.told_dropSlots {l : LoopRec} (rs : List Report) (ho : l.overflow = false) : ∃ slots n,
    (y.told lp l rs).dropSlots lp p = y.told lp { l with slots := slots, undelivered := n }
      (rs ++ ((List.finRange 16).filter fun i => (l.slots[i]).pendingFor p).map fun i =>
        (l.slots[i]).undelivered lp p) ∧
    ∀ j : Fin 16, slots[j] = if (l.slots[j]).pendingFor p = true then OutSlot.empty else l.slots[j] := by
  obtain ⟨slots, n, he, hslots⟩ := Yard.foldl_dropSlots y lp p (List.nodup_finRange 16) rs ho
  refine ⟨slots, n, ?_, fun j => ?_⟩
  · unfold Yard.dropSlots
    rw [slotNumbers_eq]
    exact he
  · rw [hslots j]
    simp only [List.mem_finRange, true_and]

end drop

/-! ## The presence of one post, and of all -/

/-- A post's entry after POST MAP has named its presence. -/
def Post.mapped (e : Post) (b : Bool) : Post :=
  if e.present = b then e
  else if b then
    { e with present := true, errors := 0, conf := .heard, turn := 0, lamp0 := 0, lamp1 := 0, spk0 := false,
             spk1 := false, lastSeq := none }
  else { e with present := false, errors := 0, conf := .heard, recovery := none, probeDue := false }

/-- The presences of the first posts of a loop set. -/
def Yard.mapFirst (y : Yard) (lp : ScreenId) (want : Nat → Bool) (n : Nat) : Yard :=
  (List.range n).foldl (fun y p => y.setPresence lp p (want p)) y

theorem Yard.mapFirst_succ (y : Yard) (lp : ScreenId) (want : Nat → Bool) (n : Nat) :
    y.mapFirst lp want (n + 1) = (y.mapFirst lp want n).setPresence lp n (want n) := by
  unfold Yard.mapFirst
  rw [List.range_succ, List.foldl_append]
  rfl

theorem Yard.postMap_eq (y : Yard) (lp : ScreenId) (presence : List Bool) :
    y.postMap lp presence = y.mapFirst lp (fun p => presence.getD p false) presence.length := by
  have hzip : presence.zipIdx = (List.range presence.length).map fun p => (presence.getD p false, p) := by
    refine List.ext_getElem (by simp) fun i h _ => ?_
    have hi : i < presence.length := by simpa using h
    simp [hi]
  unfold Yard.postMap Yard.mapFirst
  rw [hzip, List.foldl_map]

section presence
variable {y : Yard} {lp : ScreenId} {want : Nat → Bool}

theorem Yard.setPresence_posts (p : Nat) (b : Bool) : (y.setPresence lp p b).postTables[lp] =
    if ((y.loops[lp]).post p).present = b then y.postTables[lp]
    else Tab.put Post.reset y.postTables[lp] p (((y.loops[lp]).post p).mapped b) := by
  have hset (e : Post) : (y.modLoop lp fun l => l.setPost p e).postTables[lp] =
      Tab.put Post.reset y.postTables[lp] p e := by
    rw [← Yard.postTables_get, ← Yard.postTables_get, Yard.modLoop_told, Yard.told_loop]
    rfl
  have hdrop (z : Yard) : (z.dropSlots lp p).postTables = z.postTables := by
    refine Yard.postTables_foldl (fun z i => ?_) _
    dsimp only
    split
    · exact (Yard.postTables_afterFree Yard.postTables_drain lp).trans (Yard.postTables_completeUndelivered lp i)
    · rfl
  unfold Yard.setPresence
  dsimp only
  by_cases hp : ((y.loops[lp]).post p).present = b
  · rw [if_pos hp, if_pos hp]
  · unfold Post.mapped
    rw [if_neg hp, if_neg hp, if_neg hp]
    cases b with
    | true => exact hset _
    | false => exact (congrArg (fun t => t[lp]) (hdrop _)).trans (hset _)

/-- What the presences of the first posts leave of the post table, with or without an overflow. -/
theorem Yard.mapFirst_posts (h : Tab.wf Post.reset (y.loops[lp]).posts = true) (n : Nat) :
    Tab.wf Post.reset ((y.mapFirst lp want n).loops[lp]).posts = true ∧
    ∀ q, ((y.mapFirst lp want n).loops[lp]).post q =
      if q < n then ((y.loops[lp]).post q).mapped (want q) else (y.loops[lp]).post q := by
  induction n with
  | zero => exact ⟨h, fun q => rfl⟩
  | succ n ih =>
    obtain ⟨hwf, hpost⟩ := ih
    have hn := hpost n
    rw [if_neg (Nat.lt_irrefl n)] at hn
    have hset := Yard.setPresence_posts (y := y.mapFirst lp want n) (lp := lp) n (want n)
    rw [Yard.mapFirst_succ]
    generalize hz : (y.mapFirst lp want n).setPresence lp n (want n) = z at *
    rw [← Yard.postTables_get, ← Yard.postTables_get, hn] at hset
    split at hset
    · next hp =>
      refine ⟨hset ▸ hwf, fun q => ?_⟩
      unfold LoopRec.post at hpost ⊢
      rw [hset, hpost q]
      rcases Nat.lt_trichotomy q n with hq | rfl | hq
      · rw [if_pos hq, if_pos (Nat.lt_succ_of_lt hq)]
      · rw [if_neg (Nat.lt_irrefl q), if_pos (Nat.lt_succ_self q)]
        exact (if_pos hp).symm
      · rw [if_neg (by omega), if_neg (by omega)]
    · refine ⟨hset ▸ Tab.wf_put hwf _ _, fun q => ?_⟩
      unfold LoopRec.post at hpost ⊢
      rw [hset, Tab.get_put hwf]
      rcases Nat.lt_trichotomy q n with hq | rfl | hq
      · rw [if_neg (by omega), if_pos (Nat.lt_succ_of_lt hq), hpost q, if_pos hq]
      · rw [if_pos rfl, if_pos (Nat.lt_succ_self q)]
        rfl
      · rw [if_neg (by omega), if_neg (by omega), hpost q, if_neg (by omega)]

/-- Whether a slot of a loop is PENDING for a post that POST MAP makes ABSENT. -/
def LoopRec.loses (l : LoopRec) (want : Nat → Bool) (p : Nat) (i : Fin 16) : Bool :=
  (l.slots[i]).pendingFor p && (l.post p).present && !want p

/-- The reports of the slots lost to the first posts. -/
def LoopRec.lossReports (l : LoopRec) (lp : ScreenId) (want : Nat → Bool) (n : Nat) : List Report :=
  ((List.range n).map fun p => ((List.finRange 16).filter (l.loses want p)).map fun i =>
    (l.slots[i]).undelivered lp p).flatten

theorem LoopRec.lossReports_succ (l : LoopRec) (n : Nat) : l.lossReports lp want (n + 1) =
    l.lossReports lp want n ++ ((List.finRange 16).filter (l.loses want n)).map fun i => (l.slots[i]).undelivered lp n := by
  unfold LoopRec.lossReports
  rw [List.range_succ]
  simp

/-- The slots that are left when the first posts have their presence. -/
def LoopRec.slotsKept (l : LoopRec) (want : Nat → Bool) (n : Nat) (slots : Vector OutSlot 16) : Prop :=
  ∀ i : Fin 16, slots[i] =
    if (l.slots[i]).post < n ∧ l.loses want (l.slots[i]).post i = true then OutSlot.empty else l.slots[i]

/-- A post that loses no slot takes none from those left. -/
theorem LoopRec.slotsKept.succ_same {l : LoopRec} {n : Nat} {slots : Vector OutSlot 16} (h : l.slotsKept want n slots)
    (hno : ∀ i, l.loses want n i = false) : l.slotsKept want (n + 1) slots := by
  intro i
  rw [h i]
  by_cases hn : (l.slots[i]).post = n
  · rw [hn, hno i, if_neg (fun h => Bool.noConfusion h.2), if_neg fun h => Bool.noConfusion h.2]
  · refine if_congr (and_congr_left fun _ => ?_) rfl rfl
    omega

theorem LoopRec.slotsKept.pendingFor {l : LoopRec} {n : Nat} {slots : Vector OutSlot 16} (h : l.slotsKept want n slots)
    (i : Fin 16) : (slots[i]).pendingFor n = (l.slots[i]).pendingFor n := by
  rw [h i]
  split
  · next hlost =>
    rw [OutSlot.pendingFor_empty]
    exact (decide_eq_false fun hp => by omega).symm
  · rfl

/-- A slot PENDING for a later post is left as it was. -/
theorem LoopRec.slotsKept.slot {l : LoopRec} {n : Nat} {slots : Vector OutSlot 16} (h : l.slotsKept want n slots)
    {i : Fin 16} (hp : (l.slots[i]).pendingFor n = true) : slots[i] = l.slots[i] := by
  have hn := ((OutSlot.pendingFor_iff _ _).1 hp).2
  rw [h i, if_neg fun hlost => by omega]

/-- The presences of the first posts, on a loop with no overflow. -/
theorem Yard.mapFirst_told (h : Tab.wf Post.reset (y.loops[lp]).posts = true) (ho : (y.loops[lp]).overflow = false)
    (n : Nat) : ∃ l, y.mapFirst lp want n = y.told lp l ((y.loops[lp]).lossReports lp want n) ∧ l.overflow = false ∧
      (y.loops[lp]).slotsKept want n l.slots := by
  induction n with
  | zero => exact ⟨y.loops[lp], (Yard.told_same y lp).symm, ho, fun i => (if_neg fun h => by omega).symm⟩
  | succ n ih =>
    obtain ⟨l, he, hlo, hslots⟩ := ih
    have hn := (Yard.mapFirst_posts (want := want) h n).2 n
    rw [if_neg (Nat.lt_irrefl n), he, Yard.told_loop] at hn
    rw [Yard.mapFirst_succ, he, LoopRec.lossReports_succ]
    generalize y.loops[lp] = k at *
    have hnone (hno : ∀ i, k.loses want n i = false) : (List.finRange 16).filter (k.loses want n) = [] :=
      List.filter_eq_nil_iff.2 fun i _ => by rw [hno i]; decide
    unfold Yard.setPresence
    rw [Yard.told_loop, hn]
    dsimp only
    by_cases hsame : (k.post n).present = want n
    · have hno (i : Fin 16) : k.loses want n i = false := by
        unfold LoopRec.loses
        rw [hsame]
        cases want n <;> simp
      rw [if_pos hsame, hnone hno]
      exact ⟨l, by rw [List.map_nil, List.append_nil], hlo, hslots.succ_same hno⟩
    · rw [if_neg hsame]
      cases hw : want n with
      | true =>
        have hno (i : Fin 16) : k.loses want n i = false := by
          unfold LoopRec.loses
          rw [hw]
          simp
        rw [if_pos rfl, hnone hno, Yard.told_modLoop, List.map_nil, List.append_nil]
        exact ⟨_, rfl, hlo, hslots.succ_same hno⟩
      | false =>
        have hpresent : (k.post n).present = true := by
          rw [hw] at hsame
          exact Bool.eq_true_of_not_eq_false hsame
        have hloses (i : Fin 16) : k.loses want n i = (k.slots[i]).pendingFor n := by
          unfold LoopRec.loses
          rw [hw, hpresent]
          simp
        rw [if_neg Bool.noConfusion, Yard.told_modLoop]
        obtain ⟨slots, m, hdrop, hleft⟩ := Yard.told_dropSlots y lp n
          (l := l.setPost n { k.post n with present := false, errors := 0, conf := .heard, recovery := none,
                                            probeDue := false }) (k.lossReports lp want n) hlo
        refine ⟨_, hdrop.trans (congrArg (Yard.told y lp _) (congrArg _ ?_)), hlo, fun i => ?_⟩
        · have hfilter : ((List.finRange 16).filter fun i => (l.slots[i]).pendingFor n) =
              (List.finRange 16).filter (k.loses want n) :=
            List.filter_congr fun i _ => (hslots.pendingFor i).trans (hloses i).symm
          refine (congrArg _ hfilter).trans (List.map_congr_left fun i hi => ?_)
          have hp := (List.mem_filter.1 hi).2
          rw [hloses i] at hp
          exact congrArg (fun sl => sl.undelivered lp n) (hslots.slot hp)
        · refine (hleft i).trans ?_
          change (if (l.slots[i]).pendingFor n = true then OutSlot.empty else l.slots[i]) = _
          rw [hslots.pendingFor i]
          by_cases hp : (k.slots[i]).pendingFor n = true
          · have hpost := ((OutSlot.pendingFor_iff _ _).1 hp).2
            rw [if_pos hp, if_pos ⟨by omega, by rw [hpost, hloses]; exact hp⟩]
          · rw [if_neg hp, hslots i]
            by_cases hpost : (k.slots[i]).post = n
            · rw [if_neg fun hlost => by omega, if_neg fun hlost => hp ?_]
              rw [← hloses, ← hpost]
              exact hlost.2
            · refine if_congr (and_congr_left fun _ => ?_) rfl rfl
              omega

end presence

end Sys2Proof.Machine
end

section
/-! PROOF. The items that marked bays place, POST MAP and LOOP RESET (R72, R89, R128, R129, R156). -/

namespace Sys2Proof.Machine

/-! ## The values the marks place -/

section values
variable {y : Yard}

theorem Yard.speakerValue_eq {on : Nat → Bool}
    (hon : ∀ b, on b = true ↔ ∃ br, y.bay? b = some br ∧ br.speaker = true) (b : Nat) :
    y.speakerValue b = if on b then 1 else 0 := by
  unfold Yard.speakerValue
  cases hb : y.bay? b with
  | none =>
    rw [if_neg fun h => ?_]
    obtain ⟨br, hbr, -⟩ := (hon b).1 h
    rw [hb] at hbr
    cases hbr
  | some br =>
    refine if_congr ⟨fun h => (hon b).2 ⟨br, hb, h⟩, fun h => ?_⟩ rfl rfl
    obtain ⟨br', hbr, hspk⟩ := (hon b).1 h
    rw [hb] at hbr
    cases hbr
    exact hspk

theorem Yard.hasReadyOrTaken_iff (y : Yard) (n : Nat) : y.hasReadyOrTaken n = true ↔ (∃ e ∈ y.readyList, e.car = n) ∨
    ∃ (r : RunnerId) (k : Nat) (o : Order), (y.runners[r]).held = some k ∧ y.order? k = some o ∧ o.car = n := by
  have hheld (r : Runner) : (match r.held.bind y.order? with
      | some o => o.car == n
      | none => false) = true ↔ ∃ k o, r.held = some k ∧ y.order? k = some o ∧ o.car = n := by
    cases hr : r.held with
    | none => simp
    | some k => cases ho : y.order? k <;> simp [ho]
  unfold Yard.hasReadyOrTaken
  rw [Bool.or_eq_true]
  refine or_congr (by simp) ?_
  rw [List.any_eq_true]
  constructor
  · rintro ⟨r, hmem, h⟩
    obtain ⟨i, hi, rfl⟩ := Vector.getElem_of_mem (Vector.mem_toList_iff.1 hmem)
    exact ⟨⟨i, hi⟩, (hheld _).1 h⟩
  · rintro ⟨r, h⟩
    exact ⟨y.runners[r], Vector.mem_toList_iff.2 (Vector.getElem_mem r.isLt), (hheld _).2 h⟩

theorem Yard.restingValue_eq {ready : Nat → Bool}
    (hready : ∀ b, ready b = true ↔ ∃ br n, y.bay? b = some br ∧ br.occupant = some n ∧ ((∃ e ∈ y.readyList, e.car = n) ∨
      ∃ (r : RunnerId) (k : Nat) (o : Order), (y.runners[r]).held = some k ∧ y.order? k = some o ∧ o.car = n)) (b : Nat) :
    y.restingValue b = if ready b then 0x02 else 0x00 := by
  simp only [← Yard.hasReadyOrTaken_iff] at hready
  have hnone (h : ∀ br n, y.bay? b = some br → br.occupant ≠ some n) : ready b = false :=
    Bool.eq_false_iff.2 fun hr => by
      obtain ⟨br, n, hbr, hocc, -⟩ := (hready b).1 hr
      exact h br n hbr hocc
  unfold Yard.restingValue
  cases hb : y.bay? b with
  | none =>
    rw [hnone fun br n hbr => by rw [hb] at hbr; cases hbr]
    rfl
  | some br =>
    cases ho : br.occupant with
    | none =>
      rw [hnone fun br' n hbr => by rw [hb] at hbr; cases hbr; rw [ho]; nofun]
      simp [ho, Yard.restingLamp, lampNone]
    | some n =>
      have hiff : ready b = true ↔ y.hasReadyOrTaken n = true := by
        rw [hready b]
        simp [hb, ho]
      simp only [Option.bind_some, ho, Yard.restingLamp]
      exact if_congr hiff.symm rfl rfl

end values

/-! ## The marks a placed item leaves -/

section placing
variable {y : Yard} {lp : ScreenId} {p b0 b1 : Nat}

/-- The speaker item of a post, on an undamaged table of bays. -/
theorem Yard.placeSpeakersAt_item (hu : y.store.undamaged = true) (hb0 : b0 = postBay lp p 0) (hb1 : b1 = postBay lp p 1)
    {on : Nat → Bool} (hon : ∀ b, on b = true ↔ ∃ br, y.bay? b = some br ∧ br.speaker = true)
    (hw : Tab.wf false y.spkMarks = true) (hm : y.spkMarked b0 = true ∨ y.spkMarked b1 = true) {it : Item}
    (hit : it = { post := p, kind := .speakers, prio := 2, origin := .ct
                  v0 := if y.spkMarked b0 then some (if on b0 then 1 else 0) else none
                  v1 := if y.spkMarked b1 then some (if on b1 then 1 else 0) else none }) {z : Yard}
    (hz : z = y.placeSpeakersAt Yard.drain lp p) :
    { z with spkMarks := y.spkMarks } = (y.putItem lp it).2 ∧ ∀ b, z.spkMarked b =
      (y.spkMarked b && !(b == b0 && (y.putItem lp it).1.1) && !(b == b1 && (y.putItem lp it).1.2)) := by
  have he : y.speakerItem lp p = it := by
    rw [hit]
    unfold Yard.speakerItem
    rw [← hb0, ← hb1, Yard.speakerValue_eq hon, Yard.speakerValue_eq hon]
  have hplace := Yard.placeSpeakersAt_marked (Yard.baySlot_readable hu) Yard.drain lp p (by rw [← hb0, ← hb1]; exact hm)
  rw [he, ← hb0, ← hb1, ← hz] at hplace
  have hmarks := Yard.putItem_spkMarks (y := y) lp it
  generalize y.putItem lp it = r at *
  rw [hplace]
  refine ⟨?_, fun b => get_clearMarks hw b0 b1 _ _ b⟩
  rw [← hmarks]

/-- The lamp item of a post, on an undamaged table of bays. -/
theorem Yard.placeLampsAt_item (hu : y.store.undamaged = true) (hb0 : b0 = postBay lp p 0) (hb1 : b1 = postBay lp p 1)
    {ready : Nat → Bool} (hready : ∀ b, y.restingValue b = if ready b then 0x02 else 0x00)
    (hw : Tab.wf false y.lampMarks = true) (hm : y.lampMarked b0 = true ∨ y.lampMarked b1 = true) {it : Item}
    (hit : it = { post := p, kind := .lamps, prio := 1, origin := .oe
                  v0 := if y.lampMarked b0 then some (if ready b0 then 0x02 else 0x00) else none
                  v1 := if y.lampMarked b1 then some (if ready b1 then 0x02 else 0x00) else none }) {z : Yard}
    (hz : z = y.placeLampsAt Yard.drain lp p) :
    { z with lampMarks := y.lampMarks } = (y.putItem lp it).2 ∧ ∀ b, z.lampMarked b =
      (y.lampMarked b && !(b == b0 && (y.putItem lp it).1.1) && !(b == b1 && (y.putItem lp it).1.2)) := by
  have he : y.lampItem lp p = it := by
    rw [hit]
    unfold Yard.lampItem
    rw [← hb0, ← hb1, hready, hready]
  have hplace := Yard.placeLampsAt_marked (Yard.baySlot_readable hu) Yard.drain lp p (by rw [← hb0, ← hb1]; exact hm)
  rw [he, ← hb0, ← hb1, ← hz] at hplace
  have hmarks := Yard.putItem_lampMarks (y := y) lp it
  generalize y.putItem lp it = r at *
  rw [hplace]
  refine ⟨?_, fun b => get_clearMarks hw b0 b1 _ _ b⟩
  rw [← hmarks]

/-- A value shown in passing: dropped on the side it names, it leaves its bay marked. -/
theorem Yard.placePassing_item {side v : Nat} (hp : p < 128) (hs : side ≤ 1) (hw : Tab.wf false y.lampMarks = true)
    {it : Item} (hit : it = { post := p, kind := .lamps, prio := 1, origin := .oe
                              v0 := if side = 0 then some v else none
                              v1 := if side = 0 then none else some v }) {z : Yard}
    (hz : z = y.placePassing (postBay lp p side) v) :
    { z with lampMarks := y.lampMarks } = (y.putItem lp it).2 ∧ ∀ b, z.lampMarked b =
      (y.lampMarked b || (b == postBay lp p side && !((y.putItem lp it).1.1 && (y.putItem lp it).1.2))) := by
  obtain ⟨hloop, hpost, hside⟩ := bayOf_post (lp := lp) hp hs
  have hplace : y.placeLamp .oe (postBay lp p side) v =
      ((y.putItem lp it).1.1 && (y.putItem lp it).1.2, (y.putItem lp it).2) := by
    have he : ({ post := p, kind := .lamps, v0 := (sideValues side v).1, v1 := (sideValues side v).2, prio := 1,
                 origin := .oe } : Item) = it := by
      rw [hit]
      unfold sideValues
      split <;> rfl
    unfold Yard.placeLamp postBay
    rw [hloop, hpost, hside]
    dsimp only
    rw [he]
  have hmarks := Yard.putItem_lampMarks (y := y) lp it
  unfold Yard.placePassing at hz
  rw [hplace] at hz
  generalize y.putItem lp it = r at *
  obtain ⟨⟨ok0, ok1⟩, w⟩ := r
  cases hok : (ok0 && ok1) with
  | true =>
    simp only [hok] at hz
    subst hz
    refine ⟨by rw [← hmarks], fun b => ?_⟩
    unfold Yard.lampMarked
    rw [hmarks]
    simp [hok]
  | false =>
    simp only [hok] at hz
    subst hz
    refine ⟨by rw [← hmarks]; rfl, fun b => ?_⟩
    unfold Yard.lampMarked Yard.setLampMark
    rw [Tab.get_put (hmarks ▸ hw), hmarks]
    by_cases hb : b = postBay lp p side
    · simp [hb, hok]
    · simp [hb]

end placing

theorem flagsOf_flags (bits : List Bool) : flagsOf (bits.map fun b => if b then 1 else 0) = some bits := by
  induction bits with
  | nil => rfl
  | cons b bits ih =>
    rw [List.map_cons]
    unfold flagsOf
    rw [flagOf_flag, ih]

/-! ## POST MAP and LOOP RESET -/

section requests
variable {s : State} {tag : Nat} {lp : ScreenId}

theorem postMap_body {presence : List Bool} (hlen : presence.length = 128) :
    (withFin 4 lp.val fun lp s => match flagsOf (presence.map fun b => if b then 1 else 0) with
      | some bits => if bits.length = 128 then done (s.onYard fun y => y.postMap lp bits) else malformed s
      | none => malformed s) s =
    (Reply.ok, { s with yard := s.yard.mapFirst lp (fun p => presence.getD p false) 128 }) := by
  rw [withFin_val, flagsOf_flags]
  dsimp only
  rw [if_pos hlen, ← hlen, ← Yard.postMap_eq]
  rfl

theorem exec_postMap (hs : s.ready) {presence : List Bool} (hlen : presence.length = 128) {z : Yard}
    (hz : s.yard.mapFirst lp (fun p => presence.getD p false) 128 = z) :
    exec (.postMap tag lp.val (presence.map fun b => if b then 1 else 0)) s =
      .next (({ s with yard := { z with raised := [] } } : State).answered 0x0F tag Reply.ok z.raised) := by
  subst hz
  exact request_yard hs (postMap_body hlen)

theorem exec_loopReset (hs : s.ready) {z : Yard}
    (hz : (s.yard.modLoop lp LoopRec.loopReset).resendLoop Yard.drain lp = z) :
    exec (.loopReset tag lp.val) s =
      .next (({ s with yard := { z with raised := [] } } : State).answered 0x16 tag Reply.ok z.raised) := by
  have hb : withFin 4 lp.val (fun lp s => done (s.onYard fun y =>
      (y.modLoop lp LoopRec.loopReset).resendLoop Yard.drain lp)) s = (Reply.ok, { s with yard := z }) := by
    rw [withFin_val]
    unfold State.onYard
    dsimp only
    rw [hz]
    rfl
  exact request_yard hs hb

/-- A post's entry after a loop reset. -/
theorem Post.loopReset_get {posts : Tab Post} (h : Tab.wf Post.reset posts = true) (p : Nat) :
    Tab.get Post.reset (Tab.mapEntries Post.reset (fun _ => Post.loopReset) posts) p =
      (Tab.get Post.reset posts p).loopReset :=
  Tab.get_mapEntries (fun _ => Post.loopReset) (fun _ => rfl) h p

end requests

/-- Settles O39: the marks of a post place one item whose sides clear them; POST MAP goes post by post; a resend request
marks the loop's field and places it. -/
theorem loopMapAndReset : Obligations.LoopMapAndReset := by
  unfold Obligations.LoopMapAndReset
  refine ⟨?_, fun y lp _ _ => ?_, ?_⟩
  · intro y lp p b0 b1 on ready hu hp hb0 hb1 hon hready
    have h0 : b0 = postBay lp p 0 := hb0.trans (Nat.add_zero _).symm
    have h1 : b1 = postBay lp p 1 := by rw [hb1, hb0, postBay]
    refine ⟨fun hw => ⟨fun hn0 hn1 => ?_, ?_⟩, fun hw => ⟨fun hn0 hn1 => ?_, ?_⟩, ?_⟩
    · exact Yard.placeSpeakersAt_unmarked (Yard.baySlot_readable hu) _ lp p (h0 ▸ hn0) (h1 ▸ hn1)
    · rintro hm it _ z hit rfl hz
      exact Yard.placeSpeakersAt_item hu h0 h1 hon hw hm hit hz
    · exact Yard.placeLampsAt_unmarked (Yard.baySlot_readable hu) _ lp p (h0 ▸ hn0) (h1 ▸ hn1)
    · rintro hm it _ z hit rfl hz
      exact Yard.placeLampsAt_item hu h0 h1 (Yard.restingValue_eq hready) hw hm hit hz
    · rintro hw side v it _ z hs hit rfl hz
      have hside : b0 + side = postBay lp p side := by rw [hb0, postBay]
      rw [hside] at hz ⊢
      exact Yard.placePassing_item hp hs hw hit hz
  · have hmark (t : Tab Bool) (b : Nat) :
        Tab.get false ((fieldBays lp).foldl (fun t b => Tab.put false t b true) t) b =
          (Tab.get false t b || b / 256 == lp.val) := by
      rw [get_foldl_mark, Bool.eq_iff_iff]
      simp only [Bool.or_eq_true, decide_eq_true_iff, mem_fieldBays, beq_iff_eq]
    have hm := Yard.markBays_eq y (fieldBays lp)
    have hsend : y.resendLoop Yard.drain lp = ((y.markBays (fieldBays lp)).placeAllSpeakers Yard.drain lp).placeAllLamps
        Yard.drain lp := rfl
    generalize y.markBays (fieldBays lp) = m at *
    refine ⟨m, ?_, fun b => ?_, fun b => ?_, hsend⟩
    · rw [hm]
    · unfold Yard.spkMarked
      rw [hm]
      dsimp only
      rw [hmark]
    · unfold Yard.lampMarked
      rw [hm]
      dsimp only
      rw [hmark]
  · intro s tag lp l hs hl hcan
    subst hl
    have hwf : Tab.wf Post.reset (s.yard.loops[lp]).posts = true := ((LoopRec.canonical_iff _).1 hcan).1
    refine ⟨fun presence hlen => ?_,
      Tab.mapEntries Post.reset (fun _ => Post.loopReset) (s.yard.loops[lp]).posts, fun p => ?_, fun z hz => ?_⟩
    · have hposts := (Yard.mapFirst_posts (want := fun p => presence.getD p false) hwf 128).2
      have htold := Yard.mapFirst_told (want := fun p => presence.getD p false) hwf
      generalize hz : s.yard.mapFirst lp (fun p => presence.getD p false) 128 = z at *
      refine ⟨_, exec_postMap hs hlen hz, Link.after_replies .., fun p hp => ?_, fun ho gone hgone => ?_⟩
      · exact (hposts p).trans (if_pos hp)
      · obtain ⟨l, he, -, hslots⟩ := htold ho 128
        rw [hz] at he
        subst he
        have hloses (p : Nat) (hp : p < 128) (i : Fin 16) :
            (s.yard.loops[lp]).loses (fun p => presence.getD p false) p i = gone p i := by
          rw [Bool.eq_iff_iff, hgone]
          unfold LoopRec.loses
          simp only [Bool.and_eq_true, OutSlot.pendingFor_iff, Bool.not_eq_true']
          exact ⟨fun h => ⟨h.1.1.1, h.1.1.2, hp, h.1.2, h.2⟩, fun h => ⟨⟨⟨h.1, h.2.1⟩, h.2.2.2.1⟩, h.2.2.2.2⟩⟩
        refine ⟨fun i => ?_, ?_⟩
        · have hloop := Yard.told_loop s.yard lp l
            ((s.yard.loops[lp]).lossReports lp (fun p => presence.getD p false) 128)
          refine (congrArg (fun l : LoopRec => l.slots[i]) hloop).trans ((hslots i).trans ?_)
          refine if_congr ⟨fun h => hloses _ h.1 i ▸ h.2, fun h => ?_⟩ rfl rfl
          have hlt := ((hgone _ i).1 h).2.2.1
          exact ⟨hlt, (hloses _ hlt i).trans h⟩
        · refine congrArg (Link.after _) ?_
          change s.yard.raised ++ LoopRec.lossReports _ lp _ 128 = _
          rw [hs.1, List.nil_append]
          unfold LoopRec.lossReports
          refine congrArg List.flatten (List.map_congr_left fun p hp => ?_)
          rw [show LoopRec.loses _ _ p = gone p from funext (hloses p (List.mem_range.1 hp))]
          refine List.map_congr_left fun i hi => ?_
          rfl
    · exact Post.loopReset_get hwf p
    · rw [hz]
      refine exec_loopReset hs ?_
      have hreset : s.yard.modLoop lp LoopRec.loopReset = { s.yard with
          loops := s.yard.loops.set lp (s.yard.loops[lp]).loopReset } := rfl
      rw [hreset]
      rfl


end Sys2Proof.Machine
end

section
/-! PROOF. The Record Store: the slot test, STORE CLEAR, and a read that meets wrong parity (R191, R192, R196 to R199). -/

namespace Sys2Proof.Machine

/-! ## The slot test -/

section visits
variable {ρ : Type} {sl : Slot ρ}

theorem Slot.visit_inUse {r : ρ} (h : sl.state = .inUse r) : sl.visit = (.passedOver, sl) := by
  unfold Slot.visit
  rw [h]

theorem Slot.visit_free (h : sl.state = .free) : sl.visit =
    if sl.failing then (.quarantined, { sl with state := .quarantined })
    else (.kept, { sl with badFirst := false, badSecond := false }) := by
  unfold Slot.visit
  rw [h]
  rfl

theorem Slot.visit_quarantined (h : sl.state = .quarantined) : sl.visit =
    if sl.failing then (.kept, sl) else (.returned, { sl with state := .free, badFirst := false, badSecond := false }) := by
  unfold Slot.visit
  rw [h]

/-- A visit of a table's slot, as it is answered for the table and written to it. -/
def Yard.visits (y : Yard) (t : TableId) (slot : Yard → Nat → Slot ρ) (put : Yard → Nat → Slot ρ → Yard) : Prop :=
  ∀ i, y.visitSlot t i = ((slot y i).visit.1, put y i (slot y i).visit.2)

theorem exec_storeTestVisit {s : State} {tr tr' : TestRun} {e : VisitEnd} {z : Yard} (hs : s.settled)
    (ht : s.yard.store.test = some tr) (hv : s.yard.visitSlot tr.table tr.cursor = (e, z)) (he : tr.advance e = tr')
    (hz : z.raised = s.yard.raised) : exec .storeTestVisit s = .next (({ s with
      yard := z.setTest (if tr'.cursor < tr'.table.size then some tr' else none) } : State).reported
      (if tr'.cursor < tr'.table.size then []
       else [.storeTestDone tr'.table tr'.visited tr'.passed tr'.returned tr'.quarantined])) := by
  have hraised : z.raised = [] := hz.trans hs
  have hvisit : s.yard.testVisit = if tr'.cursor < tr'.table.size then z.setTest (some tr')
      else (z.setTest none).raise (.storeTestDone tr'.table tr'.visited tr'.passed tr'.returned tr'.quarantined) := by
    unfold Yard.testVisit
    rw [ht]
    dsimp only
    rw [hv, he]
  by_cases hc : tr'.cursor < tr'.table.size
  · rw [if_pos hc] at hvisit
    rw [if_pos hc, if_pos hc]
    have hstep := event_yard (f := Yard.testVisit) hvisit
    have hclear : ({ z.setTest (some tr') with raised := [] } : Yard) = z.setTest (some tr') := by
      rw [← hraised]
      rfl
    rw [hclear, show (z.setTest (some tr')).raised = [] from hraised] at hstep
    exact hstep
  · rw [if_neg hc] at hvisit
    rw [if_neg hc, if_neg hc]
    exact event_yard_raise (f := Yard.testVisit) hvisit hraised

/-- The law of a visit holds of every table whose slots a visit reads and writes. -/
theorem visitLaw_of {tb : TableId} {slot : Yard → Nat → Slot ρ} {put : Yard → Nat → Slot ρ → Yard}
    (hv : ∀ y : Yard, y.visits tb slot put) (hput : ∀ (y : Yard) i sl, (put y i sl).raised = y.raised) :
    visitLaw tb slot put := by
  intro s tr tr' sl sl' hs ht htb hslot hcases
  have hvisit := hv s.yard tr.cursor
  rw [hslot] at hvisit
  have hstep {e : VisitEnd} (hend : sl.visit = (e, sl')) (he : tr.advance e = tr') (htable : tr'.table = tb) :
      exec .storeTestVisit s = .next (({ s with
        yard := (put s.yard tr.cursor sl').setTest (if tr'.cursor < tb.size then some tr' else none) } : State).reported
        (if tr'.cursor < tb.size then []
         else [.storeTestDone tb tr'.visited tr'.passed tr'.returned tr'.quarantined])) := by
    rw [hend] at hvisit
    subst htb
    have := exec_storeTestVisit hs ht hvisit he (hput s.yard tr.cursor sl')
    rw [htable] at this
    exact this
  rcases hcases with ⟨⟨r, hr⟩, rfl, rfl⟩ | ⟨hfree, hfail, rfl, rfl⟩ | ⟨hfree, hfail, rfl, rfl⟩ |
    ⟨hquar, hfail, rfl, rfl⟩ | ⟨hquar, hfail, rfl, rfl⟩
  · exact hstep (e := .passedOver) (Slot.visit_inUse hr) rfl htb
  · exact hstep (e := .kept) (by rw [Slot.visit_free hfree, hfail]; rfl) rfl htb
  · exact hstep (e := .quarantined) (by rw [Slot.visit_free hfree, hfail]; rfl) rfl htb
  · exact hstep (e := .returned) (by rw [Slot.visit_quarantined hquar, hfail]; rfl) rfl htb
  · exact hstep (e := .kept) (by rw [Slot.visit_quarantined hquar, hfail]; rfl) rfl htb

end visits

/-! ## STORE TEST and STORE CLEAR -/

section requests
variable {s : State} {tag : Nat}

theorem TableId.of_ctorIdx (tb : TableId) : TableId.of tb.ctorIdx = some tb := by cases tb <;> rfl

theorem exec_storeTest (hs : s.ready) (tb : TableId) {t : State} {r : Reply} (hb : storeTestBody tb s = (r, t))
    (ht : t.settled) : exec (.storeTest tag tb.ctorIdx) s = .next (t.answered 0x36 tag r []) := by
  refine request_answers_quietly _ tag _ s t r hs.2 ?_ ht
  rw [TableId.of_ctorIdx]
  exact hb

theorem storeTestBody_busy (tb : TableId) (h : s.yard.store.test.isSome = true) :
    storeTestBody tb s = (Reply.refuse .busy, s) :=
  if_pos h

theorem storeTestBody_state (h : s.yard.store.test = none) (hrun : s.link.part = .run) :
    storeTestBody .menu s = (Reply.refuse .state, s) := by
  unfold storeTestBody
  rw [h, hrun]
  rfl

theorem storeTestBody_starts {tb : TableId} (h : s.yard.store.test = none) (ht : tb ≠ .menu ∨ s.link.part = .setup) :
    storeTestBody tb s = (Reply.ok, { s with yard := s.yard.setTest (some (TestRun.fresh tb)) }) := by
  have hno : ¬(tb = .menu ∧ s.link.part = .run) := by
    rintro ⟨rfl, hrun⟩
    rcases ht with ht | ht
    · exact ht rfl
    · rw [hrun] at ht
      cases ht
  unfold storeTestBody
  rw [h, if_neg (by decide), if_neg hno]
  rfl

end requests

/-! ## A read that meets wrong parity -/

/-- A yard in which one parity fault has been latched, counted and reported, with its handling taken off the waiting
list. -/
def Yard.faulted (y : Yard) (tb : TableId) (i : Nat) (k : Key) (h : Halves) : Yard :=
  { y with
    freeIndex := y.freeIndex + 1
    store := { y.store with latch := some (tb, i, h), faultCount := min (y.store.faultCount + 1) 255 }
    raised := y.raised ++ [.storeFault tb i k h (Config.rawHalves y.freeIndex)] }

section faults
variable {y z : Yard}

theorem Yard.drain_idle (h : y.store.waiting = []) (n : Nat) : Yard.drainWithin n y = y := by
  cases n with
  | zero => rfl
  | succ n =>
    unfold Yard.drainWithin
    rw [h]

/-- One fault, and its owner's handling. -/
theorem Yard.drain_parityFault (hw : y.store.waiting = []) {tb : TableId} {i : Nat} {k : Key} {h : Halves}
    (hz : (y.faulted tb i k h).handleLost tb k = z) (hidle : z.store.waiting = []) :
    (y.parityFault tb i k h).drain = z := by
  have hone (n : Nat) : Yard.drainWithin (n + 1) (y.parityFault tb i k h) = z := by
    have hwait : (y.parityFault tb i k h).store.waiting = [(tb, i, k)] := by
      change y.store.waiting ++ [(tb, i, k)] = _
      rw [hw]
      rfl
    have hclear : ({ y.parityFault tb i k h with store := { (y.parityFault tb i k h).store with waiting := [] } } : Yard) =
        y.faulted tb i k h := by
      rw [← hw]
      rfl
    unfold Yard.drainWithin
    rw [hwait]
    dsimp only
    rw [hclear, hz, Yard.drain_idle hidle]
  exact hone 6463

theorem Slot.damaged.wrong {ρ : Type} {sl : Slot ρ} {h : Halves} (hd : sl.damaged h) : sl.wrong = some h := by
  obtain ⟨hbad, rfl⟩ := hd
  unfold Slot.wrong
  cases hf : sl.badFirst <;> cases hs : sl.badSecond
  · rw [hf, hs] at hbad
    cases hbad
  · rfl
  · rfl
  · rfl

variable {i : Nat} {h : Halves}

theorem Yard.readItem_fault (hw : y.store.waiting = []) {m : MenuItem} (hr : (y.menuSlot i).record? = some m)
    (hd : (y.menuSlot i).damaged h) : y.readItem Yard.drain i =
      (.fault, (y.setMenuSlot i (y.menuSlot i).quarantine).faulted .menu i ⟨i, none⟩ h) := by
  unfold Yard.readItem
  rw [hr, hd.wrong]
  exact congrArg _ (Yard.drain_parityFault (y := y.setMenuSlot i (y.menuSlot i).quarantine) (tb := .menu) (i := i)
    (k := ⟨i, none⟩) (h := h) hw rfl hw)

theorem Yard.readCar_fault (hw : y.store.waiting = []) (hc : y.store.canonical = true) {n : Nat} {c : Car}
    (hf : y.findCar n = some (i, c)) (hd : (y.carSlot i).damaged h)
    (hz : ((y.setCarSlot i (y.carSlot i).quarantine).faulted .car i ⟨n, none⟩ h).carLost n = z)
    (hidle : z.store.waiting = []) : y.readCar Yard.drain n = (.fault, z) := by
  obtain ⟨hr, hn⟩ := Yard.findCar_slot hc hf
  unfold Yard.readCar
  rw [hf]
  unfold Yard.readCarSlot
  dsimp only
  rw [hr, hd.wrong]
  dsimp only
  rw [hn]
  exact congrArg _ (Yard.drain_parityFault (y := y.setCarSlot i (y.carSlot i).quarantine) (tb := .car) (i := i)
    (k := ⟨n, none⟩) (h := h) hw hz hidle)

theorem Yard.readBay_fault (hw : y.store.waiting = []) {b : Bay} (hr : (y.baySlot i).record? = some b)
    (hd : (y.baySlot i).damaged h)
    (hz : ((y.setBaySlot i (y.baySlot i).quarantine).faulted .bay i ⟨i, none⟩ h).bayLost i = z)
    (hidle : z.store.waiting = []) : y.readBay Yard.drain i = (.fault, z) := by
  unfold Yard.readBay
  rw [hr, hd.wrong]
  exact congrArg _ (Yard.drain_parityFault (y := y.setBaySlot i (y.baySlot i).quarantine) (tb := .bay) (i := i)
    (k := ⟨i, none⟩) (h := h) hw hz hidle)

theorem Yard.readOrder_fault (hw : y.store.waiting = []) (hc : y.store.canonical = true) {n : Nat} {o : Order}
    (hf : y.findOrder n = some (i, o)) (hd : (y.orderSlot i).damaged h)
    (hz : ((y.setOrderSlot i (y.orderSlot i).quarantine).faulted .order i ⟨n, some o.car⟩ h).orderLost n o.car = z)
    (hidle : z.store.waiting = []) : y.readOrder Yard.drain n = (.fault, z) := by
  obtain ⟨hr, hn⟩ := Yard.findOrder_slot hc hf
  unfold Yard.readOrder
  rw [hf]
  unfold Yard.readOrderSlot
  dsimp only
  rw [hr, hd.wrong]
  dsimp only
  rw [hn]
  exact congrArg _ (Yard.drain_parityFault (y := y.setOrderSlot i (y.orderSlot i).quarantine) (tb := .order) (i := i)
    (k := ⟨n, some o.car⟩) (h := h) hw hz hidle)

end faults

end Sys2Proof.Machine
end

section
/-! PROOF. A car record lost: its bays are emptied, and it departs without a record (R133). -/

namespace Sys2Proof.Machine

section lost
variable {y x z : Yard} {car : Nat}

/-- The entries of a car on the ready list are counted in no row. -/
def Yard.unrowed (y : Yard) (car : Nat) : Prop := ∀ e ∈ y.readyList, e.car = car → e.row = none

/-- What is left of a yard in which every bay of a list that a lost car occupies is emptied. -/
structure Yard.emptied (y z : Yard) (car : Nat) (bs : List Nat) : Prop where
  work : y.fieldwork z
  intact : z.intact
  cars : z.store.cars = y.store.cars
  limits : z.limits = y.limits
  bays : ∀ k, z.bay? k = (y.bay? k).map fun r => if k ∈ bs ∧ r.occupant = some car then Bay.empty else r
  marksWf : Tab.wf false y.spkMarks = true → Tab.wf false z.spkMarks = true
  marks : ∀ b, y.spkMarked b = true → z.spkMarked b = true
  lamps : ∀ b, y.shows .lamps b 0 → z.shows .lamps b 0
  rows : y.unrowed car → z.unrowed car
  out : ∀ b ∈ bs, ∀ br, y.bay? b = some br → br.occupant = some car →
    z.shows .lamps b 0 ∧ (br.speaker = true → z.spkMarked b = true) ∧ z.unrowed car

theorem Yard.emptied.nil (h : y.intact) : y.emptied y car [] where
  work := Yard.fieldwork.refl y
  intact := h
  cars := rfl
  limits := rfl
  bays k := by simp
  marksWf h := h
  marks _ h := h
  lamps _ h := h
  rows h := h
  out _ h := by cases h

/-- One bay more, and then the others. -/
theorem Yard.emptied.cons {b : Nat} {bs : List Nat} (h : y.emptied x car [b]) (h' : x.emptied z car bs) :
    y.emptied z car (b :: bs) where
  work := h.work.trans h'.work
  intact := h'.intact
  cars := h'.cars.trans h.cars
  limits := h'.limits.trans h.limits
  bays k := by
    rw [h'.bays, h.bays]
    cases y.bay? k with
    | none => rfl
    | some r =>
      simp only [Option.map_some, List.mem_singleton, List.mem_cons]
      by_cases ho : r.occupant = some car
      · by_cases hk : k = b
        · simp [hk, ho, Bay.empty]
        · simp [hk, ho]
      · simp [ho]
  marksWf hw := h'.marksWf (h.marksWf hw)
  marks b hm := h'.marks b (h.marks b hm)
  lamps b hs := h'.lamps b (h.lamps b hs)
  rows hr := h'.rows (h.rows hr)
  out k hk br hbr ho := by
    by_cases hkb : k = b
    · obtain ⟨hs, hm, hr⟩ := h.out k (List.mem_singleton.2 hkb) br hbr ho
      exact ⟨h'.lamps k hs, fun hon => h'.marks k (hm hon), h'.rows hr⟩
    · refine h'.out k ((List.mem_cons.1 hk).resolve_left hkb) br ?_ ho
      rw [h.bays, hbr]
      simp [hkb]

/-- A bay of the lost car emptied. -/
theorem Yard.emptied.one (h : y.intact) {b : Nat} {br : Bay} (hb : y.bay? b = some br) (ho : br.occupant = some car) :
    y.emptied (Yard.emptyLostBay car y b) car [b] := by
  have hmod := Yard.worked.modBay h b fun b => { b with occupant := none }
  have hset := hmod.trans (Yard.worked.setSpeaker hmod.intact b false)
  obtain ⟨t, ht⟩ := y.modBay_bays b fun b => { b with occupant := none }
  obtain ⟨spk, hspk, hkeep, hmark, hwf, hother⟩ := (y.modBay b fun b => { b with occupant := none }).setSpeaker_eq b false
  obtain ⟨t', ht'⟩ := (y.modBay b fun b => { b with occupant := none }).modBay_bays b fun b => { b with speaker := false }
  have hmid : (y.modBay b fun b => { b with occupant := none }).setSpeaker b false =
      { y with store := { y.store with bays := t' }, spkMarks := spk } := by
    rw [hspk, ht', ht]
  have hold (k : Nat) (hk : y.spkMarked k = true) : Tab.get false spk k = true := by
    have hk' : (y.modBay b fun b => { b with occupant := none }).spkMarked k = true := by
      rw [ht]
      exact hk
    by_cases hkb : k = b
    · subst hkb
      exact hkeep hk'
    · exact (hother k hkb).trans hk'
  have hon : br.speaker = true → Tab.get false spk b = true := by
    intro hon
    refine hmark { br with occupant := none } ?_ (by rw [hon]; decide)
    rw [Yard.bay?_modBay h, hb]
    simp
  have hkept : Tab.wf false y.spkMarks = true → Tab.wf false spk = true := by
    intro hw
    refine hwf ?_
    rw [ht]
    exact hw
  have hsig := Yard.signals.placeLamp ((y.modBay b fun b => { b with occupant := none }).setSpeaker b false) .ct b lampNone
  have hall := (hset.trans (hsig.worked hset.intact)).trans
    (Yard.worked.bindChange (hsig.intact hset.intact) car none)
  have hlamp := Yard.placeLamp_shows ((y.modBay b fun b => { b with occupant := none }).setSpeaker b false) .ct b lampNone
  have hsame (k : Nat) (hk : y.shows .lamps k 0) :
      (((y.modBay b fun b => { b with occupant := none }).setSpeaker b false).placeLamp .ct b lampNone).2.shows
        .lamps k 0 := by
    refine Yard.shows.placeLamp_same ?_ .ct b
    rw [hmid]
    exact hk
  have hmarks : (((y.modBay b fun b => { b with occupant := none }).setSpeaker b false).placeLamp .ct b lampNone).2.spkMarks =
      spk := by
    rw [Yard.placeLamp_eq, Yard.putItem_spkMarks, hmid]
  have hcars : (((y.modBay b fun b => { b with occupant := none }).setSpeaker b false).placeLamp .ct b
      lampNone).2.store.cars = y.store.cars := by
    rw [hsig.store, hmid]
  have hlimits : (((y.modBay b fun b => { b with occupant := none }).setSpeaker b false).placeLamp .ct b
      lampNone).2.limits = y.limits := by
    rw [hsig.limits, hmid]
  change y.emptied ((((y.modBay b fun b => { b with occupant := none }).setSpeaker b false).placeLamp .ct b
    lampNone).2.bindChange car none).2 car [b]
  clear hsig hset hmod hmid
  generalize (((y.modBay b fun b => { b with occupant := none }).setSpeaker b false).placeLamp .ct b lampNone).2 = w at *
  have hrows : (w.bindChange car none).2.unrowed car := by
    obtain ⟨rows, he⟩ := w.bindChange_rowed car none
    intro e hmem hcar
    rw [he] at hmem
    obtain ⟨e', -, rfl⟩ := List.mem_map.1 hmem
    rw [ReadyEntry.rebound_car] at hcar
    unfold ReadyEntry.rebound
    rw [if_pos (beq_iff_eq.2 hcar)]
    rfl
  refine ⟨hall.work, hall.intact, ?_, ?_, fun k => ?_, fun hw => ?_, fun k hk => ?_, fun k hk => ?_, fun _ => hrows,
    fun k hk br' hbr' _ => ?_⟩
  · rw [Yard.bindChange_store]
    exact hcars
  · rw [Yard.bindChange_limits]
    exact hlimits
  · refine (hall.bays k).trans ?_
    by_cases hk : k = b
    · subst hk
      simp [hb, ho, oneBay, sameBays, Bay.empty]
    · cases y.bay? k with
      | none => rfl
      | some r => simp [hk, oneBay, sameBays]
  · rw [Yard.bindChange_spkMarks, hmarks]
    exact hkept hw
  · unfold Yard.spkMarked
    rw [Yard.bindChange_spkMarks, hmarks]
    exact hold k hk
  · rw [Yard.shows_congr (Yard.bindChange_loops _ _ _)]
    exact hsame k hk
  · obtain rfl := List.mem_singleton.1 hk
    rw [hb] at hbr'
    cases hbr'
    refine ⟨(Yard.shows_congr (Yard.bindChange_loops _ _ _)).2 hlamp, fun hspkOn => ?_, hrows⟩
    unfold Yard.spkMarked
    rw [Yard.bindChange_spkMarks, hmarks]
    exact hon hspkOn

/-- A bay that the lost car does not occupy is passed over. -/
theorem Yard.emptied.skip (h : y.intact) {b : Nat} (hb : ∀ br, y.bay? b = some br → br.occupant ≠ some car) :
    y.emptied y car [b] := by
  refine { Yard.emptied.nil (y := y) (car := car) h with bays := fun k => ?_, out := fun k hk br hbr ho => ?_ }
  · cases hk : y.bay? k with
    | none => rfl
    | some r =>
      refine congrArg some (if_neg fun hboth => ?_).symm
      obtain rfl := List.mem_singleton.1 hboth.1
      exact hb r hk hboth.2
  · obtain rfl := List.mem_singleton.1 hk
    exact absurd ho (hb br hbr)

theorem Yard.emptyBaysOf_leaves (h : y.intact) (bs : List Nat) :
    ∃ l z, Yard.emptyBaysOf car bs y = (l, z) ∧ y.emptied z car bs := by
  induction bs generalizing y with
  | nil => exact ⟨[], y, rfl, .nil h⟩
  | cons b bs ih =>
    unfold Yard.emptyBaysOf
    rw [Yard.readBay_intact h]
    cases hb : y.bay? b with
    | none =>
      obtain ⟨l, z, hz, he⟩ := ih h
      exact ⟨l, z, hz, Yard.emptied.cons (Yard.emptied.skip h fun br hbr => by rw [hb] at hbr; cases hbr) he⟩
    | some r =>
      dsimp only [Read.of]
      by_cases ho : r.occupant = some car
      · have hone := Yard.emptied.one h hb ho
        obtain ⟨l, z, hz, he⟩ := ih hone.intact
        exact ⟨b :: l, z, by rw [if_pos ho, hz], hone.cons he⟩
      · obtain ⟨l, z, hz, he⟩ := ih h
        refine ⟨l, z, by rw [if_neg ho, hz], Yard.emptied.cons (Yard.emptied.skip h fun br hbr => ?_) he⟩
        rw [hb] at hbr
        cases hbr
        exact ho

/-- A bay whose record can be read is one of those a search of the bay table meets. -/
theorem Yard.mem_baysInUse (h : y.intact) {b : Nat} {br : Bay} (hb : y.bay? b = some br) :
    b ∈ (inUse y.store.bays).map Prod.fst :=
  List.mem_map.2 ⟨(b, br), (mem_inUse_iff h.bays).2 hb, rfl⟩

/-- What a lost car leaves. -/
theorem Yard.carLost_leaves (h : y.intact) (hlim : Tab.wf none y.limits = true) (hspk : Tab.wf false y.spkMarks = true)
    (n : Nat) : ∃ z rs, y.carLost n = z ∧ y.fieldwork z ∧ z.store.cars = y.store.cars ∧
      Tab.get none z.limits n = none ∧ z.raised = y.raised ++ rs ∧ .departed n none none .store ∈ rs ∧
      (∀ b br, y.bay? b = some br → br.occupant ≠ some n → z.bay? b = some br) ∧
      ∀ b br, y.bay? b = some br → br.occupant = some n →
        z.bay? b = some Bay.empty ∧ (br.speaker = true → z.speaks b 0) ∧ z.shows .lamps b 0 ∧ z.unrowed n := by
  obtain ⟨l, x, hx, he⟩ := Yard.emptyBaysOf_leaves (car := n) h ((inUse y.store.bays).map Prod.fst)
  have hstop := Yard.fieldwork.stopLimit x n
  have hraise := Yard.signals.raise (x.stopLimit n) (.departed n none none .store)
  have hint : ((x.stopLimit n).raise (.departed n none none .store)).intact := he.intact.congr rfl
  have hsig := Yard.signals.placeSpeakersOf hint id l
  obtain ⟨rs, hrs⟩ := he.work.raised
  obtain ⟨rs', hrs'⟩ := hsig.raised
  have hbay (b : Nat) : (((x.stopLimit n).raise (.departed n none none .store)).placeSpeakersOf id l).bay? b = x.bay? b :=
    hsig.bay? b
  have hlimit : Tab.get none (((x.stopLimit n).raise (.departed n none none .store)).placeSpeakersOf id l).limits n =
      none := by
    rw [hsig.limits]
    exact Tab.get_put_self (n := 0) (he.limits ▸ hlim) n none
  have hrows : (((x.stopLimit n).raise (.departed n none none .store)).placeSpeakersOf id l).readyList = x.readyList := by
    obtain ⟨_, _, _, _, hz⟩ := hsig
    rw [hz]
    rfl
  have hshows (b : Nat) (hb : x.shows .lamps b 0) :
      (((x.stopLimit n).raise (.departed n none none .store)).placeSpeakersOf id l).shows .lamps b 0 :=
    Yard.shows.placeSpeakersOf (y := (x.stopLimit n).raise (.departed n none none .store)) hb hint id l
  have hspeaks (b : Nat) (hm : x.spkMarked b = true) (hv : x.speakerValue b = 0) :
      (((x.stopLimit n).raise (.departed n none none .store)).placeSpeakersOf id l).speaks b 0 := by
    have hs := Yard.speaks.placeSpeakersOf (y := (x.stopLimit n).raise (.departed n none none .store)) (bay := b)
      (.inl hm) hint (he.marksWf hspk) id l
    rw [show ((x.stopLimit n).raise (.departed n none none .store)).speakerValue b = 0 from hv] at hs
    exact hs
  have hz : y.carLost n = ((x.stopLimit n).raise (.departed n none none .store)).placeSpeakersOf id l := by
    unfold Yard.carLost
    rw [hx]
  refine ⟨_, rs ++ .departed n none none .store :: rs', hz, ((he.work.trans hstop).trans hraise.fieldwork).trans
    hsig.fieldwork, ?_, hlimit, ?_, by simp, fun b br hb ho => ?_, fun b br hb ho => ?_⟩
  · rw [hsig.store]
    exact he.cars
  · rw [hrs']
    change (x.raised ++ _) ++ rs' = _
    rw [hrs]
    simp
  · rw [hbay, he.bays, hb]
    simp [ho]
  · have hempty : x.bay? b = some Bay.empty := by
      rw [he.bays, hb, Option.map_some, if_pos ⟨Yard.mem_baysInUse h hb, ho⟩]
    obtain ⟨hlamp, hmark, hun⟩ := he.out b (Yard.mem_baysInUse h hb) br hb ho
    refine ⟨(hbay b).trans hempty, fun hon => hspeaks b (hmark hon) ?_, hshows b hlamp, fun e hmem => ?_⟩
    · unfold Yard.speakerValue
      rw [hempty]
      rfl
    · rw [hrows] at hmem
      exact hun e hmem

end lost

end Sys2Proof.Machine
end

section
/-! PROOF. A bay record lost: the bay is closed, and the car in it is back on the field (R122, R133). -/

namespace Sys2Proof.Machine

section search
variable {y : Yard} (settle : Yard → Yard)

/-- A search of the records finds what the index does, where every read is good. -/
theorem Yard.searchCars_intact (h : y.intact) (q : Car → Bool) :
    Yard.searchCars settle q y.carSlotsInUse y = (((inUse y.store.cars).find? fun e => q e.2).map Prod.snd, false, y) := by
  have hrec : ∀ e ∈ inUse y.store.cars, (y.carSlot e.1).record? = some e.2 := fun e he =>
    get_of_mem_inUse (i := e.1) (r := e.2) h.cars he
  unfold Yard.carSlotsInUse
  generalize inUse y.store.cars = list at hrec
  induction list with
  | nil => rfl
  | cons e list ih =>
    rw [List.map_cons, Yard.searchCars, Yard.readCarSlot_readable settle (h.carSlot e.1).readable,
      hrec e List.mem_cons_self, List.find?_cons]
    cases hq : q e.2 with
    | true => simp [Read.of, hq]
    | false => simpa [Read.of, hq] using ih fun j hj => hrec j (List.mem_cons_of_mem _ hj)

end search

section lost
variable {y : Yard} {b : Nat}

theorem Yard.modBay_closed (hb : y.bay? b = none) (f : Bay → Bay) : y.modBay b f = y := by
  unfold Yard.modBay
  rw [hb]

theorem Yard.setSpeaker_closed (hb : y.bay? b = none) (on : Bool) : y.setSpeaker b on = y := by
  unfold Yard.setSpeaker
  rw [hb]

theorem Yard.modCar_bays (y : Yard) (n : Nat) (f : Car → Car) : (y.modCar n f).store.bays = y.store.bays := by
  obtain ⟨t, ht⟩ := y.modCar_cars n f
  rw [ht]

/-- A car unbound from a bay that has no record leaves the bays. -/
theorem Yard.release_closed (hb : y.bay? b = none) (car : Nat) : (y.release car b).store.bays = y.store.bays := by
  have hunbound : y.unbound car b = ((y.modCar car fun c => { c with bay := none }).placeLamp .ct b lampNone).2 := by
    unfold Yard.unbound
    rw [Yard.modBay_closed hb, Yard.setSpeaker_closed hb]
  rw [Yard.release_eq, Yard.bindChange_store, hunbound, (Yard.signals.placeLamp _ .ct b lampNone).store]
  exact y.modCar_bays car _

theorem Yard.unbindToField_closed (hb : y.bay? b = none) (car : Nat) (cause : CarCause) :
    (y.unbindToField car b cause).store.bays = y.store.bays := by
  obtain ⟨t, ht⟩ := y.unbindToField_eq car b cause
  have hbays : (y.unbindToField car b cause).store.bays = (y.release car b).store.bays := by rw [ht]
  exact hbays.trans (Yard.release_closed hb car)

theorem Yard.unbindToField_spkMarks (car : Nat) (cause : CarCause) :
    (y.unbindToField car b cause).spkMarks = (y.release car b).spkMarks := by
  obtain ⟨t, ht⟩ := y.unbindToField_eq car b cause
  rw [ht]

/-- The car of a lost bay unbound, where a search of the records finds one. -/
def Yard.unbindLost (y : Yard) (b : Nat) : Option Car → Yard
  | some c => y.unbindToField c.number b .bayLost
  | none => y

theorem Yard.bayLost_eq (h : y.intact) (b : Nat) : y.bayLost b =
    (((y.unbindLost b (((inUse y.store.cars).find? fun e => decide (e.2.bay = some b)).map Prod.snd)).setSpkMark b
      true).placeSpeakersOf id [b]).checkCapacity (bayLoop b) := by
  unfold Yard.bayLost
  rw [Yard.searchCars_intact id h]
  cases ((inUse y.store.cars).find? fun e => decide (e.2.bay = some b)).map Prod.snd <;> rfl

theorem Yard.unbindLost_leaves (h : y.intact) (hspk : Tab.wf false y.spkMarks = true) (hb : y.bay? b = none)
    (c : Option Car) : y.fieldwork (y.unbindLost b c) ∧ (y.unbindLost b c).intact ∧
      (y.unbindLost b c).store.bays = y.store.bays ∧ Tab.wf false (y.unbindLost b c).spkMarks = true := by
  cases c with
  | none => exact ⟨Yard.fieldwork.refl y, h, rfl, hspk⟩
  | some c =>
    have hwork := Yard.worked.unbindToField h c.number b .bayLost
    refine ⟨hwork.work, hwork.intact, Yard.unbindToField_closed hb c.number .bayLost, ?_⟩
    change Tab.wf false (y.unbindToField c.number b .bayLost).spkMarks = true
    rw [Yard.unbindToField_spkMarks]
    exact Yard.release_spkMarks_wf hspk c.number b

theorem Yard.unbindLost_found (h : y.intact) (hlim : Tab.wf none y.limits = true) (d : Car) :
    (y.unbindLost b (some d)).car? d.number = (y.car? d.number).map (fun c => { c with
      bay := none
      state := .onField }) ∧
    Tab.get none (y.unbindLost b (some d)).limits d.number = loadMinutes y.checkinSetting ∧
    ∃ rs, (y.unbindLost b (some d)).raised = y.raised ++ (rs ++ [.carState d.number .parked .onField .bayLost]) := by
  refine ⟨?_, ?_, y.unbindToField_raised d.number b .bayLost⟩
  · refine ((Yard.worked.unbindToField h d.number b .bayLost).car? d.number).trans (congrArg (Option.map · _) ?_)
    exact funext fun c => if_pos rfl
  · refine (congrArg (fun t => Tab.get none t d.number) (y.unbindToField_limits d.number b .bayLost)).trans ?_
    exact Tab.get_put_self (n := 0) hlim d.number _

/-- What the field's capacity check leaves of a yard that has sent signals. -/
theorem Yard.openBays_congr {y z : Yard} (h : z.store.bays = y.store.bays) (sc : ScreenId) :
    z.openBays sc = y.openBays sc := by
  unfold Yard.openBays
  rw [h]

theorem Yard.speaks_congr {y z : Yard} (hl : z.loops = y.loops) (hm : z.spkMarks = y.spkMarks) {b v : Nat} :
    z.speaks b v ↔ y.speaks b v := by
  unfold Yard.speaks Yard.spkMarked
  rw [hm, Yard.sends_congr hl]

/-- What a lost bay leaves. -/
theorem Yard.bayLost_leaves (h : y.intact) (hlim : Tab.wf none y.limits = true) (hspk : Tab.wf false y.spkMarks = true)
    (hb : y.bay? b = none) {sc : ScreenId} (hsc : sc = bayLoop b) : ∃ z rs cars, y.bayLost b = z ∧
      z.store = { y.store with cars := cars } ∧ z.admittedCount = y.admittedCount ∧
      z.capacity = y.capacity.set sc (min y.capacity[sc] (max (y.openBays sc) y.admittedCount[sc])) ∧
      z.raised = y.raised ++ rs ∧
      (z.capacity[sc] < y.capacity[sc] → .capacityChanged sc y.capacity[sc] z.capacity[sc] ∈ rs) ∧ z.speaks b 0 ∧
      ((∀ e ∈ inUse y.store.cars, e.2.bay ≠ some b) → cars = y.store.cars) ∧
      ∀ j car, y.findCar car.number = some (j, car) → car.bay = some b →
        (∀ e ∈ inUse y.store.cars, e.2.bay = some b → e.1 = j) →
        z.car? car.number = some { car with bay := none, state := .onField } ∧
        Tab.get none z.limits car.number = loadMinutes y.checkinSetting ∧
        .carState car.number .parked .onField .bayLost ∈ rs := by
  subst hsc
  have he := Yard.bayLost_eq h b
  have hfound := Yard.unbindLost_found (b := b) h hlim
  generalize hc : ((inUse y.store.cars).find? fun e => decide (e.2.bay = some b)).map Prod.snd = c at he
  obtain ⟨hwork, hint, hbays, hmarks⟩ := Yard.unbindLost_leaves h hspk hb c
  have hfound : ∀ d, c = some d → _ := fun d hd => hd ▸ hfound d
  have hnone : c = none → y.unbindLost b c = y := by
    rintro rfl
    rfl
  generalize y.unbindLost b c = u at *
  have hmark := Yard.signals.setSpkMark u b true
  have hsig := hmark.trans (Yard.signals.placeSpeakersOf (hmark.intact hint) id [b])
  have hspeaks : ((u.setSpkMark b true).placeSpeakersOf id [b]).speaks b 0 := by
    have hs := Yard.speaks.placeSpeakersOf (y := u.setSpkMark b true) (bay := b)
      (.inl (Tab.get_put_of_ne u.spkMarks b (by decide))) (hmark.intact hint) (Tab.wf_put hmarks b true) id [b]
    have hvalue : (u.setSpkMark b true).speakerValue b = 0 := by
      have hub : u.bay? b = none := by
        unfold Yard.bay? Yard.baySlot at *
        rw [hbays]
        exact hb
      unfold Yard.speakerValue
      rw [hmark.bay?, hub]
    rw [hvalue] at hs
    exact hs
  generalize (u.setSpkMark b true).placeSpeakersOf id [b] = w at *
  have hcarsOf (n : Nat) : w.car? n = u.car? n := hsig.car? n
  have hlimitsOf := hsig.limits
  obtain ⟨rs₁, hrs₁⟩ := hwork.raised
  obtain ⟨rs₂, hrs₂⟩ := hsig.raised
  obtain ⟨cars, hstore, hcap, hadm⟩ : ∃ cars, w.store = { y.store with cars := cars } ∧ w.capacity = y.capacity ∧
      w.admittedCount = y.admittedCount := by
    obtain ⟨_, _, _, _, rfl⟩ := hsig
    obtain ⟨_, _, _, _, _, _, _, cars, bays, rfl⟩ := hwork
    exact ⟨cars, by rw [show bays = y.store.bays from hbays], rfl, rfl⟩
  have hsame : w.store.cars = u.store.cars := congrArg Store.cars hsig.store
  have hopen := Yard.openBays_congr (y := y) (z := w) (by rw [hstore]) (bayLoop b)
  have hspeaks' := fun cap rs => (Yard.speaks_congr (y := w)
    (z := { w with capacity := cap, raised := rs }) (by rfl) (by rfl)).2 hspeaks
  have hraised := hrs₂.trans (congrArg (· ++ rs₂) hrs₁)
  have hold : w.capacity[bayLoop b] = y.capacity[bayLoop b] := by rw [hcap]
  have hnew : min w.capacity[bayLoop b] (max (w.openBays (bayLoop b)) w.admittedCount[bayLoop b]) =
      min y.capacity[bayLoop b] (max (y.openBays (bayLoop b)) y.admittedCount[bayLoop b]) := by
    rw [hopen, hcap, hadm]
  rw [Yard.checkCapacity_eq, hnew, hold] at he
  generalize min y.capacity[bayLoop b] (max (y.openBays (bayLoop b)) y.admittedCount[bayLoop b]) = new at *
  have hat : (y.capacity.set (bayLoop b) new)[bayLoop b] = new := Vector.getElem_set_self (bayLoop b).isLt
  clear hsig hwork hmark
  refine ⟨_, rs₁ ++ rs₂ ++ (if new < y.capacity[bayLoop b] then [.capacityChanged (bayLoop b) y.capacity[bayLoop b] new]
    else []), cars, he, hstore, hadm, congrArg (fun v => v.set (bayLoop b) new) hcap, ?_, fun hlt => ?_, hspeaks' _ _, fun hno => ?_,
    fun j car hf hbay honly => ?_⟩
  · dsimp only
    rw [hraised]
    simp only [List.append_assoc]
  · dsimp only at hlt ⊢
    rw [hcap, hat] at hlt ⊢
    rw [if_pos hlt]
    simp
  · have hc' : c = none := by
      rw [← hc, Option.map_eq_none_iff, List.find?_eq_none]
      exact fun e hmem => by simpa using hno e hmem
    rw [hnone hc'] at hsame
    rw [← hsame, hstore]
  · have hmem : (j, car) ∈ inUse y.store.cars := mem_inUse_of_get (Yard.findCar_get h hf).1
    have hc' : c = some car := by
      rw [← hc]
      cases hfind : (inUse y.store.cars).find? fun e => decide (e.2.bay = some b) with
      | none => exact absurd hbay (by simpa using List.find?_eq_none.1 hfind _ hmem)
      | some e =>
        obtain ⟨k, d⟩ := e
        have hd := List.mem_of_find?_eq_some hfind
        obtain rfl : k = j := honly _ hd (by simpa using List.find?_some hfind)
        have hrec := (mem_inUse_iff h.cars).1 hd
        rw [show Tab.get Slot.blank y.store.cars k = y.carSlot k from rfl, (Yard.findCar_get h hf).1] at hrec
        exact congrArg some (Option.some.inj hrec).symm
    obtain ⟨hcar, hlimit, rs, hraised⟩ := hfound car hc'
    have hrs : rs₁ = rs ++ [.carState car.number .parked .onField .bayLost] :=
      List.append_cancel_left (hrs₁.symm.trans hraised)
    refine ⟨(hcarsOf car.number).trans ?_, ?_, ?_⟩
    · rw [hcar, Yard.car?, hf]
      rfl
    · dsimp only
      rw [hlimitsOf]
      exact hlimit
    · rw [hrs]
      simp

end lost

end Sys2Proof.Machine
end

section
/-! PROOF. An order record lost: it leaves every list, its take ends, and its car forgets it (R133, R171, R187, R194). -/

namespace Sys2Proof.Machine

/-! ## The row recount (R171) -/

section recount

/-- One entry counted in its row. -/
def countRow (t : Tab Nat) (e : ReadyEntry) : Tab Nat :=
  match e.row with
  | some r => Tab.put 0 t r (Tab.get 0 t r + 1)
  | none => t

theorem get_countRow {t : Tab Nat} (h : Tab.wf 0 t = true) (e : ReadyEntry) (w : Nat) :
    Tab.get 0 (countRow t e) w = Tab.get 0 t w + if e.row = some w then 1 else 0 := by
  unfold countRow
  cases hr : e.row with
  | none => rfl
  | some r =>
    dsimp only
    rw [Tab.get_put h]
    by_cases hw : w = r
    · subst hw
      rw [if_pos rfl, if_pos rfl]
    · rw [if_neg hw, if_neg fun he => hw (Option.some.inj he).symm]
      rfl

theorem wf_countRow {t : Tab Nat} (h : Tab.wf 0 t = true) (e : ReadyEntry) : Tab.wf 0 (countRow t e) = true := by
  unfold countRow
  cases e.row with
  | none => exact h
  | some r => exact Tab.wf_put h _ _

theorem get_foldl_countRow (list : List ReadyEntry) {t : Tab Nat} (h : Tab.wf 0 t = true) (w : Nat) :
    Tab.get 0 (list.foldl countRow t) w = Tab.get 0 t w + list.countP fun e => decide (e.row = some w) := by
  induction list generalizing t with
  | nil => rfl
  | cons e list ih =>
    rw [List.foldl_cons, ih (wf_countRow h e), get_countRow h, List.countP_cons, Nat.add_assoc,
      Nat.add_comm (if e.row = some w then 1 else 0)]
    simp only [decide_eq_true_eq]

end recount

/-! ## The lists and the take -/

section lists
variable {y : Yard} {n : Nat}

/-- A yard with a lost order out of every list, and the row counts afresh where the ready list named it. -/
def Yard.unlisted (y : Yard) (n : Nat) : Yard := { y with
  held := y.held.map fun l => l.filter fun e => e.order != n
  queues := y.queues.map fun q => q.filter fun e => e.order != n
  readyList := y.readyList.filter fun e => e.order != n
  rowCounts := if (y.readyEntry? n).isSome then (y.readyList.filter fun e => e.order != n).foldl countRow []
    else y.rowCounts }

theorem Yard.unlisted_eq (y : Yard) (n : Nat) : (if (((y.unhold n).dequeueOrder n).readyEntry? n).isSome then
    (((y.unhold n).dequeueOrder n).leaveReady n).recount else (y.unhold n).dequeueOrder n) = y.unlisted n := by
  have hentry : ((y.unhold n).dequeueOrder n).readyEntry? n = y.readyEntry? n := rfl
  rw [hentry]
  unfold Yard.unlisted
  cases he : y.readyEntry? n with
  | none =>
    have hsame : y.readyList.filter (fun e => e.order != n) = y.readyList :=
      List.filter_eq_self.2 fun e hmem => by simpa using List.find?_eq_none.1 he e hmem
    rw [hsame]
    rfl
  | some e =>
    rw [Yard.leaveReady_eq]
    rfl

theorem Yard.unlisted_rows_counted (h : ∃ e ∈ y.readyList, e.order = n) (w : Nat) :
    (y.unlisted n).rowCount w = (y.unlisted n).readyList.countP fun e => decide (e.row = some w) := by
  obtain ⟨e, hmem, he⟩ := h
  have hsome : (y.readyEntry? n).isSome = true := List.find?_isSome.2 ⟨e, hmem, by simpa using he⟩
  unfold Yard.rowCount Yard.unlisted
  dsimp only
  rw [if_pos hsome, get_foldl_countRow _ rfl]
  exact Nat.zero_add _

theorem Yard.unlisted_rows_same (h : ∀ e ∈ y.readyList, e.order ≠ n) : (y.unlisted n).rowCounts = y.rowCounts := by
  have hnone : y.readyEntry? n = none := List.find?_eq_none.2 fun e he => by simpa using h e he
  unfold Yard.unlisted
  dsimp only
  rw [hnone]
  rfl

/-- The quarantine of a held order ends its take; of one that no runner holds it changes nothing. -/
theorem Yard.takeLost_leaves (y : Yard) (n : Nat) : ∃ runners rs,
    y.takeLost n = { y with runners := runners, raised := y.raised ++ rs } ∧
    ((∀ q : RunnerId, (y.runners[q]).held ≠ some n) → runners = y.runners) ∧
    (∀ q : RunnerId, (y.runners[q]).held = some n → (∀ k : RunnerId, k ≠ q → (y.runners[k]).held ≠ some n) →
      runners = y.runners.set q { held := none, timer := none, last := some (n, .lost) } ∧ .takeLost q n ∈ rs) ∧
    ∀ r ∈ rs, ∃ q, r = .takeLost q n := by
  unfold Yard.takeLost
  cases hh : y.holder? n with
  | none =>
    have hno (q : RunnerId) : (y.runners[q]).held ≠ some n := by
      simpa using List.find?_eq_none.1 hh q (List.mem_finRange q)
    exact ⟨y.runners, [], by simp, fun _ => rfl, fun q hq => absurd hq (hno q), fun r hr => by cases hr⟩
  | some p =>
    have hp : (y.runners[p]).held = some n := by simpa using List.find?_some hh
    refine ⟨_, [.takeLost p n], rfl, fun hno => absurd hp (hno p), fun q _ honly => ?_, fun r hr => ⟨p, by simpa using hr⟩⟩
    obtain rfl : p = q := by
      by_contra hne
      exact honly p hne hp
    exact ⟨rfl, by simp⟩

end lists

/-! ## A lamp marked and placed -/

section lamps
variable {y : Yard}

/-- A report that an outbound slot was completed UNDELIVERED. -/
def Report.ofSlot (r : Report) : Prop :=
  ∃ lp p kind v0 v1 origin, r = .sendUndelivered lp p kind v0 v1 origin

theorem Yard.putItem_reports (y : Yard) (lp : ScreenId) (it : Item) :
    ∃ rs, (y.putItem lp it).2.raised = y.raised ++ rs ∧ ∀ r ∈ rs, r.ofSlot := by
  cases hf : (y.loops[lp]).freeSlot? with
  | none => exact ⟨[], by rw [Yard.putItem_merged hf]; rfl, fun r hr => by cases hr⟩
  | some i =>
    cases hu : ((y.loops[lp]).post it.post).unreachable with
    | false => exact ⟨[], by rw [Yard.putItem_placed hf hu]; rfl, fun r hr => by cases hr⟩
    | true =>
      refine ⟨_, by rw [Yard.putItem_undelivered hf hu]; rfl, fun r hr => ?_⟩
      exact ⟨_, _, _, _, _, _, List.mem_singleton.1 hr⟩

theorem Yard.lampItem_value (y : Yard) (lp : ScreenId) (p : Nat) (side1 : Bool) :
    (y.lampItem lp p).value side1 = if y.lampMarked (postBay lp p (if side1 then 1 else 0)) then
      some (y.restingValue (postBay lp p (if side1 then 1 else 0))) else none := by
  cases side1 <;> rfl

/-- A bay's lamp marked and placed with its post: it is on its way, or still marked. -/
theorem Yard.markLamp_leaves (h : y.intact) (hw : Tab.wf false y.lampMarks = true) (settle : Yard → Yard) (bay : Nat) :
    ∃ z rs, y.markLamp settle bay = z ∧ y.signals z ∧ z.raised = y.raised ++ rs ∧ (∀ r ∈ rs, r.ofSlot) ∧
      (bay ≤ 1023 → z.lampMarked bay = true ∨ ∃ v, z.sends .lamps bay v) := by
  have hsig := Yard.signals.markLamp h settle bay
  have hmark := (Yard.signals.setLampMark y bay true).intact h
  have hbit : (y.setLampMark bay true).lampMarked bay = true := Tab.get_put_of_ne y.lampMarks bay (by decide)
  have hwf : Tab.wf false (y.setLampMark bay true).lampMarks = true := Tab.wf_put hw bay true
  have hraised : (y.setLampMark bay true).raised = y.raised := rfl
  unfold Yard.markLamp at *
  generalize y.setLampMark bay true = u at *
  by_cases hm : u.lampMarked (postBay (bayLoop bay) (bayPost bay) 0) = true ∨
      u.lampMarked (postBay (bayLoop bay) (bayPost bay) 1) = true
  · have hplace := Yard.placeLampsAt_marked hmark.readable settle (bayLoop bay) (bayPost bay) hm
    obtain ⟨rs, hrs, hof⟩ := u.putItem_reports (bayLoop bay) (u.lampItem (bayLoop bay) (bayPost bay))
    refine ⟨_, rs, rfl, hsig, ?_, hof, fun hbay => ?_⟩
    · rw [hplace, ← hraised]
      exact hrs
    · have hat := eq_postBay hbay
      have hv : (u.lampItem (bayLoop bay) (bayPost bay)).value (baySide1 bay) = some (u.restingValue bay) := by
        rw [Yard.lampItem_value, ← hat, hbit]
        rfl
      rw [hplace]
      rcases Yard.putItem_carries (y := u) (lp := bayLoop bay) hv with ⟨-, hc⟩ | ⟨hno, -⟩
      · exact .inr ⟨_, (Yard.sends_congr (by rfl)).2 (Yard.sends_iff.2 hc)⟩
      · refine .inl ((get_clearMarks hwf _ _ _ _ bay).trans ?_)
        have hbit : Tab.get false u.lampMarks bay = true := hbit
        rw [hbit, Bool.true_and]
        cases hside : baySide1 bay with
        | false =>
          rw [hside] at hno hat
          have hno : (u.putItem (bayLoop bay) (u.lampItem (bayLoop bay) (bayPost bay))).1.1 = false := hno
          have hne : bay ≠ postBay (bayLoop bay) (bayPost bay) 1 := by
            intro heq
            have : postBay (bayLoop bay) (bayPost bay) 0 = postBay (bayLoop bay) (bayPost bay) 1 := hat.symm.trans heq
            unfold postBay at this
            omega
          rw [hno, beq_false_of_ne hne]
          simp
        | true =>
          rw [hside] at hno hat
          have hno : (u.putItem (bayLoop bay) (u.lampItem (bayLoop bay) (bayPost bay))).1.2 = false := hno
          have hne : bay ≠ postBay (bayLoop bay) (bayPost bay) 0 := by
            intro heq
            have : postBay (bayLoop bay) (bayPost bay) 1 = postBay (bayLoop bay) (bayPost bay) 0 := hat.symm.trans heq
            unfold postBay at this
            omega
          rw [hno, beq_false_of_ne hne]
          simp
  · rw [not_or] at hm
    have hplace := Yard.placeLampsAt_unmarked hmark.readable settle (bayLoop bay) (bayPost bay)
      (Bool.eq_false_iff.2 hm.1) (Bool.eq_false_iff.2 hm.2)
    refine ⟨_, [], rfl, hsig, ?_, fun r hr => (by cases hr), fun _ => .inl ?_⟩
    · rw [hplace, hraised, List.append_nil]
    · rw [hplace]
      exact hbit

end lamps

/-! ## The order -/

section lost
variable {y : Yard} {n : Nat}

/-- A lost order forgotten by its car, and the lamp of the car's bay placed. -/
theorem Yard.forget_leaves (h : y.intact) (hw : Tab.wf false y.lampMarks = true) (settle : Yard → Yard) (car : Nat) :
    ∃ z rs, (match y.readCar settle car with
      | (.whole c, y) => match c.parkedBay with
        | some bay => (y.modCar car fun c => { c with orders := c.orders.filter fun k => k != n }).markLamp settle bay
        | none => y.modCar car fun c => { c with orders := c.orders.filter fun k => k != n }
      | (_, y) => y) = z ∧
    (∃ cars, { y with store := { y.store with cars := cars } }.signals z) ∧
    z.raised = y.raised ++ rs ∧ (∀ r ∈ rs, r.ofSlot) ∧
    ∀ c, y.car? car = some c → z.car? car = some { c with orders := c.orders.filter fun k => k != n } ∧
      ∀ b, c.state = .parked → c.bay = some b → b ≤ 1023 → z.lampMarked b = true ∨ ∃ v, z.sends .lamps b v := by
  rw [Yard.readCar_intact h]
  cases hc : y.car? car with
  | none => exact ⟨y, [], rfl, ⟨y.store.cars, Yard.signals.refl y⟩, by simp, fun r hr => (by cases hr), fun c h => by cases h⟩
  | some c =>
    dsimp only [Read.of]
    have hcar := Yard.car?_modCar h (f := fun c => { c with orders := c.orders.filter fun k => k != n }) (fun _ => rfl)
      car car
    rw [hc, Option.map_some, if_pos rfl] at hcar
    have hint := h.modCar car fun c => { c with orders := c.orders.filter fun k => k != n }
    obtain ⟨cars, hcars⟩ := y.modCar_cars car fun c => { c with orders := c.orders.filter fun k => k != n }
    cases hp : c.parkedBay with
    | none =>
      refine ⟨_, [], rfl, ⟨cars, hcars ▸ Yard.signals.refl _⟩, by rw [hcars, List.append_nil], fun r hr => (by cases hr),
        fun c' hc' => ?_⟩
      cases hc'
      refine ⟨hcar, fun b hpark hb => ?_⟩
      rw [Car.parkedBay_eq_some.2 ⟨hpark, hb⟩] at hp
      cases hp
    | some bay =>
      obtain ⟨z, rs, hz, hsig, hraised, hof, hlamp⟩ := Yard.markLamp_leaves hint (by rw [hcars]; exact hw) settle bay
      refine ⟨z, rs, hz, ⟨cars, hcars ▸ hsig⟩, hraised.trans (by rw [hcars]), hof, fun c' hc' => ?_⟩
      cases hc'
      refine ⟨(hsig.car? car).trans hcar, fun b hpark hb hle => ?_⟩
      rw [Car.parkedBay_eq_some.2 ⟨hpark, hb⟩] at hp
      cases hp
      exact hlamp hle

/-- What a lost order leaves. -/
theorem Yard.orderLost_leaves (h : y.intact) (hw : Tab.wf false y.lampMarks = true) (n car : Nat) : ∃ z rs cars,
    y.orderLost n car = z ∧ z.store = { y.store with cars := cars } ∧ z.raised = y.raised ++ rs ∧
    (z.held = y.held.map fun l => l.filter fun e => e.order != n) ∧
    (z.queues = y.queues.map fun q => q.filter fun e => e.order != n) ∧
    z.readyList = (y.readyList.filter fun e => e.order != n) ∧
    ((∃ e ∈ y.readyList, e.order = n) → ∀ w, z.rowCount w = z.readyList.countP fun e => decide (e.row = some w)) ∧
    ((∀ e ∈ y.readyList, e.order ≠ n) → z.rowCounts = y.rowCounts) ∧
    ((∀ q : RunnerId, (y.runners[q]).held ≠ some n) → z.runners = y.runners) ∧
    (∀ q : RunnerId, (y.runners[q]).held = some n → (∀ k : RunnerId, k ≠ q → (y.runners[k]).held ≠ some n) →
      z.runners = y.runners.set q { held := none, timer := none, last := some (n, .lost) } ∧ .takeLost q n ∈ rs) ∧
    (∀ r ∈ rs, r.ofSlot ∨ ∃ q, r = .takeLost q n) ∧
    ∀ c, y.car? car = some c → z.car? car = some { c with orders := c.orders.filter fun k => k != n } ∧
      ∀ b, c.state = .parked → c.bay = some b → b ≤ 1023 → z.lampMarked b = true ∨ ∃ v, z.sends .lamps b v := by
  obtain ⟨runners, rs, htake, hfree, hheld, hnews⟩ := (y.unlisted n).takeLost_leaves n
  have hcount := Yard.unlisted_rows_counted (y := y) (n := n)
  have hsame := Yard.unlisted_rows_same (y := y) (n := n)
  have hint : ((y.unlisted n).takeLost n).intact := h.congr (by rw [htake]; rfl)
  obtain ⟨z, rs', hz, ⟨cars, hsig⟩, hraised, hof, hcar⟩ :=
    Yard.forget_leaves (n := n) hint (by rw [htake]; exact hw) id car
  have he : y.orderLost n car = z := by
    unfold Yard.orderLost
    dsimp only
    rw [Yard.unlisted_eq]
    exact hz
  rw [htake] at hsig hraised hcar
  have hrows : z.rowCounts = (y.unlisted n).rowCounts := by
    obtain ⟨_, _, _, _, hz'⟩ := hsig
    rw [hz']
  have hready : z.readyList = (y.unlisted n).readyList := by
    obtain ⟨_, _, _, _, hz'⟩ := hsig
    rw [hz']
  have hrun : z.runners = runners := by
    obtain ⟨_, _, _, _, hz'⟩ := hsig
    rw [hz']
  refine ⟨z, rs ++ rs', cars, he, hsig.store, ?_, ?_, ?_, hready, fun hin w => ?_, fun hno => hrows.trans (hsame hno),
    fun hno => hrun.trans (hfree hno), fun q hq honly => ?_, fun r hr => ?_, hcar⟩
  · rw [hraised, ← List.append_assoc]
    rfl
  · obtain ⟨_, _, _, _, hz'⟩ := hsig
    rw [hz']
    rfl
  · obtain ⟨_, _, _, _, hz'⟩ := hsig
    rw [hz']
    rfl
  · rw [hready, ← hcount hin w]
    unfold Yard.rowCount
    rw [hrows]
  · obtain ⟨hr, hm⟩ := hheld q hq honly
    exact ⟨hrun.trans hr, List.mem_append_left _ hm⟩
  · rcases List.mem_append.1 hr with hr | hr
    · exact .inr (hnews r hr)
    · exact .inl (hof r hr)

end lost

end Sys2Proof.Machine
end

section
/-! PROOF. The Record Store's obligation: its test, its faults, and what the owners of lost records do (R133, R187, R191 to
R199). -/

namespace Sys2Proof.Machine

/-! ## The commands that meet a damaged record -/

section commands
variable {s : State} {tag n m kind : Nat} {r : RunnerId} {c : Instr} {z : Yard}

/-- The commands that read a car by its number: a query, and a runner's DELIVERED or RETURN. -/
theorem exec_carFault (hs : s.ready) (hread : s.yard.readCar Yard.drain n = (.fault, z))
    (hgood : ∀ i, (s.yard.orderSlot i).good) (hcan : s.yard.store.canonical = true)
    (hc : c = .carQuery tag n ∧ kind = 0x20 ∨ s.link.part = .run ∧ (c = .delivered tag r.val m ∧ kind = 0x31 ∨
      c = .returnOrder tag r.val m ∧ kind = 0x32) ∧ 1 ≤ m ∧ m ≤ 9999 ∧ (s.yard.runners[r]).held = some m ∧
      ∃ o, s.yard.order? m = some o ∧ o.car = n ∧ o.carGone = false) : exec c s =
        .next (({ s with yard := { z with raised := [] } } : State).answered kind tag (Reply.refuse .storeError) z.raised) := by
  rcases hc with ⟨rfl, rfl⟩ | ⟨hrun, hc, h1, h2, hheld, o, ho, rfl, -⟩
  · refine request_yard hs (body := carQueryBody n) ?_
    unfold carQueryBody
    rw [hread]
  · have horder : s.yard.readOrder Yard.drain m = (.whole o, s.yard) := by
      unfold Yard.order? at ho
      unfold Yard.readOrder
      cases hf : s.yard.findOrder m with
      | none => rw [hf] at ho; cases ho
      | some e =>
        obtain ⟨i, o'⟩ := e
        rw [hf] at ho
        cases ho
        dsimp only
        rw [Yard.readOrderSlot_readable Yard.drain (hgood i).readable, (Yard.findOrder_slot hcan hf).1]
        rfl
    have hheldRead : s.yard.readHeld m = (.carFault o, z) := by
      unfold Yard.readHeld
      rw [horder]
      dsimp only
      rw [hread]
    rcases hc with ⟨rfl, rfl⟩ | ⟨rfl, rfl⟩
    · refine exec_settle (held := deliverHeld) hs hrun h1 h2 ?_
      rw [settleBody_held hheld, deliverHeld, hheldRead]
      rfl
    · refine exec_settle (held := returnHeld) hs hrun h1 h2 ?_
      rw [settleBody_held hheld, returnHeld, hheldRead]
      rfl

theorem exec_bayFault (hs : s.ready) (hn : n ≤ 1023) (hread : s.yard.readBay Yard.drain n = (.fault, z)) :
    exec (.bayQuery tag n) s =
      .next (({ s with yard := { z with raised := [] } } : State).answered 0x21 tag (Reply.refuse .storeError) z.raised) := by
  refine request_yard hs ?_
  rw [inRange_ok (decide_eq_true hn)]
  unfold bayQueryBody
  rw [hread]

/-- The commands that read an order by its number: a query, FORCE CANCEL, and a runner's DELIVERED or RETURN. -/
theorem exec_orderFault (hs : s.ready) (hread : s.yard.readOrder Yard.drain n = (.fault, z))
    (hc : c = .orderQuery tag n ∧ kind = 0x2A ∨ s.link.part = .run ∧ (c = .forceCancel tag n ∧ kind = 0x28 ∨
      1 ≤ n ∧ n ≤ 9999 ∧ (s.yard.runners[r]).held = some n ∧
        (c = .delivered tag r.val n ∧ kind = 0x31 ∨ c = .returnOrder tag r.val n ∧ kind = 0x32))) : exec c s =
      .next (({ s with yard := { z with raised := [] } } : State).answered kind tag (Reply.refuse .storeError) z.raised) := by
  have hheldRead : s.yard.readHeld n = (.orderFault, z) := by
    unfold Yard.readHeld
    rw [hread]
  rcases hc with ⟨rfl, rfl⟩ | ⟨hrun, ⟨rfl, rfl⟩ | ⟨h1, h2, hheld, ⟨rfl, rfl⟩ | ⟨rfl, rfl⟩⟩⟩
  · refine request_yard hs (body := orderQueryBody n) ?_
    unfold orderQueryBody
    rw [hread]
    rfl
  · refine request_yard hs ?_
    rw [inRun_run _ _ hrun]
    unfold forceCancelBody
    rw [hread]
    rfl
  · refine exec_settle (held := deliverHeld) hs hrun h1 h2 ?_
    rw [settleBody_held hheld, deliverHeld, hheldRead]
    rfl
  · refine exec_settle (held := returnHeld) hs hrun h1 h2 ?_
    rw [settleBody_held hheld, returnHeld, hheldRead]
    rfl

theorem exec_itemFault (hs : s.ready) (hn : n ≤ 63) (hread : s.yard.readItem Yard.drain n = (.fault, z)) :
    exec (.menuQuery tag n) s =
      .next (({ s with yard := { z with raised := [] } } : State).answered 0x29 tag (Reply.refuse .storeError) z.raised) := by
  refine request_yard hs ?_
  rw [inRange_ok (decide_eq_true hn)]
  unfold menuQueryBody
  rw [hread]
  rfl

end commands

/-! ## The yard as each fault leaves it -/

/-- A slot of a list of records missed by a count. -/
theorem countP_without_slot {ρ : Type} {l : List (Nat × ρ)} (hl : l.Pairwise fun a b => a.1 < b.1) {i : Nat} {r : ρ}
    (hm : (i, r) ∈ l) {p : Nat × ρ → Bool} (hp : p (i, r) = true) :
    (l.filter fun e => e.1 != i).countP p + 1 = l.countP p := by
  induction l with
  | nil => cases hm
  | cons e l ih =>
    obtain ⟨hlow, hl⟩ := List.pairwise_cons.1 hl
    rcases List.mem_cons.1 hm with rfl | hm
    · have hrest : l.filter (fun e => e.1 != i) = l :=
        List.filter_eq_self.2 fun e he => by simpa using (hlow e he).ne'
      rw [List.filter_cons_of_neg (by simp), hrest, List.countP_cons_of_pos hp]
    · have hne : (e.1 != i) = true := by simpa using (hlow _ hm).ne
      rw [List.filter_cons_of_pos (p := fun e : Nat × ρ => e.1 != i) hne, List.countP_cons, List.countP_cons, ← ih hl hm]
      omega

section faults
variable {y : Yard} {n i : Nat} {h : Halves}

/-- A damaged car record met at a read. -/
theorem Yard.readCar_lost (hcan : y.store.canonical = true) (hlim : Tab.wf none y.limits = true)
    (hspk : Tab.wf false y.spkMarks = true) (hw : y.store.waiting = []) {sl : Slot Car} {car : Car}
    (hf : y.findCar n = some (i, car)) (hsl : y.carSlot i = sl) (hd : sl.damaged h)
    (hsound : ({ y.store with cars := Tab.put Slot.blank y.store.cars i { sl with state := .quarantined } } : Store).sound
      = true) : ∃ z raw reports, y.readCar Yard.drain n = (.fault, z) ∧
      z.raised = y.raised ++ .storeFault .car i { number := n, car := none } h raw :: reports ∧
      z.carSlot i = { sl with state := .quarantined } ∧ z.store.hasLatched y.store .car i h ∧
      Tab.get none z.limits n = none ∧ z.admittedCount = y.admittedCount ∧ z.store.orders = y.store.orders ∧
      z.runners = y.runners ∧ .departed n none none .store ∈ reports ∧
      (∀ b br, y.bay? b = some br → br.occupant ≠ some n → z.bay? b = some br) ∧
      ∀ b br, y.bay? b = some br → br.occupant = some n →
        z.bay? b = some Bay.empty ∧ (br.speaker = true → z.speaks b 0) ∧ z.shows .lamps b 0 ∧ z.unrowed n := by
  subst hsl
  obtain ⟨hc, hb, ho, hm, ht⟩ := (Store.canonical_iff _).1 hcan
  have hint : ((y.setCarSlot i (y.carSlot i).quarantine).faulted .car i ⟨n, none⟩ h).intact :=
    ⟨(Store.canonical_iff _).2 ⟨Tab.wf_put hc i _, hb, ho, hm, ht⟩, hsound⟩
  obtain ⟨z, rs, hz, hwork, hcars, hlimit, hraised, hgone, hbays, hout⟩ := Yard.carLost_leaves hint hlim hspk n
  obtain ⟨_, _, _, _, _, _, _, _, _, rfl⟩ := hwork
  refine ⟨_, Config.rawHalves y.freeIndex, rs, Yard.readCar_fault hw hcan hf hd hz hw, ?_, ?_, ⟨rfl, rfl, hw, rfl⟩, hlimit,
    rfl, rfl, rfl, hgone, hbays, hout⟩
  · rw [hraised]
    exact List.append_assoc ..
  · exact (congrArg (fun t => Tab.get Slot.blank t i) hcars).trans (Tab.get_put_self hc i _)

/-- A damaged bay record met at a read. -/
theorem Yard.readBay_lost (hcan : y.store.canonical = true) (hlim : Tab.wf none y.limits = true)
    (hspk : Tab.wf false y.spkMarks = true) (hw : y.store.waiting = []) {sl : Slot Bay} {br : Bay} {sc : ScreenId}
    (hi : i ≤ 1023) (hsc : sc = bayLoop i) (hsl : y.baySlot i = sl) (hr : sl.state = .inUse br) (hd : sl.damaged h)
    (hsound : ({ y.store with bays := Tab.put Slot.blank y.store.bays i { sl with state := .quarantined } } : Store).sound
      = true) : ∃ z raw reports, y.readBay Yard.drain i = (.fault, z) ∧
      z.raised = y.raised ++ .storeFault .bay i { number := i, car := none } h raw :: reports ∧
      z.baySlot i = { sl with state := .quarantined } ∧ z.store.hasLatched y.store .bay i h ∧
      z.admittedCount = y.admittedCount ∧ z.openBays sc + 1 = y.openBays sc ∧
      z.capacity = y.capacity.set sc (min y.capacity[sc] (max (z.openBays sc) y.admittedCount[sc])) ∧
      (z.capacity[sc] < y.capacity[sc] → .capacityChanged sc y.capacity[sc] z.capacity[sc] ∈ reports) ∧ z.speaks i 0 ∧
      ((∀ e ∈ inUse y.store.cars, e.2.bay ≠ some i) → z.store.cars = y.store.cars) ∧
      ∀ j car, y.findCar car.number = some (j, car) → car.bay = some i →
        (∀ e ∈ inUse y.store.cars, e.2.bay = some i → e.1 = j) →
        z.car? car.number = some { car with bay := none, state := .onField } ∧
        Tab.get none z.limits car.number = loadMinutes y.checkinSetting ∧
        .carState car.number .parked .onField .bayLost ∈ reports := by
  subst hsl
  obtain ⟨hc, hb, ho, hm, ht⟩ := (Store.canonical_iff _).1 hcan
  have hrec : (y.baySlot i).record? = some br := by
    unfold Slot.record?
    rw [hr]
  have hslot := Tab.get_put_self hb i (y.baySlot i).quarantine
  have hint : ((y.setBaySlot i (y.baySlot i).quarantine).faulted .bay i ⟨i, none⟩ h).intact :=
    ⟨(Store.canonical_iff _).2 ⟨hc, Tab.wf_put hb i _, ho, hm, ht⟩, hsound⟩
  have hclosed : ((y.setBaySlot i (y.baySlot i).quarantine).faulted .bay i ⟨i, none⟩ h).bay? i = none :=
    congrArg Slot.record? hslot
  have hopen : ((y.setBaySlot i (y.baySlot i).quarantine).faulted .bay i ⟨i, none⟩ h).openBays sc + 1 = y.openBays sc := by
    have hin : i / 256 = sc.val := by
      rw [hsc]
      unfold bayLoop
      dsimp only
      omega
    have hfree : inUse (Tab.put Slot.blank y.store.bays i (y.baySlot i).quarantine) =
        (inUse y.store.bays).filter fun e => e.1 != i := inUse_put_free hb rfl
    have hmem : (i, br) ∈ inUse y.store.bays := mem_inUse_of_get hrec
    change (inUse (Tab.put Slot.blank y.store.bays i (y.baySlot i).quarantine)).countP _ + 1 = (inUse y.store.bays).countP _
    rw [hfree]
    exact countP_without_slot (inUse_sorted hb).1 hmem (beq_iff_eq.2 hin)
  obtain ⟨z, rs, cars, hz, hstore, hadm, hcap, hraised, hchange, hspeaks, hno, hcar⟩ :=
    Yard.bayLost_leaves hint hlim hspk hclosed hsc
  have hzopen : z.openBays sc = ((y.setBaySlot i (y.baySlot i).quarantine).faulted .bay i ⟨i, none⟩ h).openBays sc :=
    Yard.openBays_congr (by rw [hstore]) sc
  have hzwait : z.store.waiting = [] := by
    rw [hstore]
    exact hw
  refine ⟨z, Config.rawHalves y.freeIndex, rs, Yard.readBay_fault hw hrec hd hz hzwait, ?_, ?_, ?_, hadm,
    hzopen ▸ hopen, hzopen ▸ hcap, hchange, hspeaks, fun hnone => ?_, hcar⟩
  · rw [hraised]
    exact List.append_assoc ..
  · unfold Yard.baySlot
    rw [hstore]
    exact hslot
  · rw [hstore]
    exact ⟨rfl, rfl, hw, rfl⟩
  · rw [hstore]
    exact hno hnone

/-- A damaged order record met at a read. -/
theorem Yard.readOrder_lost (hcan : y.store.canonical = true) (hlamp : Tab.wf false y.lampMarks = true)
    (hw : y.store.waiting = []) {sl : Slot Order} {o : Order} (hf : y.findOrder n = some (i, o)) (hsl : y.orderSlot i = sl)
    (hd : sl.damaged h)
    (hsound : ({ y.store with orders := Tab.put Slot.blank y.store.orders i { sl with state := .quarantined } } :
      Store).sound = true) : ∃ z raw reports, y.readOrder Yard.drain n = (.fault, z) ∧
      z.raised = y.raised ++ .storeFault .order i { number := n, car := some o.car } h raw :: reports ∧
      z.orderSlot i = { sl with state := .quarantined } ∧ z.store.hasLatched y.store .order i h ∧
      z.store.menu = y.store.menu ∧
      (z.held = y.held.map fun l => l.filter fun e => e.order != n) ∧
      (z.queues = y.queues.map fun q => q.filter fun e => e.order != n) ∧
      z.readyList = (y.readyList.filter fun e => e.order != n) ∧
      ((∃ e ∈ y.readyList, e.order = n) → ∀ w, z.rowCount w = z.readyList.countP fun e => decide (e.row = some w)) ∧
      ((∀ e ∈ y.readyList, e.order ≠ n) → z.rowCounts = y.rowCounts) ∧
      ((∀ q : RunnerId, (y.runners[q]).held ≠ some n) → z.runners = y.runners) ∧
      (∀ q : RunnerId, (y.runners[q]).held = some n → (∀ k : RunnerId, k ≠ q → (y.runners[k]).held ≠ some n) →
        z.runners = y.runners.set q { held := none, timer := none, last := some (n, .lost) } ∧ .takeLost q n ∈ reports) ∧
      (∀ r ∈ reports, r.ofSlot ∨ ∃ q, r = .takeLost q n) ∧
      ∀ c, y.car? o.car = some c → z.car? o.car = some { c with orders := c.orders.filter fun k => k != n } ∧
        ∀ b, c.state = .parked → c.bay = some b → b ≤ 1023 → z.lampMarked b = true ∨ ∃ v, z.sends .lamps b v := by
  subst hsl
  obtain ⟨hc, hb, ho, hm, ht⟩ := (Store.canonical_iff _).1 hcan
  have hint : ((y.setOrderSlot i (y.orderSlot i).quarantine).faulted .order i ⟨n, some o.car⟩ h).intact :=
    ⟨(Store.canonical_iff _).2 ⟨hc, hb, Tab.wf_put ho i _, hm, ht⟩, hsound⟩
  obtain ⟨z, rs, cars, hz, hstore, hraised, hrest⟩ := Yard.orderLost_leaves hint hlamp n o.car
  have hzwait : z.store.waiting = [] := by
    rw [hstore]
    exact hw
  refine ⟨z, Config.rawHalves y.freeIndex, rs, Yard.readOrder_fault hw hcan hf hd hz hzwait, ?_, ?_, ?_, ?_, hrest⟩
  · rw [hraised]
    exact List.append_assoc ..
  · unfold Yard.orderSlot
    rw [hstore]
    exact Tab.get_put_self ho i _
  · rw [hstore]
    exact ⟨rfl, rfl, hw, rfl⟩
  · rw [hstore]
    rfl

end faults

theorem Yard.speaks.sent {y : Yard} {b v : Nat} (h : y.speaks b v) : y.spkMarked b = true ∨ y.sends .speakers b v :=
  h.imp_right And.right

/-- Settles O54: the slot test visit by visit, its requests, and one parity fault in each table with its owner's
handling. -/
theorem storeTestsAndFaults : Obligations.StoreTestsAndFaults := by
  unfold Obligations.StoreTestsAndFaults
  refine ⟨visitLaw_of (fun _ _ => rfl) (fun _ _ _ => rfl), visitLaw_of (fun _ _ => rfl) (fun _ _ _ => rfl),
    visitLaw_of (fun _ _ => rfl) (fun _ _ _ => rfl), visitLaw_of (fun _ _ => rfl) (fun _ _ _ => rfl),
    visitLaw_of (fun _ _ => rfl) (fun _ _ _ => rfl), fun s tag => ⟨fun hs hno => ?_,
    fun hs tb => ⟨fun hbusy => ?_, ?_, fun hno htb => ?_⟩, fun hs => ?_, ?_, ?_⟩⟩
  · refine event_yard_same (f := fun _ => Yard.testVisit) hs ?_
    unfold Yard.testVisit
    rw [hno]
  · exact exec_storeTest hs tb (storeTestBody_busy tb hbusy) hs.1
  · rintro hno rfl hrun
    exact exec_storeTest hs .menu (storeTestBody_state hno hrun) hs.1
  · exact exec_storeTest hs tb (storeTestBody_starts hno htb) hs.1
  · exact request_answers_quietly _ tag _ s _ _ hs.2 rfl hs.1
  · intro hs hw i sl m h hi hsl hstate hbad hh
    subst hsl
    have hrec : (s.yard.menuSlot i).record? = some m := by
      unfold Slot.record?
      rw [hstate]
    have hread := Yard.readItem_fault hw hrec ⟨hbad, hh⟩
    refine ⟨Config.rawHalves s.yard.freeIndex, (exec_itemFault hs hi hread).trans ?_⟩
    have hraised : s.yard.raised = [] := hs.1
    have hfault : ((s.yard.setMenuSlot i (s.yard.menuSlot i).quarantine).faulted .menu i ⟨i, none⟩ h).raised =
        [.storeFault .menu i { number := i, car := none } h (Config.rawHalves s.yard.freeIndex)] := by
      change s.yard.raised ++ _ = _
      rw [hraised]
      rfl
    rw [hfault]
    dsimp only [Yard.faulted, Yard.setMenuSlot]
    rw [← hraised]
    rfl
  · intro hs hcan hw n m i h r c kind refusedWith hrefused
    obtain ⟨-, hstore, hlim, hspk, -, hlamp⟩ := ((State.canonical_iff s).1 hcan).2
    have hraised : s.yard.raised = [] := hs.1
    refine ⟨fun sl car hf hsl hd hsound hc => ?_, fun sl br sc hi hsc hsl hstate hd hsound hc hkind => ?_,
      fun sl o hf hsl hd hsound hc => ?_⟩
    · obtain ⟨z, raw, rs, hread, hrs, hslot, hlatch, hlimit, hadm, horders, hrun, hgone, hbays, hout⟩ :=
        Yard.readCar_lost hstore hlim hspk hw hf hsl hd hsound
      have hgood (j : Nat) : (s.yard.orderSlot j).good := recordsSound_get ((Store.sound_iff _).1 hsound).2.2.1 j
      have hexec := exec_carFault hs hread hgood hstore hc
      rw [hraised, List.nil_append] at hrs
      refine ⟨_, raw, rs, (hrefused _ _ _).2 ⟨hexec, congrArg (Link.after _) hrs⟩, hslot, hlatch, hlimit, hadm, horders,
        hrun, hgone, hbays, fun b br _ hb ho => ?_⟩
      obtain ⟨hempty, hspeak, hshow, hrows⟩ := hout b br hb ho
      exact ⟨hempty, fun hon => (hspeak hon).sent, hshow, hrows⟩
    · subst hc hkind
      obtain ⟨z, raw, rs, hread, hrs, hslot, hlatch, hadm, hopen, hcap, hchange, hspeaks, hno, hcar⟩ :=
        Yard.readBay_lost hstore hlim hspk hw hi hsc hsl hstate hd hsound
      rw [hraised, List.nil_append] at hrs
      refine ⟨_, raw, rs, (hrefused _ _ _).2 ⟨exec_bayFault hs hi hread, congrArg (Link.after _) hrs⟩, hslot, hlatch, hadm,
        hopen, hcap, hchange, hspeaks.sent, hno, fun j car hf _ hb honly => hcar j car hf hb honly⟩
    · obtain ⟨z, raw, rs, hread, hrs, hslot, hlatch, hmenu, hheld, hqueues, hready, hcount, hsame, hfree, htaken, hnews,
        hcar⟩ := Yard.readOrder_lost hstore hlamp hw hf hsl hd hsound
      rw [hraised, List.nil_append] at hrs
      refine ⟨_, raw, rs, (hrefused _ _ _).2 ⟨exec_orderFault hs hread hc, congrArg (Link.after _) hrs⟩, hslot, hlatch, hmenu,
        fun sc => ?_, fun st => ?_, hready, hcount, hsame, hfree, htaken, fun q hq => ?_, hcar⟩
      · exact (congrArg (fun v : Vector _ 4 => v[sc]) hheld).trans (Vector.getElem_map ..)
      · exact (congrArg (fun v : Vector _ 6 => v[st]) hqueues).trans (Vector.getElem_map ..)
      · rcases hnews q hq with ⟨_, _, _, _, _, _, rfl⟩ | ⟨_, rfl⟩
        · exact fun _ _ => ⟨fun _ => nofun, fun _ _ _ => nofun⟩
        · exact fun _ _ => ⟨fun _ => nofun, fun _ _ _ => nofun⟩

end Sys2Proof.Machine
end

section
/-! PROOF. What the field and the kitchen do of a loop leaves its ownership, its transaction and its lend setting, and asks
for none of them (R73, R84): every operation short of the Loop Poller's own commutes with writing these anew. -/

namespace Sys2Proof.Machine

/-! ## The fields of lending -/

/-- The fields of a loop's record that only the Loop Poller's lending and its transactions read or write. -/
structure LoanFields where
  owner : Ownership
  request : Bool
  grant : Bool
  lendTimer : Option Nat
  current : Option Transaction
  lendSetting : Nat

/-- The fields of lending of a loop. -/
def LoopRec.loan (l : LoopRec) : LoanFields where
  owner := l.owner
  request := l.request
  grant := l.grant
  lendTimer := l.lendTimer
  current := l.current
  lendSetting := l.lendSetting

/-- A loop with the fields of lending written anew. -/
def LoopRec.reloan (l : LoopRec) (b : LoanFields) : LoopRec :=
  { l with owner := b.owner, request := b.request, grant := b.grant, lendTimer := b.lendTimer, current := b.current,
           lendSetting := b.lendSetting }

/-- The fields of lending of every loop. -/
def Yard.loans (y : Yard) (k : ScreenId) : LoanFields := (y.loops[k]).loan

/-- A yard with the fields of lending of every loop written anew. -/
def Yard.reloan (y : Yard) (f : ScreenId → LoanFields) : Yard :=
  { y with loops := Vector.ofFn fun k => (y.loops[k]).reloan (f k) }

section basics
variable (y : Yard) (f : ScreenId → LoanFields)

@[simp] theorem Yard.reloan_loop (k : ScreenId) : (y.reloan f).loops[k] = (y.loops[k]).reloan (f k) := by
  simp [Yard.reloan]

theorem Yard.loans_reloan : (y.reloan f).loans = f := by
  funext k
  unfold Yard.loans
  rw [Yard.reloan_loop]
  rfl

theorem Yard.reloan_loans : y.reloan y.loans = y := by
  have hloops : (Vector.ofFn fun k => (y.loops[k]).reloan (y.loans k)) = y.loops :=
    Vector.ext fun k hk => by simp [LoopRec.reloan, Yard.loans, LoopRec.loan]
  unfold Yard.reloan
  rw [hloops]

/-- An operation that commutes with writing the fields of lending leaves them. -/
theorem Yard.loans_of_commutes {F : Yard → Yard} (h : ∀ y f, F (Yard.reloan y f) = (F y).reloan f) :
    (F y).loans = y.loans := by
  have hy := h y y.loans
  rw [Yard.reloan_loans] at hy
  rw [hy, Yard.loans_reloan]

@[simp] theorem Yard.reloan_store : (y.reloan f).store = y.store := rfl
@[simp] theorem Yard.reloan_raised : (y.reloan f).raised = y.raised := rfl

theorem Yard.reloan_modLoop {g g' : LoopRec → LoopRec} {lp : ScreenId}
    (hg : g ((y.loops[lp]).reloan (f lp)) = (g' y.loops[lp]).reloan (f lp)) :
    (y.reloan f).modLoop lp g = (y.modLoop lp g').reloan f := by
  have hloops : (y.reloan f).loops.set lp (g (y.reloan f).loops[lp]) =
      Vector.ofFn fun k => ((y.loops.set lp (g' y.loops[lp]))[k]).reloan (f k) := by
    rw [Yard.reloan_loop, hg]
    refine Vector.ext fun k hk => ?_
    rw [Vector.getElem_ofFn, Vector.getElem_set]
    by_cases h : lp.val = k
    · subst h
      simp
    · rw [if_neg h, Fin.getElem_fin, Vector.getElem_set_ne _ _ h]
      simp [Yard.reloan]
  unfold Yard.modLoop
  rw [hloops]
  rfl

/-- A fold commutes where each of its steps does. -/
theorem Yard.reloan_foldl {α : Type} {F : Yard → α → Yard} (hF : ∀ y f a, F (Yard.reloan y f) a = (F y a).reloan f)
    (as : List α) : as.foldl F (y.reloan f) = (as.foldl F y).reloan f := by
  induction as generalizing y with
  | nil => rfl
  | cons a as ih => rw [List.foldl_cons, List.foldl_cons, hF, ih]

end basics

/-! ## Slots, speakers and lamps -/

section signals
variable (y : Yard) (f : ScreenId → LoanFields)

@[simp] theorem Yard.reloan_raise (r : Report) : (y.reloan f).raise r = (y.raise r).reloan f := rfl
@[simp] theorem Yard.reloan_setSpkMark (b : Nat) (m : Bool) :
    (y.reloan f).setSpkMark b m = (y.setSpkMark b m).reloan f := rfl
@[simp] theorem Yard.reloan_setLampMark (b : Nat) (m : Bool) :
    (y.reloan f).setLampMark b m = (y.setLampMark b m).reloan f := rfl

theorem LoopRec.reloan_mergeSide (l : LoopRec) (b : LoanFields) (it : Item) (side1 : Bool) :
    (l.reloan b).mergeSide it side1 = ((l.mergeSide it side1).1, (l.mergeSide it side1).2.reloan b) := by
  cases hv : it.value side1 with
  | none => rw [LoopRec.mergeSide_unnamed hv, LoopRec.mergeSide_unnamed hv]
  | some v =>
    cases hi : l.mergeTarget it side1 with
    | none => rw [LoopRec.mergeSide_dropped hv (l := l.reloan b) hi, LoopRec.mergeSide_dropped hv hi]; rfl
    | some i => rw [LoopRec.mergeSide_found hv (l := l.reloan b) hi, LoopRec.mergeSide_found hv hi]; rfl

@[simp] theorem Yard.reloan_completeUndelivered (lp : ScreenId) (i : Fin 16) :
    (y.reloan f).completeUndelivered lp i = (y.completeUndelivered lp i).reloan f := by
  unfold Yard.completeUndelivered
  dsimp only
  rw [Yard.reloan_modLoop y f (g' := fun l => { l.setSlot i OutSlot.empty with undelivered := satInc l.undelivered }) rfl,
    Yard.reloan_loop, Yard.reloan_raise]
  rfl

@[simp] theorem Yard.reloan_putItem (lp : ScreenId) (it : Item) :
    (y.reloan f).putItem lp it = ((y.putItem lp it).1, (y.putItem lp it).2.reloan f) := by
  unfold Yard.putItem
  dsimp only
  rw [Yard.reloan_loop]
  have hfree : ((y.loops[lp]).reloan (f lp)).freeSlot? = (y.loops[lp]).freeSlot? := rfl
  have hpost : ((y.loops[lp]).reloan (f lp)).post it.post = (y.loops[lp]).post it.post := rfl
  rw [hfree, hpost]
  cases (y.loops[lp]).freeSlot? with
  | none =>
    dsimp only
    rw [LoopRec.reloan_mergeSide, LoopRec.reloan_mergeSide]
    exact congrArg _ (Yard.reloan_modLoop y f rfl)
  | some i =>
    dsimp only
    rw [Yard.reloan_modLoop y f (g' := fun l => { l.setSlot i (l.newSlot it) with nextAge := l.nextAge + 1 }) rfl]
    cases ((y.loops[lp]).post it.post).unreachable with
    | true => exact congrArg _ (Yard.reloan_completeUndelivered _ f lp i)
    | false => rfl

@[simp] theorem Yard.reloan_placeLamp (o : Origin) (bay v : Nat) :
    (y.reloan f).placeLamp o bay v = ((y.placeLamp o bay v).1, (y.placeLamp o bay v).2.reloan f) := by
  rw [Yard.placeLamp_eq, Yard.placeLamp_eq, Yard.reloan_putItem]

@[simp] theorem Yard.reloan_placePassing (bay v : Nat) :
    (y.reloan f).placePassing bay v = (y.placePassing bay v).reloan f := by
  unfold Yard.placePassing
  rw [Yard.reloan_placeLamp]
  generalize y.placeLamp .oe bay v = p
  obtain ⟨ok, z⟩ := p
  cases ok <;> rfl

@[simp] theorem Yard.reloan_placeRestingNow (bay : Nat) (occ : Option Nat) :
    (y.reloan f).placeRestingNow bay occ = (y.placeRestingNow bay occ).reloan f := by
  have hvalue : (y.reloan f).restingLamp occ = y.restingLamp occ := rfl
  unfold Yard.placeRestingNow
  rw [hvalue, Yard.reloan_placeLamp]
  rfl

theorem Yard.reloan_markBays (bays : List Nat) : (y.reloan f).markBays bays = (y.markBays bays).reloan f :=
  Yard.reloan_foldl y f (fun _ _ _ => rfl) bays

section reads
variable {settle : Yard → Yard} (hs : ∀ (y : Yard) f, settle (y.reloan f) = (settle y).reloan f)
include hs

theorem Yard.reloan_readCarSlot (i : Nat) : (y.reloan f).readCarSlot settle i =
    ((y.readCarSlot settle i).1, (y.readCarSlot settle i).2.reloan f) := by
  have hslot : (y.reloan f).carSlot i = y.carSlot i := rfl
  unfold Yard.readCarSlot
  rw [hslot]
  cases (y.carSlot i).record? with
  | none => rfl
  | some r =>
    cases (y.carSlot i).wrong with
    | none => rfl
    | some h =>
      exact congrArg (Prod.mk Read.fault)
        (hs ((y.setCarSlot i (y.carSlot i).quarantine).parityFault .car i ⟨r.number, none⟩ h) f)

theorem Yard.reloan_readBay (i : Nat) : (y.reloan f).readBay settle i =
    ((y.readBay settle i).1, (y.readBay settle i).2.reloan f) := by
  have hslot : (y.reloan f).baySlot i = y.baySlot i := rfl
  unfold Yard.readBay
  rw [hslot]
  cases (y.baySlot i).record? with
  | none => rfl
  | some r =>
    cases (y.baySlot i).wrong with
    | none => rfl
    | some h =>
      exact congrArg (Prod.mk Read.fault)
        (hs ((y.setBaySlot i (y.baySlot i).quarantine).parityFault .bay i ⟨i, none⟩ h) f)

theorem Yard.reloan_readOrderSlot (i : Nat) : (y.reloan f).readOrderSlot settle i =
    ((y.readOrderSlot settle i).1, (y.readOrderSlot settle i).2.reloan f) := by
  have hslot : (y.reloan f).orderSlot i = y.orderSlot i := rfl
  unfold Yard.readOrderSlot
  rw [hslot]
  cases (y.orderSlot i).record? with
  | none => rfl
  | some r =>
    cases (y.orderSlot i).wrong with
    | none => rfl
    | some h =>
      exact congrArg (Prod.mk Read.fault)
        (hs ((y.setOrderSlot i (y.orderSlot i).quarantine).parityFault .order i ⟨r.number, some r.car⟩ h) f)

theorem Yard.reloan_readItem (i : Nat) : (y.reloan f).readItem settle i =
    ((y.readItem settle i).1, (y.readItem settle i).2.reloan f) := by
  have hslot : (y.reloan f).menuSlot i = y.menuSlot i := rfl
  unfold Yard.readItem
  rw [hslot]
  cases (y.menuSlot i).record? with
  | none => rfl
  | some r =>
    cases (y.menuSlot i).wrong with
    | none => rfl
    | some h =>
      exact congrArg (Prod.mk Read.fault)
        (hs ((y.setMenuSlot i (y.menuSlot i).quarantine).parityFault .menu i ⟨i, none⟩ h) f)

theorem Yard.reloan_readCar (n : Nat) : (y.reloan f).readCar settle n =
    ((y.readCar settle n).1, (y.readCar settle n).2.reloan f) := by
  have hfind : (y.reloan f).findCar n = y.findCar n := rfl
  unfold Yard.readCar
  rw [hfind]
  cases y.findCar n with
  | none => rfl
  | some e => exact Yard.reloan_readCarSlot y f hs e.1

theorem Yard.reloan_readOrder (n : Nat) : (y.reloan f).readOrder settle n =
    ((y.readOrder settle n).1, (y.readOrder settle n).2.reloan f) := by
  have hfind : (y.reloan f).findOrder n = y.findOrder n := rfl
  unfold Yard.readOrder
  rw [hfind]
  cases y.findOrder n with
  | none => rfl
  | some e => exact Yard.reloan_readOrderSlot y f hs e.1

theorem Yard.reloan_searchCars (q : Car → Bool) (is : List Nat) : Yard.searchCars settle q is (y.reloan f) =
    ((Yard.searchCars settle q is y).1, (Yard.searchCars settle q is y).2.1,
      (Yard.searchCars settle q is y).2.2.reloan f) := by
  induction is generalizing y with
  | nil => rfl
  | cons i is ih =>
    rw [Yard.searchCars, Yard.searchCars, Yard.reloan_readCarSlot y f hs]
    generalize y.readCarSlot settle i = p
    obtain ⟨r, z⟩ := p
    cases r with
    | whole c =>
      dsimp only
      split
      · rfl
      · exact ih z
    | absent => exact ih z
    | fault =>
      dsimp only
      rw [ih z]

theorem Yard.reloan_readMarked {marked : Yard → Nat → Bool} (hm : ∀ (y : Yard) f b, marked (y.reloan f) b = marked y b)
    (b : Nat) : (y.reloan f).readMarked marked settle b =
      ((y.readMarked marked settle b).1, (y.readMarked marked settle b).2.reloan f) := by
  unfold Yard.readMarked
  rw [hm]
  cases marked y b with
  | false => rfl
  | true =>
    rw [Yard.reloan_readBay y f hs]
    rfl

theorem Yard.reloan_placeSpeakersAt (lp : ScreenId) (p : Nat) :
    (y.reloan f).placeSpeakersAt settle lp p = (y.placeSpeakersAt settle lp p).reloan f := by
  have hm : ∀ (y : Yard) f b, (y.reloan f).spkMarked b = y.spkMarked b := fun _ _ _ => rfl
  have hv : ∀ (y : Yard) f b, (y.reloan f).speakerValue b = y.speakerValue b := fun _ _ _ => rfl
  unfold Yard.placeSpeakersAt
  dsimp only
  simp only [Yard.reloan_readMarked _ f hs hm, hm, hv, Yard.reloan_putItem]
  generalize (((y.readMarked Yard.spkMarked settle (postBay lp p 0)).2).readMarked Yard.spkMarked settle
    (postBay lp p 1)) = r1
  simp only [Yard.ite_setSpkMark_eq]
  split <;> rfl

theorem Yard.reloan_placeLampsAt (lp : ScreenId) (p : Nat) :
    (y.reloan f).placeLampsAt settle lp p = (y.placeLampsAt settle lp p).reloan f := by
  have hm : ∀ (y : Yard) f b, (y.reloan f).lampMarked b = y.lampMarked b := fun _ _ _ => rfl
  have hv : ∀ (y : Yard) f b, (y.reloan f).restingValue b = y.restingValue b := fun _ _ _ => rfl
  unfold Yard.placeLampsAt
  dsimp only
  simp only [Yard.reloan_readMarked _ f hs hm, hm, hv, Yard.reloan_putItem]
  generalize (((y.readMarked Yard.lampMarked settle (postBay lp p 0)).2).readMarked Yard.lampMarked settle
    (postBay lp p 1)) = r1
  simp only [Yard.ite_setLampMark_eq]
  split <;> rfl

theorem Yard.reloan_placeSpeakersOf (bays : List Nat) :
    (y.reloan f).placeSpeakersOf settle bays = (y.placeSpeakersOf settle bays).reloan f :=
  Yard.reloan_foldl y f (fun y f b => Yard.reloan_placeSpeakersAt y f hs (bayLoop b) (bayPost b)) bays

theorem Yard.reloan_placeAllSpeakers (lp : ScreenId) :
    (y.reloan f).placeAllSpeakers settle lp = (y.placeAllSpeakers settle lp).reloan f :=
  Yard.reloan_foldl y f (fun y f p => Yard.reloan_placeSpeakersAt y f hs lp p) allPosts

theorem Yard.reloan_placeAllLamps (lp : ScreenId) :
    (y.reloan f).placeAllLamps settle lp = (y.placeAllLamps settle lp).reloan f :=
  Yard.reloan_foldl y f (fun y f p => Yard.reloan_placeLampsAt y f hs lp p) allPosts

theorem Yard.reloan_markLamp (bay : Nat) : (y.reloan f).markLamp settle bay = (y.markLamp settle bay).reloan f :=
  Yard.reloan_placeLampsAt (y.setLampMark bay true) f hs (bayLoop bay) (bayPost bay)

theorem Yard.reloan_resendPost (lp : ScreenId) (p : Nat) :
    (y.reloan f).resendPost settle lp p = (y.resendPost settle lp p).reloan f := by
  unfold Yard.resendPost
  rw [Yard.reloan_markBays, Yard.reloan_placeSpeakersAt _ f hs, Yard.reloan_placeLampsAt _ f hs]

theorem Yard.reloan_resendLoop (lp : ScreenId) :
    (y.reloan f).resendLoop settle lp = (y.resendLoop settle lp).reloan f := by
  unfold Yard.resendLoop
  rw [Yard.reloan_markBays, Yard.reloan_placeAllSpeakers _ f hs, Yard.reloan_placeAllLamps _ f hs]

theorem Yard.reloan_resendOverflow (lp : ScreenId) :
    (y.reloan f).resendOverflow settle lp = (y.resendOverflow settle lp).reloan f := by
  unfold Yard.resendOverflow
  rw [Yard.reloan_placeAllSpeakers _ f hs, Yard.reloan_placeAllLamps _ f hs]

theorem Yard.reloan_afterFree (lp : ScreenId) : (y.reloan f).afterFree settle lp = (y.afterFree settle lp).reloan f := by
  have hover : ((y.loops[lp]).reloan (f lp)).overflow = (y.loops[lp]).overflow := rfl
  unfold Yard.afterFree
  rw [Yard.reloan_loop, hover]
  cases (y.loops[lp]).overflow with
  | false => rfl
  | true =>
    rw [Yard.reloan_modLoop y f (g' := fun l => { l with overflow := false }) rfl, if_pos rfl, if_pos rfl,
      Yard.reloan_resendOverflow _ f hs]

end reads

end signals

end Sys2Proof.Machine
end

section
/-! PROOF. The operations of the field and the settlement of lost records commute with writing the fields of lending
(R127, R133, R192 to R194). -/

namespace Sys2Proof.Machine

section field
variable (y : Yard) (f : ScreenId → LoanFields)

/-! ## Records written -/

@[simp] theorem Yard.reloan_modCar (n : Nat) (g : Car → Car) : (y.reloan f).modCar n g = (y.modCar n g).reloan f := by
  have hfind : (y.reloan f).findCar n = y.findCar n := rfl
  unfold Yard.modCar
  rw [hfind]
  cases y.findCar n <;> rfl

@[simp] theorem Yard.reloan_modOrder (n : Nat) (g : Order → Order) :
    (y.reloan f).modOrder n g = (y.modOrder n g).reloan f := by
  have hfind : (y.reloan f).findOrder n = y.findOrder n := rfl
  unfold Yard.modOrder
  rw [hfind]
  cases y.findOrder n <;> rfl

@[simp] theorem Yard.reloan_modBay (b : Nat) (g : Bay → Bay) : (y.reloan f).modBay b g = (y.modBay b g).reloan f := by
  have hbay : (y.reloan f).bay? b = y.bay? b := rfl
  unfold Yard.modBay
  rw [hbay]
  cases y.bay? b <;> rfl

@[simp] theorem Yard.reloan_modItem (i : Nat) (g : MenuItem → MenuItem) :
    (y.reloan f).modItem i g = (y.modItem i g).reloan f := by
  have hitem : (y.reloan f).item? i = y.item? i := rfl
  unfold Yard.modItem
  rw [hitem]
  cases y.item? i <;> rfl

@[simp] theorem Yard.reloan_freeOrder (n : Nat) : (y.reloan f).freeOrder n = (y.freeOrder n).reloan f := by
  have hfind : (y.reloan f).findOrder n = y.findOrder n := rfl
  unfold Yard.freeOrder
  rw [hfind]
  cases y.findOrder n <;> rfl

/-! ## The ready list, the bays and the limits -/

theorem Yard.reloan_rowUp (row : Option Nat) : (y.reloan f).rowUp row = (y.rowUp row).reloan f := by cases row <;> rfl

theorem Yard.reloan_rowDown (row : Option Nat) : (y.reloan f).rowDown row = (y.rowDown row).reloan f := by
  cases row <;> rfl

@[simp] theorem Yard.reloan_leaveReady (n : Nat) : (y.reloan f).leaveReady n = (y.leaveReady n).reloan f := by
  have hentry : (y.reloan f).readyEntry? n = y.readyEntry? n := rfl
  unfold Yard.leaveReady
  rw [hentry]
  cases y.readyEntry? n with
  | none => rfl
  | some e => exact Yard.reloan_rowDown { y with readyList := y.readyList.filter fun e => e.order != n } f e.row

@[simp] theorem Yard.reloan_bindChange (car : Nat) (bay : Option Nat) :
    (y.reloan f).bindChange car bay = ((y.bindChange car bay).1, (y.bindChange car bay).2.reloan f) := by
  unfold Yard.bindChange
  dsimp only
  rw [show (y.reloan f).readyList = y.readyList from rfl,
    Yard.reloan_foldl y f (F := fun (y : Yard) (e : ReadyEntry) => (y.rowDown e.row).rowUp (bay.map bayRow)) fun y f e => by
      rw [Yard.reloan_rowDown, Yard.reloan_rowUp]]
  rfl

@[simp] theorem Yard.reloan_startLimit (n : Nat) : (y.reloan f).startLimit n = (y.startLimit n).reloan f := rfl
@[simp] theorem Yard.reloan_stopLimit (n : Nat) : (y.reloan f).stopLimit n = (y.stopLimit n).reloan f := rfl

@[simp] theorem Yard.reloan_setSpeaker (bay : Nat) (on : Bool) :
    (y.reloan f).setSpeaker bay on = (y.setSpeaker bay on).reloan f := by
  have hbay : (y.reloan f).bay? bay = y.bay? bay := rfl
  unfold Yard.setSpeaker
  rw [hbay]
  cases y.bay? bay with
  | none => rfl
  | some b =>
    dsimp only
    rw [Yard.reloan_modBay]
    split <;> rfl

@[simp] theorem Yard.reloan_release (car bay : Nat) : (y.reloan f).release car bay = (y.release car bay).reloan f := by
  unfold Yard.release
  simp

@[simp] theorem Yard.reloan_unbindToField (car bay : Nat) (cause : CarCause) :
    (y.reloan f).unbindToField car bay cause = (y.unbindToField car bay cause).reloan f := by
  unfold Yard.unbindToField
  simp

@[simp] theorem Yard.reloan_checkCapacity (sc : ScreenId) :
    (y.reloan f).checkCapacity sc = (y.checkCapacity sc).reloan f := by
  rw [Yard.checkCapacity_eq, Yard.checkCapacity_eq]
  rfl

/-! ## Lost records -/

theorem Yard.reloan_emptyLostBay (car bay : Nat) :
    Yard.emptyLostBay car (y.reloan f) bay = (Yard.emptyLostBay car y bay).reloan f := by
  unfold Yard.emptyLostBay
  simp

theorem Yard.reloan_emptyBaysOf (car : Nat) (bs : List Nat) : Yard.emptyBaysOf car bs (y.reloan f) =
    ((Yard.emptyBaysOf car bs y).1, (Yard.emptyBaysOf car bs y).2.reloan f) := by
  induction bs generalizing y with
  | nil => rfl
  | cons b bs ih =>
    unfold Yard.emptyBaysOf
    rw [Yard.reloan_readBay y f fun _ _ => rfl]
    generalize y.readBay id b = p
    obtain ⟨r, z⟩ := p
    cases r with
    | whole br =>
      dsimp only
      split
      · rw [Yard.reloan_emptyLostBay, ih]
      · exact ih z
    | absent => exact ih z
    | fault => exact ih z

theorem Yard.reloan_carLost (n : Nat) : (y.reloan f).carLost n = (y.carLost n).reloan f := by
  unfold Yard.carLost
  rw [Yard.reloan_store, Yard.reloan_emptyBaysOf]
  dsimp only
  rw [Yard.reloan_stopLimit, Yard.reloan_raise, Yard.reloan_placeSpeakersOf _ f fun _ _ => rfl]

theorem Yard.reloan_bayLost (bay : Nat) : (y.reloan f).bayLost bay = (y.bayLost bay).reloan f := by
  have hslots : (y.reloan f).carSlotsInUse = y.carSlotsInUse := rfl
  unfold Yard.bayLost
  rw [hslots, Yard.reloan_searchCars y f fun _ _ => rfl]
  generalize Yard.searchCars id (fun c => decide (c.bay = some bay)) y.carSlotsInUse y = p
  obtain ⟨c, lost, z⟩ := p
  cases c with
  | none =>
    dsimp only
    rw [Yard.reloan_setSpkMark, Yard.reloan_placeSpeakersOf _ f (fun _ _ => rfl), Yard.reloan_checkCapacity]
  | some c =>
    dsimp only
    rw [Yard.reloan_unbindToField, Yard.reloan_setSpkMark, Yard.reloan_placeSpeakersOf _ f (fun _ _ => rfl),
      Yard.reloan_checkCapacity]

theorem Yard.reloan_takeLost (n : Nat) : (y.reloan f).takeLost n = (y.takeLost n).reloan f := by
  have hholder : (y.reloan f).holder? n = y.holder? n := rfl
  unfold Yard.takeLost
  rw [hholder]
  cases y.holder? n <;> rfl

theorem Yard.reloan_orderLost (order car : Nat) : (y.reloan f).orderLost order car = (y.orderLost order car).reloan f := by
  have hlists : (y.reloan f).unlisted order = (y.unlisted order).reloan f := rfl
  unfold Yard.orderLost
  dsimp only
  rw [Yard.unlisted_eq, Yard.unlisted_eq, hlists, Yard.reloan_takeLost, Yard.reloan_readCar _ f fun _ _ => rfl]
  generalize ((y.unlisted order).takeLost order).readCar id car = p
  obtain ⟨r, z⟩ := p
  cases r with
  | whole c =>
    dsimp only
    rw [Yard.reloan_modCar]
    cases c.parkedBay with
    | none => rfl
    | some bay => exact Yard.reloan_markLamp _ f (fun _ _ => rfl) bay
  | absent => rfl
  | fault => rfl

theorem Yard.reloan_drain : (y.reloan f).drain = y.drain.reloan f := by
  unfold Yard.drain
  generalize 6464 = n
  induction n generalizing y with
  | zero => rfl
  | succ n ih =>
    unfold Yard.drainWithin
    rw [Yard.reloan_store]
    cases y.store.waiting with
    | nil => rfl
    | cons e rest =>
      obtain ⟨t, i, k⟩ := e
      have hstep : (({ y.reloan f with store := { y.store with waiting := rest } } : Yard).handleLost t k) =
          (({ y with store := { y.store with waiting := rest } } : Yard).handleLost t k).reloan f := by
        cases t with
        | car => exact Yard.reloan_carLost { y with store := { y.store with waiting := rest } } f k.number
        | bay => exact Yard.reloan_bayLost { y with store := { y.store with waiting := rest } } f k.number
        | order =>
          exact Yard.reloan_orderLost { y with store := { y.store with waiting := rest } } f k.number (k.car.getD 0)
        | menu => rfl
        | ticket => rfl
      dsimp only
      rw [hstep, ih]

end field

/-! ## Reads that settle lost records -/

section reads
variable (y : Yard) (f : ScreenId → LoanFields)

@[simp] theorem Yard.reloan_readBayD (i : Nat) : (y.reloan f).readBay Yard.drain i =
    ((y.readBay Yard.drain i).1, (y.readBay Yard.drain i).2.reloan f) :=
  Yard.reloan_readBay y f Yard.reloan_drain i

@[simp] theorem Yard.reloan_readCarD (n : Nat) : (y.reloan f).readCar Yard.drain n =
    ((y.readCar Yard.drain n).1, (y.readCar Yard.drain n).2.reloan f) :=
  Yard.reloan_readCar y f Yard.reloan_drain n

@[simp] theorem Yard.reloan_readOrderD (n : Nat) : (y.reloan f).readOrder Yard.drain n =
    ((y.readOrder Yard.drain n).1, (y.readOrder Yard.drain n).2.reloan f) :=
  Yard.reloan_readOrder y f Yard.reloan_drain n

@[simp] theorem Yard.reloan_readItemD (n : Nat) : (y.reloan f).readItem Yard.drain n =
    ((y.readItem Yard.drain n).1, (y.readItem Yard.drain n).2.reloan f) :=
  Yard.reloan_readItem y f Yard.reloan_drain n

@[simp] theorem Yard.reloan_placeSpeakersOfD (bays : List Nat) :
    (y.reloan f).placeSpeakersOf Yard.drain bays = (y.placeSpeakersOf Yard.drain bays).reloan f :=
  Yard.reloan_placeSpeakersOf y f Yard.reloan_drain bays

@[simp] theorem Yard.reloan_afterFreeD (lp : ScreenId) :
    (y.reloan f).afterFree Yard.drain lp = (y.afterFree Yard.drain lp).reloan f :=
  Yard.reloan_afterFree y f Yard.reloan_drain lp

end reads

/-! ## Check-in (R125, R126) -/

section checkin
variable (y : Yard) (f : ScreenId → LoanFields)

theorem Yard.reloan_checkinReads (bay code : Nat) : (y.reloan f).checkinReads bay code =
    ((y.checkinReads bay code).1, (y.checkinReads bay code).2.reloan f) := by
  unfold Yard.checkinReads
  dsimp only
  have hcar : (if codeValid code then (y.reloan f).readCar Yard.drain (codeCar code) else (.absent, y.reloan f)) =
      ((if codeValid code then y.readCar Yard.drain (codeCar code) else (.absent, y)).1,
        (if codeValid code then y.readCar Yard.drain (codeCar code) else (.absent, y)).2.reloan f) := by
    split
    · exact Yard.reloan_readCarD y f _
    · rfl
  rw [hcar]
  generalize (if codeValid code then y.readCar Yard.drain (codeCar code) else (.absent, y)) = rc
  dsimp only
  rw [Yard.reloan_readBayD]
  generalize rc.2.readBay Yard.drain bay = rb
  dsimp only
  cases rb.1.record?.bind fun b => b.otherOccupant (codeCar code) with
  | none =>
    cases rc.1.record?.bind fun c => c.oldBay bay with
    | none => rfl
    | some old => dsimp only; rw [Yard.reloan_readBayD]
  | some o =>
    dsimp only
    rw [Yard.reloan_readCarD]
    cases rc.1.record?.bind fun c => c.oldBay bay with
    | none => rfl
    | some old => dsimp only; rw [Yard.reloan_readBayD]

theorem Yard.reloan_bind (site : Site) (c : Car) (bay : Nat) (displaced : Option Nat) (wish : Bool) :
    (y.reloan f).bind site c bay displaced wish = (y.bind site c bay displaced wish).reloan f := by
  have hvacated : (y.reloan f).vacated c bay displaced = (y.vacated c bay displaced).reloan f := by
    unfold Yard.vacated
    cases displaced <;> cases c.oldBay bay <;> simp
  rw [Yard.bind_eq, Yard.bind_eq, hvacated]
  unfold Yard.bound
  simp

theorem Yard.reloan_checkin (site : Site) (bay code : Nat) (wish : Bool) :
    (y.reloan f).checkin site bay code wish = (y.checkin site bay code wish).reloan f := by
  unfold Yard.checkin
  rw [Yard.reloan_checkinReads]
  generalize y.checkinReads bay code = p
  obtain ⟨r, z⟩ := p
  dsimp only
  cases checkinFailure site bay code r with
  | some why => simp
  | none =>
    cases r.car with
    | absent => rfl
    | fault => rfl
    | whole c =>
      cases r.bay with
      | absent => rfl
      | fault => rfl
      | whole b => exact Yard.reloan_bind z f site c bay _ wish

end checkin

end Sys2Proof.Machine
end

section
/-! PROOF. The operations of the Order Engine on a keyed ORDER or CANCEL commute with writing the fields of lending (R144 to
R153). -/

namespace Sys2Proof.Machine

/-! ## Tallies and lists -/

section tallies
variable (y : Yard) (f : ScreenId → LoanFields)

theorem Yard.reloan_moveTally (g : MenuItem → MenuItem) (i : Nat) : (y.reloan f).moveTally g i =
    ((y.moveTally g i).1, (y.moveTally g i).2.reloan f) := by
  unfold Yard.moveTally
  rw [Yard.reloan_readItemD]
  generalize y.readItem Yard.drain i = p
  obtain ⟨r, z⟩ := p
  cases r with
  | whole m => dsimp only; rw [Yard.reloan_modItem]
  | absent => rfl
  | fault => rfl

theorem Yard.reloan_moveLines (move : Nat → MenuItem → MenuItem) (ls : List Line) : (y.reloan f).moveLines move ls =
    ((y.moveLines move ls).1, (y.moveLines move ls).2.reloan f) := by
  induction ls generalizing y with
  | nil => rfl
  | cons l ls ih =>
    unfold Yard.moveLines
    rw [Yard.reloan_moveTally]
    dsimp only
    rw [ih]

theorem Yard.reloan_settleLines (ls : List Line) : (y.reloan f).settleLines ls =
    ((y.settleLines ls).1, (y.settleLines ls).2.reloan f) := by
  unfold Yard.settleLines
  rw [Yard.reloan_moveLines]
  dsimp only
  rw [Yard.reloan_moveLines]

theorem Yard.reloan_leaveLists (n : Nat) : (y.reloan f).leaveLists n = (y.leaveLists n).reloan f :=
  Yard.reloan_leaveReady ((y.unhold n).dequeueOrder n) f n

theorem Yard.reloan_cancelOrder (o : Order) (cause : CancelCause) :
    (y.reloan f).cancelOrder o cause = (y.cancelOrder o cause).reloan f := by
  unfold Yard.cancelOrder
  dsimp only
  rw [Yard.reloan_leaveLists, Yard.reloan_settleLines]
  generalize ((y.leaveLists o.number).settleLines o.lines).2 = z
  dsimp only
  by_cases hd : cause = .departed
  · rw [if_pos hd, if_pos hd, Yard.reloan_freeOrder, Yard.reloan_raise]
  · rw [if_neg hd, if_neg hd, Yard.reloan_readCarD]
    generalize z.readCar Yard.drain o.car = p
    obtain ⟨r, u⟩ := p
    unfold Yard.dropOpenOrder
    cases r with
    | whole c => dsimp only; rw [Yard.reloan_modCar, Yard.reloan_freeOrder, Yard.reloan_raise]
    | absent => dsimp only; rw [Yard.reloan_freeOrder, Yard.reloan_raise]
    | fault => dsimp only; rw [Yard.reloan_freeOrder, Yard.reloan_raise]

end tallies

/-! ## Intake (R144 to R148) -/

section intake
variable (y : Yard) (f : ScreenId → LoanFields) (site : Site) (bay : Nat)

theorem Yard.reloan_readItems (is : List Nat) : (y.reloan f).readItems is =
    ((y.readItems is).1, (y.readItems is).2.reloan f) := by
  induction is generalizing y with
  | nil => rfl
  | cons i is ih =>
    unfold Yard.readItems
    rw [Yard.reloan_readItemD]
    dsimp only
    rw [ih]

theorem Yard.reloan_readOccupant : (y.reloan f).readOccupant bay =
    ((y.readOccupant bay).1, (y.readOccupant bay).2.reloan f) := by
  unfold Yard.readOccupant
  rw [Yard.reloan_readBayD]
  generalize y.readBay Yard.drain bay = p
  obtain ⟨r, z⟩ := p
  cases r with
  | whole b =>
    dsimp only
    cases b.occupant with
    | none => rfl
    | some n => dsimp only; rw [Yard.reloan_readCarD]
  | absent => rfl
  | fault => rfl

theorem Yard.reloan_orderMoves (lines : List WireLine) :
    (y.reloan f).orderMoves lines = (y.orderMoves lines).reloan f := by
  refine Yard.reloan_foldl y f (fun y f l => ?_) lines
  have hitem : (y.reloan f).item? l.item = y.item? l.item := rfl
  rw [hitem]
  cases y.item? l.item with
  | none => rfl
  | some m =>
    dsimp only
    rw [Yard.reloan_modItem]
    split <;> rfl

theorem Yard.reloan_enqueueLines (n : Nat) (lines : List Line) (stations : List StationId) :
    (y.reloan f).enqueueLines n lines stations = (y.enqueueLines n lines stations).reloan f :=
  Yard.reloan_foldl y f (fun _ _ _ => rfl) _

theorem Yard.reloan_acceptOrder (slot : Nat) (c : Car) (items : List (Nat × Read MenuItem)) (mode : OrderMode)
    (lines : List WireLine) (source : OrderSource) : (y.reloan f).acceptOrder site bay slot c items mode lines source =
      ((y.acceptOrder site bay slot c items mode lines source).1,
        (y.acceptOrder site bay slot c items mode lines source).2.reloan f) := by
  have hnext : (y.reloan f).nextOrder = y.nextOrder := rfl
  unfold Yard.acceptOrder
  dsimp only
  rw [hnext]
  generalize y.nextOrder = n
  generalize (Order.mk n _ _ _ _ _ _ _ _ _ _) = o
  have hwrite : ({ y.reloan f with lastOrder := n } : Yard).setOrderSlot slot (((y.reloan f).orderSlot slot).write o) =
      (({ y with lastOrder := n } : Yard).setOrderSlot slot ((y.orderSlot slot).write o)).reloan f := rfl
  rw [hwrite]
  generalize ({ y with lastOrder := n } : Yard).setOrderSlot slot _ = u
  rw [Yard.reloan_orderMoves, Yard.reloan_modCar]
  split
  · rfl
  · rw [Yard.reloan_enqueueLines]
    rfl

theorem Yard.reloan_intake (mode : OrderMode) (lines : List WireLine) (source : OrderSource) :
    (y.reloan f).intake site bay mode lines source =
      ((y.intake site bay mode lines source).1, (y.intake site bay mode lines source).2.reloan f) := by
  unfold Yard.intake
  rw [Yard.reloan_readOccupant]
  generalize y.readOccupant bay = p
  obtain ⟨r, z⟩ := p
  dsimp only
  rw [Yard.reloan_readItems]
  generalize z.readItems (itemsOf lines) = q
  obtain ⟨items, u⟩ := q
  dsimp only
  have hfail : (u.reloan f).intakeFailure site bay r items lines = u.intakeFailure site bay r items lines := rfl
  rw [hfail, Yard.reloan_store]
  cases u.intakeFailure site bay r items lines with
  | some why => rfl
  | none =>
    cases r.parked with
    | none => rfl
    | some c =>
      cases lowestFree u.store.orders TableId.order.size with
      | none => rfl
      | some slot => exact Yard.reloan_acceptOrder u f site bay slot c items mode lines source

theorem Yard.reloan_postOrder (mode : OrderMode) (lines : List WireLine) :
    (y.reloan f).postOrder site bay mode lines = (y.postOrder site bay mode lines).reloan f := by
  unfold Yard.postOrder
  rw [Yard.reloan_intake]
  generalize y.intake site bay mode lines .post = p
  obtain ⟨r, z⟩ := p
  cases r with
  | accepted n total first => exact Yard.reloan_placePassing z f bay lampAccepted
  | refused reason item => dsimp only; rw [Yard.reloan_placePassing, Yard.reloan_raise]

/-! ## A CANCEL (R153) -/

theorem Yard.reloan_readLineItems (o : Read Order) : (y.reloan f).readLineItems o =
    ((y.readLineItems o).1, (y.readLineItems o).2.reloan f) := by
  cases o with
  | whole o =>
    unfold Yard.readLineItems
    dsimp only
    rw [Yard.reloan_readItems]
  | absent => rfl
  | fault => rfl

theorem Yard.reloan_postCancel (order : Nat) :
    (y.reloan f).postCancel site bay order = (y.postCancel site bay order).reloan f := by
  unfold Yard.postCancel
  rw [Yard.reloan_readOccupant]
  generalize y.readOccupant bay = p
  obtain ⟨r, z⟩ := p
  dsimp only
  rw [Yard.reloan_readOrderD]
  generalize z.readOrder Yard.drain order = q
  obtain ⟨ro, u⟩ := q
  dsimp only
  rw [Yard.reloan_readLineItems]
  generalize u.readLineItems ro = q
  obtain ⟨itemLost, v⟩ := q
  dsimp only
  cases cancelFailure site r ro itemLost with
  | some reason => dsimp only; rw [Yard.reloan_placePassing, Yard.reloan_raise]
  | none =>
    cases ro with
    | whole o => dsimp only; rw [Yard.reloan_cancelOrder, Yard.reloan_placeRestingNow]
    | absent => rfl
    | fault => rfl

end intake

end Sys2Proof.Machine
end

section
/-! PROOF. The outcomes of a loop's transaction, its record among them, commute with writing the fields of lending (R66 to
R71, R77, R80 to R82): a transaction does in YIELDING what it does in POLLING (R84). -/

namespace Sys2Proof.Machine

/-! ## The record of a response (R80 to R82) -/

section record
variable (y : Yard) (f : ScreenId → LoanFields) (site : Site) (lp : ScreenId) (post : Nat)

theorem Yard.reloan_deliver (rec : KeyRecord) :
    (y.reloan f).deliver site lp post rec = (y.deliver site lp post rec).reloan f := by
  cases rec with
  | checkin side code wish => exact Yard.reloan_checkin y f site (postBay lp post side) code wish
  | order side mode lines => exact Yard.reloan_postOrder y f site (postBay lp post side) mode lines
  | cancel side order => exact Yard.reloan_postCancel y f site (postBay lp post side) order
  | help side => rfl

theorem Yard.reloan_takeRecord (bytes : List Byte) :
    (y.reloan f).takeRecord site lp post bytes = (y.takeRecord site lp post bytes).reloan f := by
  have hbad (y : Yard) : (y.reloan f).modLoop lp LoopRec.countBad = (y.modLoop lp LoopRec.countBad).reloan f :=
    Yard.reloan_modLoop y f rfl
  cases bytes with
  | nil => rfl
  | cons seq rest =>
    unfold Yard.takeRecord
    dsimp only
    have hpost : ((y.loops[lp]).reloan (f lp)).post post = (y.loops[lp]).post post := rfl
    rw [hbad, Yard.reloan_loop, hpost]
    split
    · rfl
    · split
      · exact Yard.reloan_modLoop y f (g' := fun l => { l with repeats := satInc l.repeats }) rfl
      · rw [Yard.reloan_modLoop y f
          (g' := fun l => l.setPost post { l.post post with lastSeq := some seq.toNat }) rfl]
        generalize y.modLoop lp _ = z
        cases formOf rest with
        | none => exact hbad z
        | some rec =>
          dsimp only
          rw [Yard.reloan_modLoop z f (g' := fun l => { l with rows := Tab.put false l.rows (postRow lp post) true }) rfl,
            Yard.reloan_deliver]

end record

/-! ## The slot and the post (R69 to R71, R77) -/

section outcome
variable (y : Yard) (f : ScreenId → LoanFields) (lp : ScreenId)

theorem Yard.reloan_sendOutcome (i : Fin 16) (e : Ending) :
    (y.reloan f).sendOutcome lp i e = (y.sendOutcome lp i e).reloan f := by
  have hslots : ((y.loops[lp]).reloan (f lp)).slots = (y.loops[lp]).slots := rfl
  have hposts (p : Nat) : ((y.loops[lp]).reloan (f lp)).post p = (y.loops[lp]).post p := rfl
  unfold Yard.sendOutcome
  dsimp only
  rw [Yard.reloan_loop, hslots, hposts]
  generalize (y.loops[lp]).slots[i] = sl
  cases e with
  | good =>
    dsimp only
    rw [Yard.reloan_modLoop y f
      (g' := fun l => (l.setPost sl.post ((l.post sl.post).deliver sl)).setSlot i OutSlot.empty) rfl]
    split
    · rw [Yard.reloan_raise, Yard.reloan_afterFreeD]
    · rw [Yard.reloan_afterFreeD]
  | error =>
    dsimp only
    split
    · rw [Yard.reloan_completeUndelivered, Yard.reloan_afterFreeD]
    · exact Yard.reloan_modLoop y f
        (g' := fun l => l.setSlot i { sl with use := .pending, fails := sl.fails + 1 }) rfl

theorem Yard.reloan_dropSlots (post : Nat) : (y.reloan f).dropSlots lp post = (y.dropSlots lp post).reloan f := by
  refine Yard.reloan_foldl y f (fun y f i => ?_) slotNumbers
  have hslots : ((y.loops[lp]).reloan (f lp)).slots = (y.loops[lp]).slots := rfl
  dsimp only
  rw [Yard.reloan_loop, hslots]
  split
  · rw [Yard.reloan_completeUndelivered, Yard.reloan_afterFreeD]
  · rfl

theorem Yard.reloan_countOutcome (post : Nat) (e : Ending) :
    (y.reloan f).countOutcome lp post e = (y.countOutcome lp post e).reloan f := by
  have hpost : ((y.loops[lp]).reloan (f lp)).post post = (y.loops[lp]).post post := rfl
  rw [Yard.countOutcome_eq, Yard.countOutcome_eq, Yard.reloan_loop, hpost]
  split
  · generalize (y.loops[lp]).post post = p
    unfold Yard.charged
    dsimp only
    rw [Yard.reloan_modLoop y f (g' := fun l => l.setPost post { p with
      errors := p.counted e, conf := confinementOf p.conf (p.counted e)
      recovery := if (decide (p.conf ≠ .dropped) && decide (confinementOf p.conf (p.counted e) = .dropped)) = true then
        some recoveryTime else p.recovery }) rfl]
    generalize y.modLoop lp _ = z
    have hreport : (if p.conf ≠ confinementOf p.conf (p.counted e) then (z.reloan f).raise
          (.postState lp post p.conf (confinementOf p.conf (p.counted e)) (p.counted e)) else z.reloan f) =
        (if p.conf ≠ confinementOf p.conf (p.counted e) then z.raise
          (.postState lp post p.conf (confinementOf p.conf (p.counted e)) (p.counted e)) else z).reloan f := by
      split <;> rfl
    rw [hreport, Yard.reloan_dropSlots]
    split <;> rfl
  · rfl

theorem Yard.reloan_probeOutcome (post : Nat) (e : Ending) :
    (y.reloan f).probeOutcome lp post e = (y.probeOutcome lp post e).reloan f := by
  have hpost : ((y.loops[lp]).reloan (f lp)).post post = (y.loops[lp]).post post := rfl
  unfold Yard.probeOutcome
  dsimp only
  rw [Yard.reloan_loop, hpost]
  generalize (y.loops[lp]).post post = p
  cases e with
  | good =>
    dsimp only
    rw [Yard.reloan_modLoop y f (g' := fun l => l.setPost post p.recovered) rfl, Yard.reloan_raise,
      Yard.reloan_resendPost _ f Yard.reloan_drain]
  | error =>
    exact Yard.reloan_modLoop y f (g' := fun l => l.setPost post { p with
      errors := satAdd255 8 p.errors, recovery := some recoveryTime }) rfl

theorem Yard.reloan_judged (t : Transaction) (e : Ending) :
    (y.reloan f).judged lp t e = (y.judged lp t e).reloan f := by
  have hpost : ((y.loops[lp]).reloan (f lp)).post t.post = (y.loops[lp]).post t.post := rfl
  unfold Yard.judged
  rw [Yard.reloan_loop, hpost]
  split
  · exact Yard.reloan_probeOutcome y f lp t.post e
  · exact Yard.reloan_countOutcome y f lp t.post e

end outcome

/-! ## The end of a transaction -/

/-- The outcome of an ended transaction on the slot it sent, if any. -/
def Yard.slotOutcome (y : Yard) (lp : ScreenId) (e : Ending) : Option (Fin 16) → Yard
  | some i => y.sendOutcome lp i e
  | none => y

/-- The loop's error count at the end of a transaction. -/
def Yard.loopOutcome (y : Yard) (lp : ScreenId) : Ending → Yard
  | .good => y
  | .error => y.modLoop lp fun l => { l with errors := satInc l.errors }

/-- What a transaction that has ended does, before a loan that waited for it: its slot's outcome, the loop's error count,
its post's count and its record. -/
def Yard.outcome (y : Yard) (site : Site) (lp : ScreenId) (t : Transaction) (e : Ending) (record : List Byte) : Yard :=
  (((y.slotOutcome lp e t.slot).loopOutcome lp e).judged lp t e).takeRecord site lp t.post record

section ending
variable (y : Yard) (f : ScreenId → LoanFields) (site : Site) (lp : ScreenId) (t : Transaction) (e : Ending)
  (record : List Byte)

theorem Yard.endTransaction_outcome : y.endTransaction site lp t e record =
    ((y.modLoop lp fun l => { l with current := none }).outcome site lp t e record).grantLoan lp := by
  obtain ⟨post, fn, slot, waits, agains, header, window⟩ := t
  cases slot <;> cases e <;> rfl

theorem Yard.reloan_slotOutcome (slot : Option (Fin 16)) :
    (y.reloan f).slotOutcome lp e slot = (y.slotOutcome lp e slot).reloan f := by
  cases slot with
  | some i => exact Yard.reloan_sendOutcome y f lp i e
  | none => rfl

theorem Yard.reloan_loopOutcome : (y.reloan f).loopOutcome lp e = (y.loopOutcome lp e).reloan f := by
  cases e with
  | good => rfl
  | error =>
    exact Yard.reloan_modLoop y f (lp := lp) (g := fun l => { l with errors := satInc l.errors })
      (g' := fun l => { l with errors := satInc l.errors }) rfl

theorem Yard.reloan_outcome :
    (y.reloan f).outcome site lp t e record = (y.outcome site lp t e record).reloan f := by
  unfold Yard.outcome
  rw [Yard.reloan_slotOutcome, Yard.reloan_loopOutcome, Yard.reloan_judged, Yard.reloan_takeRecord]

theorem Yard.outcome_loans : (y.outcome site lp t e record).loans = y.loans :=
  Yard.loans_of_commutes y (F := fun y => y.outcome site lp t e record)
    fun y f => Yard.reloan_outcome y f site lp t e record

end ending

end Sys2Proof.Machine
end

section
/-! PROOF. Lending the loop (R84, R86). -/

namespace Sys2Proof.Machine

/-! ## A transaction's end in YIELDING -/

section yielding
variable {y : Yard} {site : Site} {lp : ScreenId} {t : Transaction} {e : Ending} {record : List Byte}

theorem Yard.reloan_update (y : Yard) (lp : ScreenId) (b : LoanFields) :
    y.reloan (Function.update y.loans lp b) = y.told lp (y.loops[lp].reloan b) [] := by
  have hloops : (Vector.ofFn fun k => (y.loops[k]).reloan (Function.update y.loans lp b k)) =
      y.loops.set lp (y.loops[lp].reloan b) := by
    refine Vector.ext fun k hk => ?_
    rw [Vector.getElem_ofFn, Vector.getElem_set]
    by_cases h : lp.val = k
    · subst h
      simp
    · rw [if_neg h, Function.update_of_ne fun hc => h (congrArg Fin.val hc).symm]
      rfl
  unfold Yard.reloan Yard.told
  rw [hloops, List.append_nil]

theorem Yard.outcome_loan (y : Yard) (site : Site) (lp : ScreenId) (t : Transaction) (e : Ending)
    (record : List Byte) : ((y.outcome site lp t e record).loops[lp]).loan = (y.loops[lp]).loan :=
  congrFun (Yard.outcome_loans y site lp t e record) lp

/-- A loop whose ownership and grant are written as a loan's. -/
def LoopRec.granted (l : LoopRec) (setting : Nat) : LoopRec :=
  { l with owner := .lent, grant := true, lendTimer := loadSeconds setting }

theorem LoopRec.granted_reloan {l : LoopRec} {b c : LoanFields} (h : l.loan = c) (hr : b.request = c.request)
    (hc : b.current = c.current) (hs : b.lendSetting = c.lendSetting) (setting : Nat) :
    (l.reloan b).granted setting = l.granted setting := by
  subst h
  unfold LoopRec.granted LoopRec.reloan
  rw [hr, hc, hs]
  rfl

/-- A transaction that ends in YIELDING does what it does in POLLING, and the grant follows, LEND_START the last report. -/
theorem Yard.endTransaction_yields {l : LoopRec} {z : Yard} (hl : y.loops[lp] = l) (ho : l.owner = .yielding)
    (hz : z = (y.told lp { l with owner := .polling } []).endTransaction site lp t e record) :
    (z.loops[lp]).current = none ∧ y.endTransaction site lp t e record =
      z.told lp ((z.loops[lp]).granted l.lendSetting) [.lendStart lp] := by
  rw [Yard.endTransaction_outcome, Yard.told_modLoop] at hz
  rw [Yard.endTransaction_outcome, Yard.modLoop_told, hl]
  have hrelabel : y.told lp { l with current := none } [] =
      (y.told lp { l with owner := .polling, current := none } []).reloan
        (Function.update (y.told lp { l with owner := .polling, current := none } []).loans lp
          { l.loan with current := none }) := by
    rw [Yard.reloan_update, Yard.told_loop, Yard.told_told]
    rfl
  rw [hrelabel, Yard.reloan_outcome]
  generalize hu : y.told lp { l with owner := .polling, current := none } [] = u at hz ⊢
  have hul : (u.loops[lp]).loan = { l.loan with owner := .polling, current := none } := by
    rw [← hu, Yard.told_loop]
    rfl
  have hloan := Yard.outcome_loan u site lp t e record
  rw [← Yard.outcome_loans u site lp t e record, Yard.reloan_update]
  generalize u.outcome site lp t e record = x at hz hloan ⊢
  rw [hul] at hloan
  have howner : (x.loops[lp]).owner = .polling := congrArg LoanFields.owner hloan
  rw [Yard.grantLoan_elsewhere _ _ (by rw [howner]; decide)] at hz
  subst hz
  refine ⟨congrArg LoanFields.current hloan, ?_⟩
  rw [Yard.grantLoan_raised (l := (z.loops[lp]).reloan { l.loan with current := none }) _ _ _ ho rfl]
  exact congrArg (z.told lp · [.lendStart lp]) (LoopRec.granted_reloan hloan rfl rfl rfl l.lendSetting)

/-- The step of a transaction's end in YIELDING, against the same step in POLLING. -/
theorem State.yields {s : State} {l : LoopRec} (hs : s.settled) (hl : s.yard.loops[lp] = l) (ho : l.owner = .yielding) :
    ∃ w reports, ({ s.withLoop lp { l with owner := .polling } with
        yard := (s.withLoop lp { l with owner := .polling }).yard.endTransaction s.site lp t e record } : State).finish = w ∧
      w.link = s.link.after reports ∧ (w.yard.loops[lp]).current = none ∧
      ({ s with yard := s.yard.endTransaction s.site lp t e record } : State).finish = { w with
        yard := { w.yard with loops := w.yard.loops.set lp { w.yard.loops[lp] with
          owner := .lent, grant := true, lendTimer := loadSeconds l.lendSetting } }
        link := s.link.after (reports ++ [.lendStart lp]) } := by
  have hyard : (s.withLoop lp { l with owner := .polling }).yard = s.yard.told lp { l with owner := .polling } [] := by
    unfold State.withLoop Yard.told
    rw [List.append_nil]
  rw [hyard]
  generalize hz : (s.yard.told lp { l with owner := .polling } []).endTransaction s.site lp t e record = z
  obtain ⟨hcur, hend⟩ := Yard.endTransaction_yields hl ho hz.symm
  rw [hend]
  exact ⟨_, z.raised, rfl, rfl, hcur, rfl⟩

end yielding

/-- The commands that end a transaction in flight. -/
def Transaction.endsBy (t : Transaction) (lp : ScreenId) (left : Option Nat) (c : Instr) : Prop :=
  c = .responseWindowExpiry lp ∧ left.isSome = true ∨ ∃ bytes q, c = .loopResponse lp bytes ∧
    responseOf bytes = some q ∧ (q.valid t.post ∈ [none, some .done, some .fault] ∨
      q.valid t.post = some .again ∧ 4 ≤ t.agains ∨ q.valid t.post = some .wait ∧ 2 ≤ t.waits)

theorem exec_endsBy {lp : ScreenId} {t : Transaction} {n : Nat} {left : Option Nat} {c : Instr}
    (hw : t.window = .listening n left) (hc : t.endsBy lp left c) : ∃ e record, ∀ s : State,
      (s.yard.loops[lp]).current = some t →
        exec c s = .next ({ s with yard := s.yard.endTransaction s.site lp t e record } : State).finish := by
  rcases hc with hc | ⟨bytes, q, rfl, hq, hv | hv | hv⟩
  · exact ⟨.error, [], fun s ht => exec_fails ht hw (.inl hc)⟩
  · rw [List.mem_cons, List.mem_cons, List.mem_singleton] at hv
    rcases hv with hv | hv | hv
    · exact ⟨.error, [], fun s ht => exec_fails ht hw (.inr ⟨bytes, q, rfl, hq, .inl hv⟩)⟩
    · exact ⟨.good, q.record, fun s ht => exec_good ht hw hq hv⟩
    · exact ⟨.error, [], fun s ht => exec_fails ht hw (.inr ⟨bytes, q, rfl, hq, .inr (.inl hv)⟩)⟩
  · exact ⟨.error, [], fun s ht => exec_fails ht hw (.inr ⟨bytes, q, rfl, hq, .inr (.inr (.inl hv))⟩)⟩
  · exact ⟨.error, [], fun s ht => exec_fails ht hw (.inr ⟨bytes, q, rfl, hq, .inr (.inr (.inr hv))⟩)⟩

/-! ## The request line and the lend timer -/

section request
variable {y : Yard} {lp : ScreenId} {l : LoopRec} (hl : y.loops[lp] = l)
include hl

theorem Yard.requestRises_again (hr : l.request = true) : y.requestRises lp = y := by
  unfold Yard.requestRises
  dsimp only
  rw [hl, if_pos hr]

theorem Yard.requestRises_refused (hr : l.request = false) (ha : l.lendAllowed = false) :
    y.requestRises lp = y.told lp { l with request := true } [.lendRefused lp] := by
  unfold Yard.requestRises
  dsimp only
  rw [hl, if_neg (by rw [hr]; decide), if_pos (by rw [ha]; rfl), Yard.modLoop_told, hl, Yard.told_raise]
  rfl

theorem Yard.requestRises_later (hr : l.request = false) (ha : l.lendAllowed = true) (ho : l.owner ≠ .polling) :
    y.requestRises lp = y.told lp { l with request := true } [] := by
  unfold Yard.requestRises
  dsimp only
  rw [hl, if_neg (by rw [hr]; decide), if_neg (by rw [ha]; decide), if_neg ho, Yard.modLoop_told, hl]

/-- A request in POLLING yields, and is granted where no transaction is in flight. -/
theorem Yard.requestRises_yields (hr : l.request = false) (ha : l.lendAllowed = true) (ho : l.owner = .polling)
    (hd : l.repeatDue = none) :
    y.requestRises lp = (y.told lp { l with request := true, owner := .yielding } []).grantLoan lp := by
  unfold Yard.requestRises
  dsimp only
  rw [hl, if_neg (by rw [hr]; decide), if_neg (by rw [ha]; decide), if_pos ho, Yard.modLoop_told y, hl,
    Yard.told_modLoop, hd]

/-- A request in POLLING abandons a repeat that is due. -/
theorem Yard.requestRises_abandons (hr : l.request = false) (ha : l.lendAllowed = true) (ho : l.owner = .polling)
    {rd : RepeatDue} (hd : l.repeatDue = some rd) : y.requestRises lp =
      (y.told lp (LoopRec.dropRepeat { l with request := true, owner := .yielding } rd.slot) []).grantLoan lp := by
  unfold Yard.requestRises
  dsimp only
  rw [hl, if_neg (by rw [hr]; decide), if_neg (by rw [ha]; decide), if_pos ho, Yard.modLoop_told y, hl,
    Yard.told_modLoop, hd]
  dsimp only
  rw [Yard.told_modLoop]

theorem Yard.requestFalls_eq (hr : l.request = true) : y.requestFalls lp =
    match l.owner with
    | .polling => y.told lp { l with request := false } []
    | .yielding => y.told lp { l with request := false, owner := .polling } []
    | .lent => (y.told lp { l with request := false } []).endLoan lp
    | .reclaiming => (y.told lp { l with request := false } []).endLoan lp := by
  unfold Yard.requestFalls
  dsimp only
  rw [hl, if_neg (by rw [hr]; decide), Yard.modLoop_told, hl]
  cases l.owner with
  | polling => rfl
  | yielding => dsimp only; rw [Yard.told_modLoop]
  | lent => rfl
  | reclaiming => rfl

theorem Yard.lendExpired_lent (ho : l.owner = .lent) (ht : l.lendTimer.isSome = true) : y.lendExpired lp =
    y.told lp { l with owner := .reclaiming, grant := false, lendTimer := none } [.lendOverrun lp] := by
  unfold Yard.lendExpired
  dsimp only
  rw [hl, if_pos ⟨ho, ht⟩, Yard.modLoop_told, hl, Yard.told_raise]
  rfl

theorem Yard.lendExpired_idle (h : l.owner ≠ .lent ∨ l.lendTimer = none) : y.lendExpired lp = y := by
  unfold Yard.lendExpired
  dsimp only
  rw [hl, if_neg]
  rintro ⟨ho, ht⟩
  rcases h with h | h
  · exact h ho
  · rw [h] at ht
    cases ht

end request

/-! ## The end of a loan (R86) -/

section endLoan
variable {y : Yard} {lp : ScreenId} {l : LoopRec}

theorem Yard.endLoan_told (y : Yard) (lp : ScreenId) (l : LoopRec) : (y.told lp l []).endLoan lp =
    (y.told lp { l with owner := .polling, grant := false, lendTimer := none } [.lendEnd lp]).resendLoop Yard.drain lp := by
  unfold Yard.endLoan
  rw [Yard.told_modLoop, Yard.told_raise]
  rfl

/-- A resend request of a whole loop leaves its fields of lending. -/
theorem Yard.resendLoop_loan (y : Yard) (lp : ScreenId) :
    ((y.resendLoop Yard.drain lp).loops[lp]).loan = (y.loops[lp]).loan :=
  congrFun (Yard.loans_of_commutes y (F := fun y => y.resendLoop Yard.drain lp)
    fun y f => Yard.reloan_resendLoop y f Yard.reloan_drain lp) lp

/-- A resend request of a whole loop reports after what has been reported. -/
theorem Yard.resendLoop_raised (y : Yard) (lp : ScreenId) : y.raised <+: (y.resendLoop Yard.drain lp).raised :=
  Yard.obeys.resendLoop (L := .raised y.raised) (List.prefix_refl _) YardLaw.keptBy_drain

end endLoan

/-! ## AGAIN and WAIT in YIELDING (R67, R84) -/

section again
variable {y : Yard} {site : Site} {lp : ScreenId} {t : Transaction} {l : LoopRec}

theorem LoopRec.dropRepeat_eq (l : LoopRec) (slot : Option (Fin 16)) : l.dropRepeat slot = { l with
    repeatDue := none
    slots := (match slot with
      | some i => l.slots.set i { l.slots[i] with use := .pending }
      | none => l.slots) } := by
  cases slot <;> rfl

/-- An AGAIN short of the fifth abandons the repeat in YIELDING, and the loan is granted. -/
theorem Yard.takeAgain_yields (hl : y.loops[lp] = l) (ho : l.owner = .yielding) (ha : t.agains < 4) :
    y.takeAgain site lp t = y.told lp ((LoopRec.dropRepeat { l with current := none } t.slot).granted l.lendSetting)
      [.lendStart lp] := by
  unfold Yard.takeAgain
  dsimp only
  rw [if_neg (Nat.not_le.2 ha), Yard.modLoop_told y, hl, Yard.told_loop, if_pos ho, Yard.told_modLoop]
  generalize hk : LoopRec.dropRepeat { l with current := none } t.slot = k
  rw [LoopRec.dropRepeat_eq] at hk
  have howner : k.owner = .yielding := hk ▸ ho
  have hcur : k.current = none := hk ▸ rfl
  have hset : k.lendSetting = l.lendSetting := hk ▸ rfl
  rw [Yard.grantLoan_raised _ _ _ howner hcur, ← hset]
  rfl

theorem Yard.takeWait_again (hl : y.loops[lp] = l) (hw : t.waits < 2) (n : Nat) : y.takeWait site lp t n =
    y.told lp { l with current := some { t with
      waits := t.waits + 1, window := .listening n (if n = 0 then none else some n) } } [] := by
  unfold Yard.takeWait
  rw [if_neg (Nat.not_le.2 hw), Yard.modLoop_told, hl]

end again

section request
variable {s : State} {lp : ScreenId} {l : LoopRec} {rs : List Report} (hs : s.settled)
include hs

theorem exec_rise (h : s.yard.requestRises lp = s.yard.told lp l rs) :
    exec (.lendRequestRise lp) s = .next ((s.withLoop lp l).reported rs) :=
  event_loop (f := fun _ y => y.requestRises lp) hs h

theorem exec_fall (h : s.yard.requestFalls lp = s.yard.told lp l rs) :
    exec (.lendRequestFall lp) s = .next ((s.withLoop lp l).reported rs) :=
  event_loop (f := fun _ y => y.requestFalls lp) hs h

/-- A request that falls in a loan ends it with LEND_END, and the values of the loop's posts are sent again. -/
theorem exec_fall_ends (hl : s.yard.loops[lp] = l) (hr : l.request = true)
    (ho : l.owner = .lent ∨ l.owner = .reclaiming) {u y : Yard}
    (hu : u = (s.withLoop lp { l with request := false, owner := .polling, grant := false, lendTimer := none }).yard)
    (hy : y = ({ u with raised := [.lendEnd lp] } : Yard).resendLoop Yard.drain lp) :
    exec (.lendRequestFall lp) s = .next (({ s with yard := { y with raised := [] } } : State).reported y.raised) ∧
      (y.loops[lp]).loan = { l.loan with request := false, owner := .polling, grant := false, lendTimer := none } ∧
      ∃ rest, y.raised = .lendEnd lp :: rest := by
  have htold : s.yard.told lp { l with request := false, owner := .polling, grant := false, lendTimer := none }
      [.lendEnd lp] = { u with raised := [.lendEnd lp] } := by
    rw [hu]
    unfold Yard.told
    rw [show s.yard.raised = [] from hs]
    rfl
  have hfall : s.yard.requestFalls lp = y := by
    have hreturns : s.yard.requestFalls lp = (s.yard.told lp { l with request := false } []).endLoan lp := by
      rw [Yard.requestFalls_eq hl hr]
      rcases ho with ho | ho <;> rw [ho]
    rw [hreturns, hy, ← htold, Yard.endLoan_told]
  obtain ⟨rest, hrest⟩ := Yard.resendLoop_raised { u with raised := [.lendEnd lp] } lp
  have hloan := Yard.resendLoop_loan { u with raised := [.lendEnd lp] } lp
  rw [← hy] at hrest hloan
  refine ⟨event_yard (f := fun y => y.requestFalls lp) hfall, hloan.trans ?_, rest, hrest.symm⟩
  rw [← htold, Yard.told_loop]
  rfl

end request

/-- Settles O37: the request line by its rise and fall, and a transaction's end in YIELDING by the same end in POLLING,
which the fields of lending have no part in. -/
theorem loopsAreLent : Obligations.LoopsAreLent := by
  unfold Obligations.LoopsAreLent
  intro s lp l hs hl
  refine ⟨fun hr => ?again, fun hr ha => ?refused, fun hr ha ho hd hc => ?lent, fun hr ha ho hd hc => ?yielding,
    fun hr ha ho => ?later, fun hr ho => ?unyield, fun hr ho => ?unasked, fun hr ho => ?ends,
    fun hr ha ho hc rd hd => ?abandons, fun ho ht => ?overrun, fun h => ?stopped, fun ho t n left ht hw => ?inFlight⟩
  case again => exact event_yard_same (f := fun _ y => y.requestRises lp) hs (Yard.requestRises_again hl hr)
  case refused => exact exec_rise hs (Yard.requestRises_refused hl hr ha)
  case lent =>
    refine exec_rise hs ?_
    rw [Yard.requestRises_yields hl hr ha ho hd]
    exact Yard.grantLoan_raised _ _ _ (by rfl) hc
  case yielding =>
    refine exec_rise hs ?_
    rw [Yard.requestRises_yields hl hr ha ho hd]
    refine if_neg ?_
    rw [Yard.told_loop]
    rintro ⟨-, hn⟩
    rw [Option.isNone_iff_eq_none.1 hn] at hc
    cases hc
  case abandons =>
    refine exec_rise hs ?_
    rw [Yard.requestRises_abandons hl hr ha ho hd, LoopRec.dropRepeat_eq]
    exact Yard.grantLoan_raised _ _ _ (by rfl) hc
  case later => exact exec_rise hs (Yard.requestRises_later hl hr ha ho)
  case unyield => exact exec_fall hs (by rw [Yard.requestFalls_eq hl hr, ho])
  case unasked => exact exec_fall hs (by rw [Yard.requestFalls_eq hl hr, ho])
  case ends =>
    refine ⟨?_, fun u y hu hy => (exec_fall_ends hs hl hr ho hu hy).1⟩
    obtain ⟨hstep, hloan, rest, hrest⟩ := exec_fall_ends hs hl hr ho rfl rfl
    generalize Yard.resendLoop Yard.drain _ lp = y at hstep hloan hrest
    exact ⟨_, hstep, congrArg LoanFields.owner hloan, congrArg LoanFields.grant hloan,
      congrArg LoanFields.lendTimer hloan, congrArg LoanFields.request hloan,
      fun _ => ⟨rest, congrArg s.link.after hrest⟩⟩
  case overrun =>
    exact event_loop (f := fun _ y => y.lendExpired lp) hs (Yard.lendExpired_lent hl ho ht)
  case stopped => exact event_yard_same (f := fun _ y => y.lendExpired lp) hs (Yard.lendExpired_idle hl h)
  case inFlight =>
    have hcur : (s.yard.loops[lp]).current = some t := hl ▸ ht
    refine ⟨fun c hc => ?_, fun bytes q hq hv ha => ?_, fun bytes q again hq hv hwait hagain => ?_⟩
    · obtain ⟨e, record, hexec⟩ := exec_endsBy hw hc
      obtain ⟨w, reports, hpoll, hlink, hnone, hyield⟩ := State.yields (t := t) (e := e) (record := record) hs hl ho
      refine ⟨w, reports, ?_, hlink, hnone, ?_⟩
      · rw [hexec _ (by rw [State.withLoop_get]; exact ht), ← hpoll]
        rfl
      · rw [hexec s hcur, hyield]
    · refine event_loop (f := fun s y => y.takeResponse s.site lp bytes) hs ?_
      rw [Yard.takeResponse_valid hcur hw hq, hv]
      dsimp only
      rw [Yard.takeAgain_yields hl ho ha, LoopRec.dropRepeat_eq]
      rfl
    · refine event_loop (f := fun s y => y.takeResponse s.site lp bytes) hs ?_
      rw [Yard.takeResponse_valid hcur hw hq, hv]
      dsimp only
      rw [Yard.takeWait_again hl hwait, hagain]

end Sys2Proof.Machine
end
